-- ==== Sys2Proof/Word.lean ====
section
/-! DEFINITION. The words of the machine and their plainest arithmetic (00_scope R3). -/

namespace Sys2Proof

/-- A 64-bit register value. -/
abbrev Word := BitVec 64

/-- A byte of memory. -/
abbrev Byte := BitVec 8

/-- A 32-bit instruction or operand word. -/
abbrev W32 := BitVec 32

/-- Element `i` of a list replaced by `x`; a list too short is first filled with `d`. -/
def upd {α : Type} (d : α) : List α → Nat → α → List α
  | [], 0, x => [x]
  | [], n + 1, x => d :: upd d [] n x
  | _ :: l, 0, x => x :: l
  | y :: l, n + 1, x => y :: upd d l n x

/-- The little-endian value of a list of bytes (R3). -/
def leNat : List Byte → Nat
  | [] => 0
  | b :: l => b.toNat + 256 * leNat l

/-- The `n` little-endian bytes of a number (R3). -/
def leBytes : Nat → Nat → List Byte
  | 0, _ => []
  | n + 1, v => BitVec.ofNat 8 v :: leBytes n (v / 256)

/-- Bits `hi` down to `lo` of a number. -/
def bits (v hi lo : Nat) : Nat := (v >>> lo) % 2 ^ (hi + 1 - lo)

/-- Bit `i` of a number. -/
def bit (v i : Nat) : Bool := v.testBit i

/-- One or zero. -/
def b2n (b : Bool) : Nat := if b then 1 else 0

/-- A one-bit truth value as a register value. -/
def b2w (b : Bool) : Word := if b then 1 else 0

/-- SignExtend(x, n) of 00_scope, as an integer. -/
def sext (n x : Nat) : Int :=
  if x % 2 ^ n < 2 ^ (n - 1) then (x % 2 ^ n : Nat) else (x % 2 ^ n : Nat) - (2 ^ n : Nat)

/-- An integer modulo 2^n. -/
def wrapTo (n : Nat) (x : Int) : Nat := (x % (2 ^ n : Nat)).toNat

/-- min(a + b, top): the saturating counters of the manual. -/
def satAdd (top a b : Nat) : Nat := min (a + b) top

/-- The first element of a list that passes a test, with its index. -/
def findIdx {α : Type} (p : α → Bool) : List α → Nat → Option (Nat × α)
  | [], _ => none
  | x :: l, i => if p x then some (i, x) else findIdx p l (i + 1)

/-- The value a key has in a sorted association list. -/
def lookup {α : Type} : List (Nat × α) → Nat → Option α
  | [], _ => none
  | (k, v) :: l, n => if n = k then some v else lookup l n

/-- The association list with key `n` set to `v`, keys strictly rising. -/
def insertKey {α : Type} : List (Nat × α) → Nat → α → List (Nat × α)
  | [], n, v => [(n, v)]
  | (k, x) :: l, n, v =>
    if n < k then (n, v) :: (k, x) :: l
    else if n = k then (n, v) :: l
    else (k, x) :: insertKey l n v

/-- The association list without key `n`. -/
def eraseKey {α : Type} : List (Nat × α) → Nat → List (Nat × α)
  | [], _ => []
  | (k, x) :: l, n => if n = k then l else (k, x) :: eraseKey l n

/-- A set of numbers as a strictly rising list: insertion. -/
def insertNum : List Nat → Nat → List Nat
  | [], n => [n]
  | k :: l, n => if n < k then n :: k :: l else if n = k then k :: l else k :: insertNum l n

/-- A set of numbers as a strictly rising list: removal. -/
def eraseNum (l : List Nat) (n : Nat) : List Nat := l.filter (fun k => k != n)

end Sys2Proof
end

