-- ==== Sys2Proof/Machine/Num.lean ====
section
/-! DEFINITION. Number formats: exact values, decoding, RoundTo, DD8, angles, integers and
the stochastic generator (03_number_formats R43 to R69). -/

namespace Sys2Proof.Machine

/-- The formats of R43, R46, R47, R49 and R56. `int n` is two's complement, `uint n` unsigned
(only FCVT code 4 rounds into it), `ang n` a binary angle, `raw` tag 0xF. -/
inductive Fmt where
  | fp64 | fp32 | bf16 | fp16 | e5m2 | e4m3 | e3m2 | e2m3 | e2m1 | dd8
  | int (n : Nat) | uint (n : Nat) | ang (n : Nat) | raw
deriving DecidableEq, Repr

/-- The format a tag of R49 names; tag 0x0 names none. -/
def Fmt.ofTag : Nat → Option Fmt
  | 0x1 => some .fp32 | 0x2 => some .bf16 | 0x3 => some .fp16 | 0x4 => some .e4m3
  | 0x5 => some .e5m2 | 0x6 => some .e3m2 | 0x7 => some .e2m3 | 0x8 => some .e2m1
  | 0x9 => some .dd8 | 0xA => some (.int 8) | 0xB => some (.int 4) | 0xC => some (.int 32)
  | 0xD => some (.ang 16) | 0xE => some (.ang 32) | 0xF => some .raw | _ => none

/-- Families of R191: 1 floating, 2 integer, 3 angle, 0 none. -/
def tagFamily (t : Nat) : Nat :=
  if 1 ≤ t ∧ t ≤ 9 then 1 else if 0xA ≤ t ∧ t ≤ 0xC then 2 else if t = 0xD ∨ t = 0xE then 3 else 0

/-- Element bits in a register (R49); tag 0x0 counts as bytes. -/
def elemBits (t : Nat) : Nat :=
  if t = 1 ∨ t = 0xC ∨ t = 0xE then 32
  else if t = 2 ∨ t = 3 ∨ t = 0xD then 16
  else if t = 8 ∨ t = 0xB then 4 else 8

/-- Elements per 512-byte register (R49). -/
def elemsPerReg (t : Nat) : Nat := 4096 / elemBits t

/-- Element bits in memory (R49, R54): six-bit formats are packed. -/
def memBits (t : Nat) : Nat := if t = 6 ∨ t = 7 then 6 else elemBits t

/-- Bytes of `n` elements of a tag in memory (R53, R54). -/
def memBytes (t n : Nat) : Nat := (n * memBits t + 7) / 8

/-- How a binary format uses its top exponent (R43, R44). -/
inductive BinKind where | ieee | e4m3 | finite
deriving DecidableEq, Repr

/-- Exponent bits, fraction bits, bias and kind of a binary format (R43). -/
structure BinFmt where
  E : Nat
  M : Nat
  B : Nat
  kind : BinKind
deriving DecidableEq, Repr

def Fmt.bin : Fmt → Option BinFmt
  | .fp64 => some ⟨11, 52, 1023, .ieee⟩
  | .fp32 => some ⟨8, 23, 127, .ieee⟩
  | .bf16 => some ⟨8, 7, 127, .ieee⟩
  | .fp16 => some ⟨5, 10, 15, .ieee⟩
  | .e5m2 => some ⟨5, 2, 15, .ieee⟩
  | .e4m3 => some ⟨4, 3, 7, .e4m3⟩
  | .e3m2 => some ⟨3, 2, 3, .finite⟩
  | .e2m3 => some ⟨2, 3, 1, .finite⟩
  | .e2m1 => some ⟨2, 1, 1, .finite⟩
  | _ => none

/-- Width of a code in bits. -/
def Fmt.width : Fmt → Nat
  | .fp64 => 64 | .fp32 => 32 | .bf16 => 16 | .fp16 => 16 | .e5m2 => 8 | .e4m3 => 8
  | .e3m2 => 6 | .e2m3 => 6 | .e2m1 => 4 | .dd8 => 8
  | .int n => n | .uint n => n | .ang n => n | .raw => 8

/-- An exact value: a NaN (signalling or not), an infinity, or sign and `num/den`. -/
inductive Val where
  | nan (sig : Bool)
  | inf (neg : Bool)
  | fin (neg : Bool) (num den : Nat)
deriving DecidableEq, Repr

def Val.isNaN : Val → Bool
  | .nan _ => true
  | _ => false

def Val.isSig : Val → Bool
  | .nan b => b
  | _ => false

def Val.isInf : Val → Bool
  | .inf _ => true
  | _ => false

def Val.isZero : Val → Bool
  | .fin _ n _ => n == 0
  | _ => false

def Val.neg : Val → Val
  | .nan b => .nan b
  | .inf s => .inf (!s)
  | .fin s n d => .fin (!s) n d

def Val.abs : Val → Val
  | .nan b => .nan b
  | .inf _ => .inf false
  | .fin _ n d => .fin false n d

def Val.sign : Val → Bool
  | .nan _ => false
  | .inf s => s
  | .fin s _ _ => s

def Val.zero : Val := .fin false 0 1
def Val.one : Val := .fin false 1 1

/-- An integer as an exact value. -/
def Val.ofInt (i : Int) : Val := .fin (decide (i < 0)) i.natAbs 1

/-- m * 2^e as an exact value with sign `s`. -/
def Val.scaled (s : Bool) (m : Nat) (e : Int) : Val :=
  if e < 0 then .fin s m (2 ^ e.natAbs) else .fin s (m * 2 ^ e.toNat) 1

/-- DecodeBinary of R44. A NaN is signalling when its top fraction bit is 0 (R45, IEEE 754). -/
def decodeBinary (f : BinFmt) (x : Nat) : Val :=
  let s := bit x (f.E + f.M)
  let ex := (x >>> f.M) % 2 ^ f.E
  let fr := x % 2 ^ f.M
  if ex = 0 then Val.scaled s fr (1 - (f.B : Int) - (f.M : Int))
  else if f.kind = .ieee ∧ ex = 2 ^ f.E - 1 then
    if fr = 0 then .inf s else .nan (!bit fr (f.M - 1))
  else if f.kind = .e4m3 ∧ ex = 15 ∧ fr = 7 then .nan false
  else Val.scaled s (2 ^ f.M + fr) ((ex : Int) - (f.B : Int) - (f.M : Int))

/-- The canonical quiet NaN of a format (R45); +0 where the format has none. -/
def canonNaN : Fmt → Nat
  | .fp64 => 0x7FF8000000000000
  | .fp32 => 0x7FC00000
  | .bf16 => 0x7FC0
  | .fp16 => 0x7E00
  | .e5m2 => 0x7E
  | .e4m3 => 0x7F
  | .dd8 => 0x80
  | _ => 0

/-! ### Flags and the rounding context -/

/-- FLAGS bits (R70). -/
def fINX : BitVec 5 := 1
def fUNF : BitVec 5 := 2
def fOVF : BitVec 5 := 4
def fDZ : BitVec 5 := 8
def fINV : BitVec 5 := 16

/-- What a rounding threads: its substream (R65) and the flags it has set (R71). -/
structure Rnd where
  st : BitVec 64
  fl : BitVec 5
deriving DecidableEq, Repr

def Rnd.set (c : Rnd) (f : BitVec 5) : Rnd := { c with fl := c.fl ||| f }

def Rnd.setIf (c : Rnd) (b : Bool) (f : BitVec 5) : Rnd := if b then c.set f else c

/-- Mix of R65. -/
def mix (z0 : BitVec 64) : BitVec 64 :=
  let z1 := z0 + 0x9E3779B97F4A7C15
  let z2 := (z1 ^^^ (z1 >>> 30)) * 0xBF58476D1CE4E5B9
  let z3 := (z2 ^^^ (z2 >>> 27)) * 0x94D049BB133111EB
  z3 ^^^ (z3 >>> 31)

/-- Seed(j) of R65. -/
def seedOf (workId rseq : BitVec 64) (j : Nat) : BitVec 64 :=
  let st := mix (workId ^^^ mix (rseq ^^^ (BitVec.ofNat 64 j <<< 56)))
  if st = 0 then 1 else st

/-- NextDraw of R65. -/
def Rnd.draw (c : Rnd) : Nat × Rnd :=
  let a := c.st ^^^ (c.st <<< 13)
  let b := a ^^^ (a >>> 7)
  let d := b ^^^ (b <<< 17)
  ((d >>> 40).toNat, { c with st := d })

/-! ### Rounding -/

/-- Rounds num/den to a whole number under a mode of R62, ties to even in mode 0 (R63, R64).
The flag says whether the rounding was inexact. -/
def rndInt (neg : Bool) (mode num den : Nat) (c : Rnd) : Nat × Bool × Rnd :=
  let q := num / den
  let r := num % den
  if r = 0 then (q, false, c)
  else match mode with
    | 0 => (if 2 * r > den ∨ (2 * r = den ∧ q % 2 = 1) then q + 1 else q, true, c)
    | 1 => (q, true, c)
    | 2 => (if neg then q else q + 1, true, c)
    | 3 => (if neg then q + 1 else q, true, c)
    | 4 => (if 2 * r ≥ den then q + 1 else q, true, c)
    | _ =>
      let (u, c) := c.draw
      (if u * den < 2 ^ 24 * r then q + 1 else q, true, c)

/-- floor(log2(num/den)) for num, den > 0. -/
def floorLog2 (num den : Nat) : Int :=
  let e0 : Int := (Nat.log2 num : Int) - (Nat.log2 den : Int)
  let ge := if e0 < 0 then num * 2 ^ e0.natAbs ≥ den else num ≥ den * 2 ^ e0.toNat
  if ge then e0 else e0 - 1

/-- num/den times 2^k as a pair. -/
def scalePair (num den : Nat) (k : Int) : Nat × Nat :=
  if k < 0 then (num, den * 2 ^ k.natAbs) else (num * 2 ^ k.toNat, den)

def BinFmt.emin (f : BinFmt) : Int := 1 - (f.B : Int)

/-- The code of the largest finite magnitude (R43). -/
def BinFmt.maxCode (f : BinFmt) : Nat :=
  match f.kind with
  | .ieee => (2 ^ f.E - 1) * 2 ^ f.M - 1
  | .e4m3 => 0x7E
  | .finite => 2 ^ (f.E + f.M) - 1

/-- The code of infinity, in the formats that have it. -/
def BinFmt.infCode (f : BinFmt) : Nat := (2 ^ f.E - 1) * 2 ^ f.M

/-- Bounds a write may carry (R67): a register with the clamp bit 0 or 1, or memory written
through a record with its clamp bound (zero means the largest finite magnitude). -/
inductive Bound where
  | reg (clamp : Bool)
  | record (num den : Nat)
deriving DecidableEq, Repr

/-- The finite magnitude of a value. -/
def Val.mag : Val → Nat × Nat
  | .fin _ n d => (n, d)
  | _ => (0, 1)

/-- The magnitudes of the 127 non-zero codes of DD8 (R56). -/
def dd8Mag (c : Nat) : Nat × Nat :=
  let n := Nat.log2 c
  let z := 6 - n
  if n = 0 then (10 ^ 6, 1)
  else
    let t := bit c (n - 1)
    let k := n - 1
    let f := c % 2 ^ k
    if t then ((2 ^ k + 9 * f), 2 ^ k * 10 ^ (z + 1)) else ((2 ^ k + 9 * f) * 10 ^ z, 2 ^ k)

/-- Decade of a DD8 code: its exponent and whether it is the row of R56's t bit. -/
def dd8Decade (c : Nat) : Nat × Bool :=
  let n := Nat.log2 c
  if n = 0 then (6, false) else (6 - n, bit c (n - 1))

/-- Bit 0 of the fraction field of a DD8 code (0 where the field is absent). -/
def dd8OddFrac (c : Nat) : Bool := if Nat.log2 c < 2 then false else bit c 0

def leQ (a b : Nat × Nat) : Bool := a.1 * b.2 ≤ b.1 * a.2
def ltQ (a b : Nat × Nat) : Bool := a.1 * b.2 < b.1 * a.2
def eqQ (a b : Nat × Nat) : Bool := a.1 * b.2 == b.1 * a.2

/-- The DD8 code with the greatest magnitude not above m, 0 when none (R59). -/
def dd8Lo (m : Nat × Nat) : Nat :=
  (List.range 128).foldl (fun best c =>
    if c = 0 then best
    else if leQ (dd8Mag c) m && (best == 0 || ltQ (dd8Mag best) (dd8Mag c)) then c else best) 0

/-- The DD8 code with the least magnitude above m, 0 when none (R59). -/
def dd8Hi (m : Nat × Nat) : Nat :=
  (List.range 128).foldl (fun best c =>
    if c = 0 then best
    else if ltQ m (dd8Mag c) && (best == 0 || ltQ (dd8Mag c) (dd8Mag best)) then c else best) 0

def dd8Val (c : Nat) : Nat × Nat := if c = 0 then (0, 1) else dd8Mag c

def subQ (a b : Nat × Nat) : Nat × Nat := (a.1 * b.2 - b.1 * a.2, a.2 * b.2)
def addQ (a b : Nat × Nat) : Nat × Nat := (a.1 * b.2 + b.1 * a.2, a.2 * b.2)
def mulQ (a b : Nat × Nat) : Nat × Nat := (a.1 * b.1, a.2 * b.2)

/-- Encoding into DD8 (R59). -/
def roundDD8 (neg : Bool) (num den mode : Nat) (bound : Nat × Nat) (c : Rnd) : Nat × Rnd :=
  let m := (num, den)
  if num = 0 then (0, c)
  else
    let above := ltQ bound m
    let m := if above then bound else m
    let c := c.setIf above (fOVF ||| fINX)
    let lo := dd8Lo m
    let sgn (k : Nat) := if k = 0 then 0 else if neg then 128 + k else k
    if lo ≠ 0 ∧ eqQ (dd8Mag lo) m then (sgn lo, c)
    else
      let hi := dd8Hi m
      let c := c.set fINX
      let c := c.setIf (ltQ m (1, 10 ^ 6)) fUNF
      let dl := subQ m (dd8Val lo)
      let dh := subQ (dd8Val hi) m
      let nearer (tie : Nat) := if ltQ dl dh then lo else if ltQ dh dl then hi else tie
      match mode with
      | 0 => (sgn (nearer (if lo ≠ 0 ∧ dd8Decade lo = dd8Decade hi then
                            (if dd8OddFrac lo then hi else lo) else hi)), c)
      | 1 => (sgn lo, c)
      | 2 => (sgn (if neg then lo else hi), c)
      | 3 => (sgn (if neg then hi else lo), c)
      | 4 => (sgn (nearer hi), c)
      | _ =>
        let (u, c) := c.draw
        let w := subQ (dd8Val hi) (dd8Val lo)
        (sgn (if ltQ (u * w.1, w.2) (2 ^ 24 * dl.1, dl.2) then hi else lo), c)

/-- Rounding of a finite value into a binary format (R63). `bound = none` is the bound
+infinity of R67: the set of magnitudes then ends with 2^(emax+1), which stands for infinity, so a value
there or above it rounds to it under every mode and overflows (DEDUCED, log 21). -/
def roundBin (f : BinFmt) (neg : Bool) (num den mode : Nat) (bound : Option (Nat × Nat))
    (c : Rnd) : Nat × Rnd :=
  let sg := if neg then 2 ^ (f.E + f.M) else 0
  let fits := match bound with | none => true | some b => leQ (num, den) b
  if num = 0 then (sg, c)
  else
    let c := if fits then c else c.set (fOVF ||| fINX)
    let (num, den) := if fits then (num, den) else bound.getD (0, 1)
    let e := floorLog2 num den
    let emax : Int := (2 : Int) ^ f.E - 2 - (f.B : Int)
    if f.kind = .ieee ∧ bound = none ∧ e > emax then
      let c := if eqQ (num, den) (scalePair 1 1 (emax + 1)) then c
        else (if mode = 5 then c.draw.2 else c).set fINX
      (sg + f.infCode, c.set fOVF)
    else
      let q : Int := max e f.emin - (f.M : Int)
      let (n', d') := scalePair num den (-q)
      let (n, inx, c) := rndInt neg mode n' d' c
      let c := c.setIf inx fINX
      let c := c.setIf (inx && decide (e < f.emin)) fUNF
      let code := (max e f.emin - f.emin).toNat * 2 ^ f.M + n
      if f.kind = .ieee ∧ code ≥ f.infCode then (sg + f.infCode, c.set fOVF)
      else (sg + code, c)

/-- BoundInForce of R67 for the formats with a bound; `none` is +infinity. -/
def boundFor (f : Fmt) (neg : Bool) (b : Bound) : Option (Nat × Nat) :=
  let largest : Nat × Nat := match f with
    | .int n => if neg then (2 ^ (n - 1), 1) else (2 ^ (n - 1) - 1, 1)
    | .uint n => if neg then (0, 1) else (2 ^ n - 1, 1)
    | .dd8 => (10 ^ 6, 1)
    | _ => match f.bin with
      | some bf => (decodeBinary bf bf.maxCode).mag
      | none => (0, 1)
  match b with
  | .record n d => if n = 0 then some largest else some (n, d)
  | .reg clamp =>
    match f.bin with
    | some bf => if bf.kind = .ieee ∧ clamp = false then none else some largest
    | none => some largest

/-- RoundTo of R63, with the special values of R45, R59 and R69 and the angle rule of R47.
Answers the code written. -/
def roundTo (f : Fmt) (x : Val) (mode : Nat) (b : Bound) (c : Rnd) : Nat × Rnd :=
  match f with
  | .raw => (0, c)
  | .ang n =>
    match x with
    | .fin neg num den =>
      let (k, inx, c) := rndInt neg mode (num * 2 ^ n) den c
      (wrapTo n (if neg then -(k : Int) else k), c.setIf inx fINX)
    | _ => (0, c.set fINV)
  | .dd8 =>
    match x with
    | .fin neg num den => roundDD8 neg num den mode ((boundFor .dd8 neg b).getD (10 ^ 6, 1)) c
    | _ => (0x80, c.set fINV)
  | .int n =>
    match x with
    | .nan _ => (0, c.set fINV)
    | .inf s =>
      let bd := (boundFor (.int n) s b).getD (0, 1)
      let k : Int := (bd.1 / bd.2 : Nat)
      (wrapTo n (if s then -k else k), c.set fOVF)
    | .fin neg num den =>
      let bd := (boundFor (.int n) neg b).getD (0, 1)
      if leQ (num, den) bd then
        let (k, inx, c) := rndInt neg mode num den c
        (wrapTo n (if neg then -(k : Int) else k), c.setIf inx fINX)
      else
        let k : Int := (bd.1 / bd.2 : Nat)
        (wrapTo n (if neg then -k else k), c.set (fOVF ||| fINX))
  | .uint n =>
    match x with
    | .nan _ => (0, c.set fINV)
    | .inf s => (if s then 0 else 2 ^ n - 1, c.set fOVF)
    | .fin neg num den =>
      if neg then
        let (k, inx, c) := rndInt neg mode num den c
        (0, if k = 0 then c.setIf inx fINX else c.set (fOVF ||| fINX))
      else if num ≤ (2 ^ n - 1) * den then
        let (k, inx, c) := rndInt neg mode num den c
        (k, c.setIf inx fINX)
      else (2 ^ n - 1, c.set (fOVF ||| fINX))
  | f =>
    match f.bin with
    | none => (0, c)
    | some bf =>
      match x with
      | .nan sig => if bf.kind = .finite then (0, c.set fINV) else (canonNaN f, c.setIf sig fINV)
      | .inf s =>
        let sg := if s then 2 ^ (bf.E + bf.M) else 0
        match boundFor f s b with
        | none => (sg + bf.infCode, c)
        | some bd =>
          let r := roundBin bf s bd.1 bd.2 1 (some bd) ⟨0, 0⟩
          (r.1, c.set fOVF)
      | .fin neg num den =>
        roundBin bf neg num den mode (boundFor f neg b) c

/-- The FP32 image of a DD8 code (R57, R58): round to nearest even of the exact magnitude. -/
def dd8Image (c : Nat) : Nat :=
  let k := c % 256
  if k = 0 then 0
  else if k = 0x80 then 0x7FC00000
  else
    let m := dd8Mag (k % 128)
    (roundBin ⟨8, 23, 127, .ieee⟩ (decide (k ≥ 128)) m.1 m.2 0 none ⟨0, 0⟩).1

/-- The exact value of a code (R44, R46, R47, R58); angles in turns, raw bytes unsigned. -/
def decodeVal (f : Fmt) (x : Nat) : Val :=
  match f with
  | .dd8 => decodeBinary ⟨8, 23, 127, .ieee⟩ (dd8Image x)
  | .int n => Val.ofInt (sext n x)
  | .uint n => .fin false (x % 2 ^ n) 1
  | .ang n => .fin false (x % 2 ^ n) (2 ^ n)
  | .raw => .fin false (x % 256) 1
  | f => match f.bin with
    | some bf => decodeBinary bf x
    | none => Val.zero

/-! ### Exact operations with their INV rules (R45, R71) -/

/-- A magnitude with a sign. -/
def signed (s : Bool) (n : Nat) : Int := if s then -(n : Int) else (n : Int)

def nanFlags (xs : List Val) : BitVec 5 := if xs.any Val.isSig then fINV else 0

/-- a + b; the zero of an exact cancellation is -0 only under mode 3 (IEEE 754, R45). -/
def addV (mode : Nat) (a b : Val) : Val × BitVec 5 :=
  match a, b with
  | .nan _, _ => (.nan false, nanFlags [a, b])
  | _, .nan _ => (.nan false, nanFlags [a, b])
  | .inf s, .inf t => if s = t then (.inf s, 0) else (.nan false, fINV)
  | .inf s, _ => (.inf s, 0)
  | _, .inf t => (.inf t, 0)
  | .fin s n d, .fin t m e =>
    if n = 0 ∧ m = 0 then (.fin (if s = t then s else mode == 3) 0 1, 0)
    else
      let x : Int := signed s (n * e) + signed t (m * d)
      if x = 0 then (.fin (mode == 3) 0 1, 0)
      else (.fin (decide (x < 0)) x.natAbs (d * e), 0)

def mulV (a b : Val) : Val × BitVec 5 :=
  match a, b with
  | .nan _, _ => (.nan false, nanFlags [a, b])
  | _, .nan _ => (.nan false, nanFlags [a, b])
  | .inf s, y => if y.isZero then (.nan false, fINV) else (.inf (s != y.sign), 0)
  | x, .inf t => if x.isZero then (.nan false, fINV) else (.inf (x.sign != t), 0)
  | .fin s n d, .fin t m e => (.fin (s != t) (n * m) (d * e), 0)

/-- a * b + c, the product exact; 0 * infinity sets INV even when c is a NaN (R201). -/
def fmaV (mode : Nat) (a b c : Val) : Val × BitVec 5 :=
  let p := mulV a b
  if a.isNaN || b.isNaN || c.isNaN then (.nan false, p.2 ||| nanFlags [a, b, c])
  else if p.1.isNaN then p
  else addV mode p.1 c

def divV (a b : Val) : Val × BitVec 5 :=
  match a, b with
  | .nan _, _ => (.nan false, nanFlags [a, b])
  | _, .nan _ => (.nan false, nanFlags [a, b])
  | .inf _, .inf _ => (.nan false, fINV)
  | .inf s, y => (.inf (s != y.sign), 0)
  | .fin s _ _, .inf t => (.fin (s != t) 0 1, 0)
  | .fin s n d, .fin t m e =>
    if m = 0 then if n = 0 then (.nan false, fINV) else (.inf (s != t), fDZ)
    else (.fin (s != t) (n * e) (d * m), 0)

/-- Comparison of values that are not NaN: -1, 0, 1. -/
def cmpV (a b : Val) : Int :=
  match a, b with
  | .inf s, .inf t => if s = t then 0 else if s then -1 else 1
  | .inf s, _ => if s then -1 else 1
  | _, .inf t => if t then 1 else -1
  | .fin s n d, .fin t m e =>
    let x : Int := signed s (n * e)
    let y : Int := signed t (m * d)
    if x < y then -1 else if x = y then 0 else 1
  | _, _ => 0

/-- The smaller value under R161 and R203: -0 below +0, one NaN gives the number. -/
def minV (a b : Val) : Val × BitVec 5 :=
  let f := nanFlags [a, b]
  if a.isNaN then (if b.isNaN then .nan false else b, f)
  else if b.isNaN then (a, f)
  else if cmpV a b < 0 ∨ (cmpV a b = 0 ∧ a.sign) then (a, f) else (b, f)

/-- The larger value under R161 and R203. -/
def maxV (a b : Val) : Val × BitVec 5 :=
  let f := nanFlags [a, b]
  if a.isNaN then (if b.isNaN then .nan false else b, f)
  else if b.isNaN then (a, f)
  else if cmpV a b > 0 ∨ (cmpV a b = 0 ∧ !a.sign) then (a, f) else (b, f)

/-! ### Square roots -/

/-- floor(sqrt n) by Newton's steps from above, with fuel. -/
def isqrtStep : Nat → Nat → Nat → Nat
  | 0, _, x => x
  | k + 1, n, x =>
    let y := (x + n / x) / 2
    if y < x then isqrtStep k n y else x

def isqrt (n : Nat) : Nat :=
  if n = 0 then 0 else isqrtStep (Nat.log2 n + 2) n (2 ^ (Nat.log2 n / 2 + 1))

/-- Fraction bits of the approximations below. A boundary of any format, and any stochastic
threshold, is a multiple of 2^-1200, so a value strictly between two neighbours of this grid
rounds as the irrational number does. -/
def gridBits : Nat := 1200

/-- sqrt(n/d) exactly where it is rational, else the midpoint of its grid cell. -/
def sqrtPair (n d : Nat) : Nat × Nat :=
  let k := isqrt (n * d)
  if k * k = n * d then (k, d)
  else
    let r := isqrt (n * d * 4 ^ gridBits)
    (2 * r + 1, 2 * d * 2 ^ gridBits)

/-- Square root (R160): -0 stays -0, a value below -0 gives NaN with INV. -/
def sqrtV (a : Val) : Val × BitVec 5 :=
  match a with
  | .nan _ => (.nan false, nanFlags [a])
  | .inf s => if s then (.nan false, fINV) else (.inf false, 0)
  | .fin s n d =>
    if n = 0 then (.fin s 0 1, 0)
    else if s then (.nan false, fINV)
    else let r := sqrtPair n d; (.fin false r.1 r.2, 0)

/-- Rounds an operation's value, merging the flags it set. -/
def finish (f : Fmt) (mode : Nat) (b : Bound) (r : Val × BitVec 5) (c : Rnd) : Nat × Rnd :=
  roundTo f r.1 mode b (c.set r.2)

end Sys2Proof.Machine
end

