-- ==== Sys2Proof/Config.lean ====
section
/-! DEFINITION. What the implementation fixes and the spec leaves open: constants without a value.
No proof can see what any of them is. -/

namespace Sys2Proof.Config

/-- The clk that pass during one step of the machine (timing: assumption 2). -/
opaque clk : Nat → Nat

/-- The `n`-th choice among the bytes that an undefined byte may hold (00 R11; assumption 3). -/
opaque freePick : Nat → Nat

/-- The digest the trust core computes over a list of bytes: SHAKE256 (02 R34; assumption 4). -/
opaque digest : List Byte → List Byte

/-- The `n`-th random draw of the trust core (02 R40; assumption 4). -/
opaque nonce : Nat → List Byte

/-- Whether a signature over a message verifies under a key (02 R27, R41; assumption 4). -/
opaque signatureOk : List Byte → List Byte → List Byte → Bool

/-- The fused bytes of the part, by name: 0 device identifier, 1 firmware key digest, 2 debug key, 3 ROM
version, 4 identity seed (02 R30; assumption 4). -/
opaque fuse : Nat → List Byte

/-- The tenant-visible rank of this package (07 R135; log 24). -/
opaque ownRank : BitVec 12

/-- The number of this package in its domain (16 R389; log 24). -/
opaque ownPackage : BitVec 5

/-- The packages of the domain, 1 to 32 (16 R389; log 57). -/
opaque domainSize : Nat

/-- The ML-DSA-65 identity key derived from the identity seed and the firmware measurement (02 R30; assumption
4). -/
opaque identityKey : List Byte → List Byte → List Byte

/-- The SPDM and TDISP response bytes to a request of a kind, from the request, the measurement slots and the
identity key (02 R35; assumption 4). -/
opaque spdm : Nat → List Byte → List Byte → List Byte → List Byte

/-- Whether a message is a request of the flows of 02 R35 (assumption 4). -/
opaque spdmKnown : List Byte → Bool

/-- Whether a request is a message secured under the session of a number (02 R35; assumption 87). -/
opaque securedIn : Nat → List Byte → Bool

/-- The KMAC256 tag of 128 bits over bytes 0 to 47 of a handle record, under the seal key of a number (04 R74;
assumption 5). -/
opaque kmac : Nat → List Byte → BitVec 128

/-- The version number a firmware image carries (02 R27; assumption 4). -/
opaque fwVersion : List Byte → Nat

/-- The latency of a pseudo-channel for a cluster under installed calendars, in clk (12 R306; timing: assumption 2). -/
opaque latency : List Byte → Nat → Nat → BitVec 16

/-- The bytes of a range of a save area that a save wrote, by the number of the save: the layout is private to the
device (20 R427; log 56). -/
opaque saveByte : Nat → Nat → BitVec 8

/-- The bytes of the staging area of BM after a retirement's staging block, by the number of the draw: they are
ciphertext (21 R440; log 37). -/
opaque stageByte : Nat → Nat → BitVec 8

/-- Whether the access to a line of a granule in transit that a step meets was located before the granule entered it, so
that it is held at the old home and refused there; else its requester stalls (21 R442, 22 R458; log 90). -/
opaque locatedBefore : Nat → Nat → Bool

/-- The core whose burst a calendar slot carries in a step, or whose burst a refresh cuts; none from 768 on (12 R305,
R309; timing: assumption 2). -/
opaque slotTaker : Nat → Nat

/-- Whether a hoop station has no room for the request flit that reaches it in a step (16 R386; log 38). -/
opaque stationFull : Nat → Bool

end Sys2Proof.Config
end

