-- ==== Sys2Proof/Syntax.lean ====
section
/-! DEFINITION. The steps of the machine: one constructor for each row of the opcode table.
Operands of instruction words stand as the raw fields of R139 to R144. A host or platform act
carries what the outside world brings with it, or the unit it concerns. -/

namespace Sys2Proof

/-- The engines in the code order of R251. -/
inductive Eng where | matrix | plait | vector | copy
deriving DecidableEq, Repr

/-- Format A (R139): fields d, a, b and the literal that follows when b is 62 or 63. -/
structure OpA where
  d : BitVec 6
  a : BitVec 6
  b : BitVec 6
  lit : Word
deriving DecidableEq, Repr

/-- Format I (R140). -/
structure OpI where
  d : BitVec 6
  a : BitVec 6
  imm : BitVec 14
deriving DecidableEq, Repr

/-- Format I of majors 0x0F and 0x14: imm14 without its selector bits (R140). -/
structure OpJ where
  d : BitVec 6
  a : BitVec 6
  n : BitVec 12
deriving DecidableEq, Repr

/-- Format B (R141) without the condition. -/
structure OpB where
  a : BitVec 6
  disp : BitVec 16
deriving DecidableEq, Repr

/-- Format M (R142) and its literal. -/
structure OpM where
  t : BitVec 6
  h : BitVec 4
  x : BitVec 6
  size : BitVec 2
  order : BitVec 2
  scope : BitVec 3
  scale : BitVec 3
  lit : Word
deriving DecidableEq, Repr

/-- Format V (R143): every field of both words but major, fn and the reserved bits. -/
structure OpV where
  d : BitVec 6
  a : BitVec 6
  b : BitVec 6
  w : BitVec 2
  sa : BitVec 4
  sb : BitVec 4
  dtag : BitVec 4
  rnd : BitVec 3
  clamp : BitVec 1
  mask : BitVec 3
  minv : BitVec 1
  c : BitVec 6
deriving DecidableEq, Repr

/-- Format E (R144): the token fields, the operand words (zero where the command has fewer
than three) and the literal. -/
structure OpE where
  kd : BitVec 5
  ka : BitVec 5
  kb : BitVec 5
  kc : BitVec 5
  w1 : W32
  w2 : W32
  w3 : W32
  lit : Word
deriving DecidableEq, Repr

/-- Units that patrol themselves or are patrolled (R315): a bank, or a cluster pool. -/
inductive PatrolUnit where | bank (n : Nat) | pool (n : Nat)
deriving DecidableEq, Repr

/-- What link training and attestation yield about a peer (R392, R487). -/
structure PeerRecord where
  pkg : Nat
  devId : BitVec 128
  lifecycle : BitVec 8
  slots : List (BitVec 512)
deriving DecidableEq, Repr

/-- The operations a flit may carry (R384 names them and gives no codes). `param` is the device's own read of a parameter record, under the
KIND of its handle (R85, log 92). -/
inductive HoopOp where | read | write | atomic | agent | arrival | status | param (kind : Nat)
deriving DecidableEq, Repr

/-- A flit (R384). `resv` gathers its reserved bits. -/
structure Flit where
  cls : BitVec 2
  op : HoopOp
  rc : Bool
  ret : Bool
  resv : BitVec 13
  pkey : BitVec 16
  sdie : BitVec 3
  spkg : BitVec 5
  ddie : BitVec 3
  dpkg : BitVec 5
  tag : BitVec 16
  addr : BitVec 48
  tenant : BitVec 8
  /-- LEN: payload bytes minus 1 -/
  len : BitVec 6
  payload : List Byte
deriving DecidableEq, Repr

/-- What an Ethernet frame carries for an endpoint pair (R398). -/
inductive FrameBody where
  | op (x : Flit)
  | ack (seq : Nat)
  | pause (prio : Nat) (on : Bool)
deriving DecidableEq, Repr

structure Frame where
  endpt : Nat
  seq : Nat
  body : FrameBody
deriving DecidableEq, Repr

/-- The units an access passes through (R434): the walk unit and the sweep engine of a stack, a station of the hoop
or of the crossbar of a die. -/
inductive PathUnit where
  | walk (stack : Nat)
  | sweep (stack : Nat)
  | hoop (die : Nat)
  | crossbar (die : Nat)
deriving DecidableEq, Repr

/-- The struck state of a soft error (R434). -/
inductive SoftError where
  | coreLogic (c : Nat)
  | regionLog (c : Nat)
  | handleCache (c entry : Nat)
  | xlateCache (i : Nat)
  | poolRecord (launch i : Nat)
  | path (u : PathUnit) (ctxs : List Nat)
  | trustCore
deriving DecidableEq, Repr

/-- The rows of the opcode table. -/
inductive Instr where
  /-- d := a + b modulo 2^64 (R156). -/
  | add (o : OpA)
  /-- d := a − b (R156). -/
  | sub (o : OpA)
  /-- Low 64 bits of a × b (R156). -/
  | mul (o : OpA)
  /-- High 64 bits of the signed product (R156). -/
  | mulhs (o : OpA)
  /-- High 64 bits of the unsigned product (R156). -/
  | mulhu (o : OpA)
  /-- Signed division truncating toward zero, with fixed results for division by zero (R157). -/
  | divs (o : OpA)
  /-- Unsigned division (R157). -/
  | divu (o : OpA)
  /-- Signed remainder (R157). -/
  | rems (o : OpA)
  /-- Unsigned remainder (R157). -/
  | remu (o : OpA)
  /-- Bitwise AND (R156). -/
  | and (o : OpA)
  /-- Bitwise OR (R156). -/
  | or (o : OpA)
  /-- Bitwise XOR (R156). -/
  | xor (o : OpA)
  /-- a AND NOT b (R156). -/
  | andn (o : OpA)
  /-- Shift left by b mod 64 (R156). -/
  | shl (o : OpA)
  /-- Logical shift right by b mod 64 (R156). -/
  | shrl (o : OpA)
  /-- Arithmetic shift right by b mod 64 (R156). -/
  | shra (o : OpA)
  /-- Rotate left by b mod 64 (R156). -/
  | rotl (o : OpA)
  /-- Signed minimum (R156). -/
  | min (o : OpA)
  /-- Signed maximum (R156). -/
  | max (o : OpA)
  /-- Unsigned minimum (R156). -/
  | minu (o : OpA)
  /-- Unsigned maximum (R156). -/
  | maxu (o : OpA)
  /-- d := 1 if a = b, else 0 (R156). -/
  | cmpeq (o : OpA)
  /-- Signed less-than compare (R156). -/
  | cmplt (o : OpA)
  /-- Unsigned less-than compare (R156). -/
  | cmpltu (o : OpA)
  /-- Count of leading zero bits (R156). -/
  | clz (o : OpA)
  /-- Count of trailing zero bits (R156). -/
  | ctz (o : OpA)
  /-- Count of set bits (R156). -/
  | popc (o : OpA)
  /-- Extract a bit field, zero-extended (R158). -/
  | bext (o : OpA)
  /-- Insert a bit field into d (R158). -/
  | bins (o : OpA)
  /-- d := a if stage predicate q is 1, else b (R156). -/
  | sel (q : BitVec 3) (o : OpA)
  /-- d := a + sign-extended imm14 (R159). -/
  | addi (o : OpI)
  /-- d := a AND imm (R159). -/
  | andi (o : OpI)
  /-- d := a OR imm (R159). -/
  | ori (o : OpI)
  /-- d := a XOR imm (R159). -/
  | xori (o : OpI)
  /-- d := 1 if a = imm, else 0 (R159). -/
  | cmpeqi (o : OpI)
  /-- d := 1 if signed a < imm, else 0 (R159). -/
  | cmplti (o : OpI)
  /-- Shift left by an immediate count (R159). -/
  | shli (o : OpJ)
  /-- Logical shift right by an immediate count (R159). -/
  | shrli (o : OpJ)
  /-- Arithmetic shift right by an immediate count (R159). -/
  | shrai (o : OpJ)
  /-- FP32 addition under mode m (R160). -/
  | fadd (m : BitVec 3) (o : OpA)
  /-- FP32 subtraction (R160). -/
  | fsub (m : BitVec 3) (o : OpA)
  /-- FP32 multiplication (R160). -/
  | fmul (m : BitVec 3) (o : OpA)
  /-- FP32 fused multiply-add into d (R160). -/
  | ffma (m : BitVec 3) (o : OpA)
  /-- FP32 division (R160). -/
  | fdiv (m : BitVec 3) (o : OpA)
  /-- FP32 square root (R160). -/
  | fsqrt (m : BitVec 3) (o : OpA)
  /-- FP32 minimum (R161). -/
  | fmin (m : BitVec 3) (o : OpA)
  /-- FP32 maximum (R161). -/
  | fmax (m : BitVec 3) (o : OpA)
  /-- FP32 compare under condition c (R161). -/
  | fcmp (m : BitVec 3) (o : OpA)
  /-- FP32 conversion selected by the code in field b (R162). -/
  | fcvt (m : BitVec 3) (o : OpA)
  /-- FP64 addition (R160). -/
  | faddFp64 (m : BitVec 3) (o : OpA)
  /-- FP64 subtraction (R160). -/
  | fsubFp64 (m : BitVec 3) (o : OpA)
  /-- FP64 multiplication (R160). -/
  | fmulFp64 (m : BitVec 3) (o : OpA)
  /-- FP64 fused multiply-add (R160). -/
  | ffmaFp64 (m : BitVec 3) (o : OpA)
  /-- FP64 division (R160). -/
  | fdivFp64 (m : BitVec 3) (o : OpA)
  /-- FP64 square root (R160). -/
  | fsqrtFp64 (m : BitVec 3) (o : OpA)
  /-- FP64 minimum (R161). -/
  | fminFp64 (m : BitVec 3) (o : OpA)
  /-- FP64 maximum (R161). -/
  | fmaxFp64 (m : BitVec 3) (o : OpA)
  /-- FP64 compare (R161). -/
  | fcmpFp64 (m : BitVec 3) (o : OpA)
  /-- FP64 conversion (R162). -/
  | fcvtFp64 (m : BitVec 3) (o : OpA)
  /-- qd := 1 if s_a ≠ 0, else 0 (R163). -/
  | qset (o : OpA)
  /-- qd := qa AND qb (R163). -/
  | qand (o : OpA)
  /-- qd := qa OR qb (R163). -/
  | qor (o : OpA)
  /-- qd := NOT qa (R163). -/
  | qnot (o : OpA)
  /-- Unconditional branch (R165). -/
  | br (o : OpB)
  /-- Branch if s_a = 0 (R165). -/
  | brEqz (o : OpB)
  /-- Branch if s_a ≠ 0 (R165). -/
  | brNez (o : OpB)
  /-- Branch if s_a < 0 (R165). -/
  | brLtz (o : OpB)
  /-- Branch if s_a ≥ 0 (R165). -/
  | brGez (o : OpB)
  /-- Branch if s_a > 0 (R165). -/
  | brGtz (o : OpB)
  /-- Branch if s_a ≤ 0 (R165). -/
  | brLez (o : OpB)
  /-- Branch if stage predicate q = 1 (R165). -/
  | brQ (o : OpB)
  /-- Branch if stage predicate q = 0 (R165). -/
  | brNq (o : OpB)
  /-- Set a loop counter from a count, or branch to the exit (R167). -/
  | loopInit (n : BitVec 2) (o : OpB)
  /-- Loop back-edge: decrement the counter and branch while it is non-zero (R167). -/
  | loop (n : BitVec 2) (o : OpB)
  /-- Start a software-pipelined loop: counter, predicates and rotation bases (R168). -/
  | loopspInit (n : BitVec 2) (o : OpB)
  /-- Pipelined back-edge: rotate registers, shift predicates and branch while a stage runs (R168). -/
  | loopsp (n : BitVec 2) (o : OpB)
  /-- PC := b (R166). -/
  | jmp (o : OpA)
  /-- d := return address; PC := b (R166). -/
  | call (o : OpA)
  /-- PC := s_a (R166). -/
  | ret (o : OpA)
  /-- No effect (R178). -/
  | nop (o : OpA)
  /-- Waits, releases at device scope and ends the strand (R179). -/
  | exit (o : OpA)
  /-- Exact BRK trap (R178). -/
  | brk (o : OpA)
  /-- Region boundary, then a SYSCALL trap (R178). -/
  | syscall (o : OpA)
  /-- Traps with ARITH if FLAGS AND FLAGEN is non-zero (R180). -/
  | trapf (o : OpA)
  /-- Region boundary (R178). -/
  | rgn (o : OpA)
  /-- Waits, releases and writes a continuation record with a scope (R172). -/
  | suspend (sc : BitVec 2) (o : OpA)
  /-- Suspends with Y = 1, joining the tail of the READY queue (R172). -/
  | suspendYield (sc : BitVec 2) (o : OpA)
  /-- Compares a BM word and, while it is equal, suspends as a watcher (R173). -/
  | watch (sc : BitVec 2) (o : OpA)
  /-- Writes a new READY strand record into the cluster pool (R174). -/
  | spawn (o : OpA)
  /-- Queues a device-side launch (R175). -/
  | launch (o : OpA)
  /-- Work-stealing check: becomes a thief or serves a held steal request (R123). -/
  | splitchk (o : OpA)
  /-- Arrives at the stepped launch's barrier (R125). -/
  | sstep (o : OpA)
  /-- Reads a control register (R181). -/
  | csrrd (o : OpJ)
  /-- Reads and writes a control register (R181). -/
  | csrwr (o : OpJ)
  /-- Reads a control register and sets bits (R181). -/
  | csrset (o : OpJ)
  /-- Reads a control register and clears bits (R181). -/
  | csrclr (o : OpJ)
  /-- Scalar load of 1 to 8 bytes through a handle (R316). -/
  | ld (o : OpM)
  /-- Scalar store of 1 to 8 bytes through a handle (R316). -/
  | st (o : OpM)
  /-- Loads a handle register from the launch's handle list (R83). -/
  | hload (o : OpA)
  /-- Returns the visible properties of a handle (R322). -/
  | hquery (o : OpA)
  /-- Empties a handle register (R321). -/
  | hdrop (o : OpA)
  /-- Atomic add at the point of order (R383). -/
  | atomAdd (o : OpM) (v : BitVec 6) (w : BitVec 6)
  /-- Atomic AND (R383). -/
  | atomAnd (o : OpM) (v : BitVec 6) (w : BitVec 6)
  /-- Atomic OR (R383). -/
  | atomOr (o : OpM) (v : BitVec 6) (w : BitVec 6)
  /-- Atomic XOR (R383). -/
  | atomXor (o : OpM) (v : BitVec 6) (w : BitVec 6)
  /-- Atomic signed minimum (R383). -/
  | atomMin (o : OpM) (v : BitVec 6) (w : BitVec 6)
  /-- Atomic signed maximum (R383). -/
  | atomMax (o : OpM) (v : BitVec 6) (w : BitVec 6)
  /-- Atomic unsigned minimum (R383). -/
  | atomMinu (o : OpM) (v : BitVec 6) (w : BitVec 6)
  /-- Atomic unsigned maximum (R383). -/
  | atomMaxu (o : OpM) (v : BitVec 6) (w : BitVec 6)
  /-- Atomic swap (R383). -/
  | atomSwap (o : OpM) (v : BitVec 6) (w : BitVec 6)
  /-- Atomic compare-and-swap (R383). -/
  | atomCas (o : OpM) (v : BitVec 6) (w : BitVec 6)
  /-- Atomic floating-point add (R383). -/
  | atomFadd (o : OpM) (v : BitVec 6) (w : BitVec 6)
  /-- Atomic 16-byte swap (R382). -/
  | atom2Swap (o : OpM) (v : BitVec 6) (w : BitVec 6)
  /-- Atomic 16-byte compare-and-swap (R382). -/
  | atom2Cas (o : OpM) (v : BitVec 6) (w : BitVec 6)
  /-- Acquires a handle's guard at a scope (R380). -/
  | acq (sc : BitVec 3) (o : OpA)
  /-- Closes the region, drains and releases the guard (R380). -/
  | rel (sc : BitVec 3) (o : OpA)
  /-- Waits on the listed tokens, then releases the guard (R380). -/
  | relK (sc : BitVec 3) (o : OpA)
  /-- Fence at a scope; writes back and drops the line buffer (R380). -/
  | fence (sc : BitVec 3) (o : OpA)
  /-- Waits on tokens and faults on an error status (R370). -/
  | kwait (o : OpA)
  /-- Waits on every token (R370). -/
  | kwaitAll (o : OpA)
  /-- Tests whether a token is complete (R371). -/
  | ktest (o : OpA)
  /-- Returns a token's status word (R372). -/
  | kstat (o : OpA)
  /-- Returns a token's status word and clears a completed status to OK (R372). -/
  | kstatClr (o : OpA)
  /-- Arms an arrival barrier (R376). -/
  | binit (o : OpA)
  /-- Counts arrivals on the barriers of cores of the cluster (R377). -/
  | barrive (o : OpA)
  /-- Waits until a barrier's phase count passes a ticket (R378). -/
  | bwait (o : OpA)
  /-- Tests whether a barrier's phase count has passed a ticket (R378). -/
  | btest (o : OpA)
  /-- Closes the open copy group and returns its number (R373). -/
  | commit (o : OpA)
  /-- Waits on closed groups up to a ticket (R373). -/
  | waitg (o : OpA)
  /-- Waits on every closed group (R373). -/
  | waitgAll (o : OpA)
  /-- Queues a step-table run on an engine (R251). -/
  | tblstart (e : BitVec 2) (o : OpA)
  /-- Stops the oldest unfinished table run of an engine (R251). -/
  | tblstop (e : BitVec 2) (o : OpA)
  /-- Queues a new table base and entry count (R251). -/
  | tblbase (e : BitVec 2) (o : OpA)
  /-- Returns from the supervisor to EPC (R424). -/
  | eret (o : OpA)
  /-- Drains, waits and ends the strand with TRAPCAUSE as its status (R424). -/
  | halt (o : OpA)
  /-- Invalidates an instruction-cache line within a scope (R467). -/
  | icinv (o : OpA)
  /-- Writes a code word and invalidates the caches within a scope (R467). -/
  | codepatch (o : OpA)
  /-- Marks the issuing strand stop pending, in DEBUG only (R462). -/
  | dbgstop (o : OpA)
  /-- Contiguous vector load from local memory (R196). -/
  | vld (o : OpV)
  /-- Contiguous vector store to local memory (R196). -/
  | vst (o : OpV)
  /-- Strided vector load (R196). -/
  | vlds (o : OpV)
  /-- Strided vector store (R196). -/
  | vsts (o : OpV)
  /-- Indexed vector gather (R197). -/
  | vgath (o : OpV)
  /-- Indexed vector scatter (R197). -/
  | vscat (o : OpV)
  /-- Copies or reinterprets a register group (R199). -/
  | vmov (o : OpV)
  /-- Broadcasts a scalar into a group (R200). -/
  | vbcast (o : OpV)
  /-- Extracts one element to a scalar (R200). -/
  | vextr (o : OpV)
  /-- Inserts a scalar into one element (R200). -/
  | vins (o : OpV)
  /-- Element-wise addition (R201). -/
  | vadd (o : OpV)
  /-- Element-wise subtraction (R201). -/
  | vsub (o : OpV)
  /-- Element-wise multiplication (R201). -/
  | vmul (o : OpV)
  /-- Element-wise fused multiply-add (R201). -/
  | vfma (o : OpV)
  /-- Element-wise fused multiply-subtract (R201). -/
  | vfms (o : OpV)
  /-- Element-wise minimum (R203). -/
  | vmin (o : OpV)
  /-- Element-wise maximum (R203). -/
  | vmax (o : OpV)
  /-- Element-wise absolute value (R201). -/
  | vabs (o : OpV)
  /-- Element-wise negation (R201). -/
  | vneg (o : OpV)
  /-- Bytewise AND (R204). -/
  | vand (o : OpV)
  /-- Bytewise OR (R204). -/
  | vor (o : OpV)
  /-- Bytewise XOR (R204). -/
  | vxor (o : OpV)
  /-- Bytewise NOT (R204). -/
  | vnot (o : OpV)
  /-- Element-wise left shift (R205). -/
  | vshl (o : OpV)
  /-- Element-wise logical right shift (R205). -/
  | vshr (o : OpV)
  /-- Element-wise arithmetic right shift (R205). -/
  | vshrA (o : OpV)
  /-- Element compare for equality into a mask (R206). -/
  | vcmpEq (o : OpV)
  /-- Element compare for inequality into a mask (R206). -/
  | vcmpNe (o : OpV)
  /-- Element less-than compare into a mask (R206). -/
  | vcmpLt (o : OpV)
  /-- Element less-or-equal compare into a mask (R206). -/
  | vcmpLe (o : OpV)
  /-- Element greater-than compare into a mask (R206). -/
  | vcmpGt (o : OpV)
  /-- Element greater-or-equal compare into a mask (R206). -/
  | vcmpGe (o : OpV)
  /-- Selects elements by a mask (R207). -/
  | vsel (o : OpV)
  /-- Element conversion (R208). -/
  | vcvt (o : OpV)
  /-- Block-scaled conversion (R209). -/
  | vcvtBs (o : OpV)
  /-- Block-scales FP32 into narrow elements and E8M0 scales (R210). -/
  | vscale (o : OpV)
  /-- Tree sum reduction (R211). -/
  | vreds (o : OpV)
  /-- Maximum reduction (R212). -/
  | vredmMax (o : OpV)
  /-- Minimum reduction (R212). -/
  | vredmMin (o : OpV)
  /-- Inclusive prefix sum (R213). -/
  | vscan (o : OpV)
  /-- Permutes a chunk of elements by an index register (R214). -/
  | vperm (o : OpV)
  /-- Slides elements up with fill (R215). -/
  | vslideUp (o : OpV)
  /-- Slides elements down with fill (R215). -/
  | vslideDn (o : OpV)
  /-- Interleaves two groups (R216). -/
  | vzip (o : OpV)
  /-- De-interleaves a group into two (R216). -/
  | vunzip (o : OpV)
  /-- Writes an index sequence (R217). -/
  | viota (o : OpV)
  /-- Correctly rounded 2^x (R218). -/
  | vexp2 (o : OpV)
  /-- Correctly rounded log2 x (R218). -/
  | vlog2 (o : OpV)
  /-- Correctly rounded reciprocal (R218). -/
  | vrcp (o : OpV)
  /-- Correctly rounded reciprocal square root (R218). -/
  | vrsq (o : OpV)
  /-- sin 2πx, with x in turns (R218). -/
  | vsin (o : OpV)
  /-- cos 2πx, with x in turns (R218). -/
  | vcos (o : OpV)
  /-- tanh x (R218). -/
  | vtanh (o : OpV)
  /-- Logistic sigmoid (R218). -/
  | vsig (o : OpV)
  /-- Mask AND (R220). -/
  | mand (o : OpV)
  /-- Mask OR (R220). -/
  | mor (o : OpV)
  /-- Mask NOT (R220). -/
  | mnot (o : OpV)
  /-- Population count of a mask into a scalar (R220). -/
  | mpop (o : OpV)
  /-- Streams elements through a chain table of up to eight operations (R221). -/
  | vchain (o : OpV)
  /-- Replaces the matrix configuration (R240). -/
  | mcfg (o : OpE)
  /-- Loads the shadow weight plane w1 (R241). -/
  | mldw (o : OpE)
  /-- Exchanges w0 and w1 (R242). -/
  | mswap (o : OpE)
  /-- Zeroes a tile and makes it LIVE (R243). -/
  | mzero (o : OpE)
  /-- Streams activation rows through w0 into a tile (R244). -/
  | mmul (o : OpE)
  /-- Complex multiply of rows into a tile (R244). -/
  | mmulc (o : OpE)
  /-- Loads a tile from local memory (R245). -/
  | mlda (o : OpE)
  /-- Writes a tile to memory, rounded, and frees it (R246). -/
  | mret (o : OpE)
  /-- Frees a tile without writing it (R246). -/
  | mretFree (o : OpE)
  /-- Clears a lane window of a plane (R275). -/
  | plclr (o : OpE)
  /-- Loads a plane window from local memory (R276). -/
  | plload (o : OpE)
  /-- Streams rows through the triangle, building R (R277). -/
  | plqr (o : OpE)
  /-- Back-substitution on tq0 (R281). -/
  | plsolve (o : OpE)
  /-- Writes a plane window to local memory (R282). -/
  | pldrain (o : OpE)
  /-- Removes a gain count from FP32 elements in local memory (R282). -/
  | pldrainLm (o : OpE)
  /-- Replays a logged factorisation on right-hand-side rows (R278). -/
  | plapply (o : OpE)
  /-- Replays direction words on pairs in one sweep (R278). -/
  | plapplySw (o : OpE)
  /-- Rotates pairs by angles (R279). -/
  | plrot (o : OpE)
  /-- Turns pairs into magnitude and angle (R280). -/
  | plvec (o : OpE)
  /-- Exchanges tq0 and tq1 (R275). -/
  | plswap (o : OpE)
  /-- Copies rows between handles (R334). -/
  | cpy (o : OpE)
  /-- Multicasts rows into the LM of cluster cores, optionally counting barrier arrivals (R335). -/
  | cpym (o : OpE)
  /-- Gathers rows by an index list (R336). -/
  | cpg (o : OpE)
  /-- Scatters rows by an index list (R336). -/
  | cps (o : OpE)
  /-- Adds source elements into BM at the bank (R339). -/
  | cpredAdd (o : OpE)
  /-- Minimum of source elements into BM at the bank (R339). -/
  | cpredMin (o : OpE)
  /-- Maximum of source elements into BM at the bank (R339). -/
  | cpredMax (o : OpE)
  /-- Decodes one compressed tile into LM (R344). -/
  | cpdec (o : OpE)
  /-- Fills rows with a repeated pattern (R337). -/
  | cpfill (o : OpE)
  /-- Puts bytes to a remote range, optionally raising a counter (R338). -/
  | cpremPut (o : OpE)
  /-- Gets bytes from a remote range (R338). -/
  | cpremGet (o : OpE)
  /-- 16-byte compare-and-swap at a memory agent (R345). -/
  | cpagentCas128 (o : OpE)
  /-- 32-byte compare-and-swap at a memory agent (R345). -/
  | cpagentCas256 (o : OpE)
  /-- Enqueues a node onto a list at a memory agent (R345). -/
  | cpagentEnq (o : OpE)
  /-- Chases a linked list for a key at a memory agent (R345). -/
  | cpagentChase (o : OpE)
  /-- Adds a constant to BM elements at the bank (R339). -/
  | bmupdAdd (o : OpE)
  /-- Multiplies BM elements by a constant (R339). -/
  | bmupdMul (o : OpE)
  /-- Minimum of BM elements with a constant (R339). -/
  | bmupdMin (o : OpE)
  /-- Maximum of BM elements with a constant (R339). -/
  | bmupdMax (o : OpE)
  /-- Fused multiply-add of BM elements with two constants (R339). -/
  | bmupdFma (o : OpE)
  /-- Sets BM elements to a constant (R339). -/
  | bmupdSet (o : OpE)
  /-- Micro-order END ends the table run with OK (R254). -/
  | tableEnd (e : Eng) (m : BitVec 27)
  /-- Micro-order SETA sets a run address register (R254). -/
  | tableSeta (e : Eng) (m : BitVec 27)
  /-- Micro-order ADDA adds to a run address register (R254). -/
  | tableAdda (e : Eng) (m : BitVec 27)
  /-- Micro-order that loads one weight row of w1 (R254). -/
  | wrow (m : BitVec 27)
  /-- Micro-order that multiplies one activation row into a tile (R254). -/
  | arow (m : BitVec 27)
  /-- Micro-order SWAP, as MSWAP (R254). -/
  | tableSwap (m : BitVec 27)
  /-- Micro-order ZTILE, as MZERO (R254). -/
  | ztile (m : BitVec 27)
  /-- Micro-order SETL sets a run loop counter (R254). -/
  | tableSetl (e : Eng) (m : BitVec 27)
  /-- Micro-order BACK, the loop back-edge of a table run (R254). -/
  | tableBack (e : Eng) (m : BitVec 27)
  /-- Plait micro-order: one row of PLQR, optionally logged (R287). -/
  | prow (m : BitVec 27)
  /-- Plait micro-order: one row of PLAPPLY (R287). -/
  | papp (m : BitVec 27)
  /-- Copy micro-order that sets the high bits of a run address (R346). -/
  | seth (m : BitVec 27)
  /-- Copy micro-order that copies 64n bytes (R346). -/
  | move (m : BitVec 27)
  /-- Copy micro-order that decodes one compressed tile (R346). -/
  | dect (m : BitVec 27)
  /-- A power-on, PCIe fundamental reset, or hot or secondary bus reset of the physical function wipes all SRAM, registers and keys, returns the fused lifecycle state and runs the reset sequence (R22). -/
  | packageReset
  /-- Expiry of the trust core's own watchdog causes a package reset (R22). -/
  | trustCoreWatchdog
  /-- When the firmware read from flash has been verified, the bank with the higher valid version is chosen and measured; if both banks fail, the trust core enters the recovery loop (R27). -/
  | firmwareVerified
  /-- When stack training ends, SURV, SURVN, WHOME, CAPACITY and the calendars are set from the trained stacks, and the scrub sweep starts over every extent (R303). -/
  | hbmTrainingDone (trained : BitVec 16)
  /-- At 200 ms after reset release the host link stops answering with Configuration Request Retry Status, and the physical function's mailbox starts accepting commands (R25). -/
  | hostLinkConfigReady
  /-- A function-level reset of a virtual function scrubs only that function's contexts, while the other functions continue (R23). -/
  | functionLevelReset (f : Nat)
  /-- An input outside 40 V to 60 V for more than 1 ms, or a die junction at 105 °C, removes power at once and loses all state (R483). -/
  | powerTrip
  /-- An IDE failure on a function's stream moves that function to TDISP ERROR, and its contexts are lost (R37). -/
  | ideFailure (f : Nat)
  /-- Mailbox command 0x01 returns the 1536-byte status response: fuses, lifecycle, live stacks, firmware version and peer records (R487). -/
  | status (f : Nat)
  /-- Mailbox command 0x03 from the physical function performs a package reset (R33). -/
  | reset (f : Nat)
  /-- Mailbox command 0x04 from the physical function writes a firmware image into the inactive flash bank (R33). -/
  | fwLoad (f : Nat)
  /-- Mailbox command 0x10 draws a fresh 32-byte nonce and invalidates any earlier one (R40). -/
  | debugNonce (f : Nat)
  /-- Mailbox command 0x11 checks a debug token in order and, once any retirement has ended, burns a counter bit, wipes the device and enters DEBUG (R41). -/
  | debugUnlock (f : Nat)
  /-- Mailbox command 0x20 checks and requests a fused lifecycle transition of R28 (R488). -/
  | lifecycleAdvance (f : Nat)
  /-- After any stack retirement in progress has ended, a requested lifecycle transition wipes the device, abandons sweeps, frees every tenant identifier and starts the scrub (R489). -/
  | lifecycleTransition
  /-- Mailbox command 0x30 allocates a tenant identifier and a key slot and creates a handle table (R77). -/
  | ctxCreate (f : Nat) (sess : Option Nat)
  /-- Mailbox command 0x31 completes the context's queued launches, stops its strands, completes its launches with CONTEXT_ENDED and starts its scrub (R479). -/
  | ctxEnd (f : Nat) (sess : Option Nat)
  /-- Mailbox command 0x32 checks a proposed record, raises the entry's generation, seals the record and writes it (R78). -/
  | handleMint (f : Nat) (sess : Option Nat)
  /-- Mailbox command 0x33 raises an entry's generation and sweeps every core, cancelling or stopping the work that uses the entry (R450). -/
  | handleRevoke (f : Nat) (sess : Option Nat)
  /-- Mailbox command 0x34 returns record bytes 0 to 47 and the current generation of an entry (R77). -/
  | handleRead (f : Nat) (sess : Option Nat)
  /-- SPDM request that negotiates the protocol version (R35). -/
  | getVersion (f : Nat)
  /-- SPDM request for the responder's capabilities (R35). -/
  | getCapabilities (f : Nat)
  /-- SPDM request that selects the algorithms (R35). -/
  | negotiateAlgorithms (f : Nat)
  /-- SPDM request for the certificate-chain digests (R35). -/
  | getDigests (f : Nat)
  /-- SPDM request for the identity certificate chain (R35). -/
  | getCertificate (f : Nat)
  /-- SPDM challenge answered with an ML-DSA-65 signature under the identity key (R35). -/
  | challenge (f : Nat)
  /-- SPDM request answered with the measurement slots of R34 (R35). -/
  | getMeasurements (f : Nat)
  /-- SPDM request that starts a secured session by ML-KEM-768 encapsulation (R35). -/
  | keyExchange (f : Nat)
  /-- SPDM request that completes the establishment of a secured session (R35). -/
  | finish (f : Nat)
  /-- SPDM request that ends a secured session (R35). -/
  | endSession (f : Nat)
  /-- SPDM key update that replaces the session or port keys without stopping traffic (R393). -/
  | keyUpdate (p : Nat)
  /-- IDE key-management message, inside a secured session, that programs the host-link IDE keys (R35). -/
  | ideKm (f : Nat)
  /-- TDISP request that moves a function to CONFIG_LOCKED and freezes its configuration (R37). -/
  | lockInterfaceRequest (f : Nat)
  /-- TDISP request from the tenant's session that moves a function to RUN (R37). -/
  | startInterfaceRequest (f : Nat) (sess : Option Nat)
  /-- TDISP request that moves a locked or running function to ERROR, empties its launch queue and loses its contexts (R38). -/
  | stopInterfaceRequest (f : Nat)
  /-- Once the scrub of its contexts has ended, a function in ERROR answers STOP_INTERFACE and enters CONFIG_UNLOCKED (R38). -/
  | stopInterfaceComplete (f : Nat)
  /-- A write that changes LQPTR.TAIL submits slots; the launch unit copies them into the function's queue, reads PRIO and advances HEAD (R100). -/
  | launchSubmit (f : Nat) (tail : Nat)
  /-- When placement capacity is free, the home launch unit takes the launch of highest effective priority and admits it (R104). -/
  | launchTake (p : Nat)
  /-- The next cluster group is bound to the chosen cluster, and its CP share is allocated and zeroed (R113). -/
  | clusterGroupBind (l : Nat)
  /-- While its pool holds fewer than 256 records, the next strand of a bound group is written into the pool (R113). -/
  | strandGenerate (l : Nat)
  /-- An idle core chooses and starts the READY record it may run, binding core groups, or restores a save (R118). -/
  | strandDispatch (c : Nat)
  /-- A stepped or persistent launch that is taken, or that competes again, reserves every unfenced core of the partition (R114). -/
  | gangReserve (l : Nat)
  /-- Once the last reserved core has been freed, the gang's strands start together (R114). -/
  | gangStart (l : Nat)
  /-- At the end of its slice, a running strand is pre-empted if a READY strand may run on its core (R117). -/
  | sliceEnd (c : Nat)
  /-- When a function's consumption reaches its budget, its running strands receive pre-emption requests (R103). -/
  | budgetExhausted (f : Nat)
  /-- A new budget period restores the function's full budget (R103). -/
  | budgetPeriodStart (f : Nat)
  /-- A write that the bank orders to a watched word makes its watchers READY (R119). -/
  | watchWake (i : Nat)
  /-- A steal request reaches a strand on its route and is held, or passed on at once (R124). -/
  | stealRequestArrive (i : Nat)
  /-- A grant or an ungranted return reaches a thief and sets its range, in the save if it has been pre-empted (R176). -/
  | stealGrantArrive (i : Nat)
  /-- At origin + START an exchange-plan step is issued into its reserved slots (R127). -/
  | exchangeStepIssue (l : Nat) (k : Nat)
  /-- 256 clk after the last exchange step completes, the barrier's strands are released with a device-scope acquire (R125). -/
  | sstepRelease (l : Nat)
  /-- When its strands have ended and their posted writes are acknowledged, a launch frees its resources, submits graph successors and writes its records (R478). -/
  | launchComplete (l : Nat)
  /-- A waiting completion record is written at TAIL once the ring has room, TAIL advances and MSI-X vector 0 is raised (R477). -/
  | completionRecordWrite (f : Nat)
  /-- A write of PTCOMMIT.GO checks the written partition, fence and budget table and installs it whole (R110). -/
  | ptCommit
  /-- A write of CALCTL.GO checks the pending calendars for install at the next rotation boundary (R307). -/
  | calendarGo
  /-- A write of CALCTL.POST checks the pending calendars and holds them as the post-retirement set (R307). -/
  | calendarPost
  /-- At a rotation boundary, the accepted calendars replace the installed ones and the latency table is rewritten (R308). -/
  | calendarInstall
  /-- A write of PATOP.GO changes an extent's owner, or refuses the change with a code (R310). -/
  | patChange (v : Word)
  /-- A write of XLINV.GO starts the invalidation of cached translations for one entry or for every entry of a tenant (R300). -/
  | xlinv (v : Word)
  /-- An invalidation ends once old accesses have completed, and XLSTAT.BUSY clears (R300). -/
  | xlinvComplete
  /-- A host write of an inverted-page-table entry or anchor is checked and applied, or dropped with XLSTAT.ERR (R298). -/
  | walkApertureWrite (off : Nat) (bytes : List Byte)
  /-- PRQDONE with REFUSE 0 closes an entry and releases its waiters, which re-run or resume (R417). -/
  | pageRequestClose (e : Nat)
  /-- PRQDONE with REFUSE 1 closes an entry, and its waiters fail with HANDLE_RIGHTS (R417). -/
  | pageRequestRefuse (e : Nat)
  /-- FNEVICT.EVICT stops taking launches of the function and pre-empts its strands (R429). -/
  | functionEvict (f : Nat)
  /-- Once the function's strands are saved, its shares are written out and freed, and STATE becomes EVICTED (R429). -/
  | evictionDone (f : Nat)
  /-- FNEVICT.RESUME reloads the evicted shares under new keys, and the saved strands become READY (R429). -/
  | functionResume (f : Nat)
  /-- A write of GO to the save-area register checks the tenant's area and sets STATE to OK or REFUSED (R430). -/
  | saveAreaCheck (t : Nat)
  /-- A write of SWCAP.GO lowers CAPACITY, or refuses with a code (R437). -/
  | swcap (v : Word)
  /-- A write of SWRET.GO checks and starts the retirement of a stack (R438). -/
  | swret (v : Word)
  /-- A granule's move completes, the window shrinks from its top and the next granule enters transit (R440). -/
  | granuleMoveComplete
  /-- Once the window is empty, the lowest 256 granules are read into staging and then written to their new homes (R440). -/
  | stagingBlockMove
  /-- When old-mapping requests are settled, SURV, SURVN and WHOME change, PHASE becomes even and the stack stops (R445). -/
  | retirementEnd
  /-- A write of KRCTL.GO draws a new key into a free slot and starts the rotation mark (R446). -/
  | keyRotationStart (t : Nat)
  /-- After the last line, the tenant's records are resealed, the old key is destroyed and KRSTAT becomes even (R449). -/
  | keyRotationEnd (t : Nat)
  /-- Once the stopped commands' tokens have completed, REVSTAT becomes even and the response is written (R450). -/
  | revocationEnd
  /-- The scrub sweep finishes passing an extent, which becomes clean (R454). -/
  | scrubExtentDone
  /-- A channel calendar slot begins and serves one burst for its owner, or by reclaim, including sweep-class work (R305). -/
  | calendarSlot (p : Nat) (k : Nat)
  /-- At a bank's postponement limit, refresh takes the next slot and cuts the burst in progress, raising REFCUT (R309). -/
  | refreshForced (p : Nat) (k : Nat)
  /-- BM banks and cluster pools patrol every line once an hour, correcting or marking errors (R315). -/
  | bankPatrol (u : PatrolUnit) (bad : List Nat)
  /-- A rack port in DOWN that sees its peer signal enters TRAINING (R392). -/
  | linkPeerSignal (p : Nat)
  /-- Training ends, and the port enters ATTESTING, or DOWN on failure (R392). -/
  | linkTrainingDone (p : Nat) (ok : Bool) (peer : PeerRecord)
  /-- Loss of signal takes a port to DOWN (R392). -/
  | linkSignalLoss (p : Nat)
  /-- A port left in ATTESTING for 1 s with neither ALLOW nor DENY returns to DOWN (R392). -/
  | attestTimeout (p : Nat)
  /-- LNKCTL.ALLOW opens an attested port (R392). -/
  | allow (p : Nat)
  /-- LNKCTL.DENY refuses the attested peer, and the port goes DOWN (R392). -/
  | deny (p : Nat)
  /-- LNKCTL.CLOSE takes the port to DOWN (R392). -/
  | close (p : Nat)
  /-- A group of 16 flits is checked against its GCM tag; a failure discards the group for replay, and a fourth consecutive failure puts the port in ERROR (R393). -/
  | flitGroupReceive (p : Nat) (tagOk : Bool)
  /-- A station receives a flit: invalid ones are discarded, keys are checked, and requests are accepted or refused under the RC and RET rules (R386). -/
  | flitReceive (p : Nat) (x : Flit)
  /-- When a returned request's back-off expires, the sender resends it and its held successors in order (R386). -/
  | requestRetry (i : Nat)
  /-- The acknowledgement of a posted remote write arrives, possibly carrying an error status that the strand holds (R408). -/
  | remoteWriteAck (c : Nat) (i : Nat) (code : BitVec 8)
  /-- A received dead-context notice completes requests towards that context with PEER_DEAD and wakes the matching watchers (R395). -/
  | deadContextNotice (pkg : Nat) (pkey : BitVec 16)
  /-- After 64 retransmissions an endpoint is declared unreachable, and its operations complete with PEER_DEAD (R399). -/
  | endpointUnreachable (e : Nat)
  /-- At the matrix array's pre-emption point the sequencer stops, the engines cut at their cursors and the requests drain (R425). -/
  | preemptPointReached (c : Nat)
  /-- The strand's save is written with its completion mark, and the strand becomes READY on its core (R427). -/
  | preemptSaveComplete (c : Nat)
  /-- At PREDL, a core with no live tile state rolls back; a core with live tile state keeps draining (R426). -/
  | preemptDeadline (c : Nat)
  /-- At twice PREDL, a core still undrained ends its launch with WATCHDOG and stops every strand of the launch (R426). -/
  | watchdog (c : Nat)
  /-- A soft error detected in logic state rolls back a strand, drops a cache entry, loses contexts or resets the package (R434). -/
  | softError (x : SoftError)
  /-- A CPYM.bar piece written at a receiver is counted on its barrier, completing the phase when enough bytes have arrived (R375). -/
  | barrierArrive (i : Nat)
  /-- After every byte of a put.bar has been written, the destination bank adds n × l to the counter word (R338). -/
  | remoteCounterAdd (i : Nat)
  /-- The vector unit runs the head of its queue, completes its token and merges its flags (R183). -/
  | vectorExecute (c : Nat)
  /-- The matrix array starts its head command once the consumed tokens are complete, runs it and completes its token (R235). -/
  | matrixExecute (c : Nat)
  /-- The plait array starts its head command once the consumed tokens are complete, runs it and completes its token (R267). -/
  | plaitExecute (c : Nat)
  /-- The copy engine's head entry starts once its consumed tokens are complete (R324). -/
  | copyStart (c : Nat)
  /-- A copy command completes when every byte is written or acknowledged, and its token receives its status (R324). -/
  | copyComplete (c : Nat) (i : Nat)
  /-- DBGCMD ACT 1 marks the strand on a core stop pending (R460). -/
  | dbgStop (c : Nat)
  /-- DBGCMD ACT 2 lets a stopped strand continue (R461). -/
  | dbgResume (c : Nat)
  /-- DBGCMD ACT 3 resumes the strand and marks it stop pending again (R461). -/
  | dbgStep (c : Nat)
  /-- DBGCMD ACT 4 starts the command log of an engine (R468). -/
  | dbgLog (c : Nat) (e : Eng)
  /-- DBGCMD ACT 5 replays the logged entries of an engine on a stopped core (R468). -/
  | dbgReplay (c : Nat) (e : Eng)
  /-- DBGCMD ACT 6 ends an engine's command log (R468). -/
  | dbgLogoff (c : Nat) (e : Eng)
  /-- A write of DBGDATA sets the selected item of a stopped core, or sets ERR (R459). -/
  | debugDataWrite (v : Word)
  /-- A read of DBGDATA returns the selected item of a stopped core, or sets ERR (R459). -/
  | debugDataRead
  /-- A write to TRCCTL that raises EN starts tracing, or sets ERR if the ring extent is not platform-owned (R465). -/
  | traceEnable (v : Word)
  /-- A write of an event identifier to PMEVT sets UNAVAIL when this device lacks the event (R473). -/
  | pmevtWrite (f : Nat) (i : Nat) (v : Word)
  /-- A write to a rank-table entry takes effect only while the entry is not VALID (R391). -/
  | rankTableWrite (r : Nat) (v : Word)
  /-- A write to an admission-table entry; a PKEY of 0x0000 is refused (R390). -/
  | admissionTableWrite (i : Nat) (v : W32)
  /-- A write to a register that has no row of its own, under its access codes; a frozen field changed while locked moves the function to ERROR (R6). -/
  | registerWrite (f : Nat) (off : Nat) (v : Word)
  /-- A host read or write of device HBM arrives over the host link and is served by deficit round robin in host-class calendar slots (R397). -/
  | hostMemoryAccess (f : Nat) (pa : Nat) (wr : Option (List Byte))
  /-- An Ethernet port receives a UDP/IPv6 frame carrying an operation, an acknowledgement or flow control for an endpoint pair (R398). -/
  | scaleOutFrameReceive (port : Nat) (x : Frame)
  /-- The go-back-N timer of an endpoint pair expires and the unacknowledged operations are retransmitted (R398). -/
  | retransmissionTimeout (e : Nat)
  /-- The check of a written partition table ends, and the table is installed and measured or PTSTAT reports the failure code, and BUSY clears (R110). -/
  | ptCommitDone
  /-- An extent owner change in progress ends, PATSTAT reports its code and BUSY clears (R310). -/
  | patChangeDone
  /-- The check of a tenant's save area ends, and STATE moves from CHECKING to OK or REFUSED (R430). -/
  | saveAreaCheckDone (t : Nat)
  /-- A replay of logged engine entries on a stopped core ends, or fails on bounds, and DBGSTAT.STATE returns from replaying to stopped (R468). -/
  | debugReplayDone (c : Nat)
deriving DecidableEq, Repr

end Sys2Proof
end

