-- ==== Sys2Proof/WellFormed.lean ====
section
/-! DEFINITION. Which instruction words are well formed: steps 5 to 8 of the decode order (R146),
with the operand rules of R139 to R144, R190 to R197, R239, R274 and R333. -/

namespace Sys2Proof

open Machine

/-- The register counts of a launch that decode refers to (R92, R95, R133). -/
structure Limits where
  vregs : Nat
  kregs : Nat
  rots : Nat
  rotv : Nat
  rotk : Nat
deriving DecidableEq, Repr

/-- The largest counts a launch header admits, with no rotating region (R95). -/
def Limits.max : Limits := ⟨64, 32, 0, 0, 0⟩

/-- The results of the decode steps 5 to 8 (R146), and whether the literal stored with the
instruction is the one its literal field announces. -/
structure Checks where
  reservedOk : Bool
  fieldOk : Bool
  literalOk : Bool
  registerOk : Bool
  litCanon : Bool
deriving DecidableEq, Repr

/-- No check applies. -/
def Checks.none : Checks := ⟨true, true, true, true, true⟩

/-- Every check passes. -/
def Checks.all (k : Checks) : Bool :=
  k.reservedOk && k.fieldOk && k.literalOk && k.registerOk && k.litCanon

/-- Both sets of checks. -/
def Checks.and (k l : Checks) : Checks :=
  ⟨k.reservedOk && l.reservedOk, k.fieldOk && l.fieldOk, k.literalOk && l.literalOk,
    k.registerOk && l.registerOk, k.litCanon && l.litCanon⟩

/-- A rounding-mode field (R62). -/
def rndOk (m : Nat) : Bool := m ≤ 5

/-- The operand formats of the plait commands: FP32, BF16, FP16 (R274). -/
def fmtOk (t : Nat) : Bool := 1 ≤ t && t ≤ 3

/-- The control-register numbers of R135. -/
def csrAssigned (n : Nat) : Bool :=
  n ≤ 8 || (0x10 ≤ n && n ≤ 0x13) || (0x800 ≤ n && n ≤ 0x804) || (0x810 ≤ n && n ≤ 0x812) ||
    n == 0x820 || n == 0x830 || n == 0x831

/-- The literal that a literal-capable field holding `code` is followed by (R138). -/
def litCanon (code : BitVec 6) (lit : Word) : Bool :=
  if code = 63 then true else if code = 62 then lit.toNat < 2 ^ 32 else lit == 0

/-- What an A-form field names. -/
inductive AField where
  | zero
  | s
  | lit
  | litF
  | q
  | tok
  | tokd
  | h
  | h2
  | code (top : Nat)
  | spawn
  | cmask
deriving DecidableEq, Repr

/-- The checks of one A-form field (R138, R139, R163, R170, R251, R321, R369). -/
def AField.checks (lim : Limits) (k : AField) (v : Nat) : Checks :=
  match k with
  | .zero => { Checks.none with reservedOk := v == 0 }
  | .s => { Checks.none with literalOk := v < 62 }
  | .lit => Checks.none
  | .litF => { Checks.none with literalOk := v != 63 }
  | .q => { Checks.none with literalOk := v < 62, registerOk := v ≤ 7 }
  | .tok => { Checks.none with literalOk := v < 62, registerOk := v < 32 && v < lim.kregs }
  | .tokd => { Checks.none with registerOk := v < 32 && v < lim.kregs }
  | .h => { Checks.none with literalOk := v < 62, registerOk := v ≤ 15 }
  | .h2 => { Checks.none with literalOk := v < 62, registerOk := 2 ≤ v && v ≤ 15 }
  | .code top => { Checks.none with fieldOk := v ≤ top || 62 ≤ v, literalOk := v < 62 }
  | .spawn => { Checks.none with literalOk := v < 62, registerOk := v ≤ 58 }
  | .cmask => { Checks.none with reservedOk := bits v 5 4 == 0, fieldOk := bits v 3 0 != 0 }

/-- Whether an A-form field takes a literal (R138). -/
def AField.litCapable : AField → Bool
  | .lit => true
  | .litF => true
  | _ => false

/-- The checks of a format A instruction (R139). -/
def ckA (lim : Limits) (o : OpA) (kd ka kb : AField) (fieldOk : Bool) : Checks :=
  (kd.checks lim o.d.toNat).and ((ka.checks lim o.a.toNat).and ((kb.checks lim o.b.toNat).and
    { Checks.none with
      fieldOk := fieldOk
      litCanon := if kb.litCapable then litCanon o.b o.lit else o.lit == 0 }))

/-- The checks of a format I instruction (R140). -/
def ckI (d a : BitVec 6) (reserved fieldOk : Bool) : Checks :=
  { Checks.none with
    reservedOk := reserved
    fieldOk := fieldOk
    literalOk := decide (d.toNat < 62) && decide (a.toNat < 62) }

/-- What the field a of a branch names (R141, R164, R167, R168). -/
inductive BField where
  | zero
  | s
  | q3
  | stage
deriving DecidableEq, Repr

/-- The checks of a format B instruction (R141). -/
def ckB (o : OpB) (k : BField) : Checks :=
  match k with
  | .zero => { Checks.none with reservedOk := o.a == 0 }
  | .s => { Checks.none with literalOk := o.a.toNat < 62 }
  | .q3 => { Checks.none with registerOk := o.a.toNat ≤ 7 }
  | .stage => { Checks.none with reservedOk := bits o.a.toNat 5 3 == 0 }

/-- The checks of a format M instruction (R142). -/
def ckM (o : OpM) (fieldOk : Bool) : Checks :=
  { Checks.none with
    fieldOk := (o.order != 0 || o.scope == 0) && decide (o.scope.toNat ≤ 4) && fieldOk
    literalOk := o.t.toNat < 62
    litCanon := litCanon o.x o.lit }

/-- The checks of ATOM and ATOM2 (R381, R382): `two` pairs, `cas` the comparand field. -/
def ckAtom (o : OpM) (v w : BitVec 6) (two cas fieldOk : Bool) : Checks :=
  (ckM o fieldOk).and
    { Checks.none with
      reservedOk := cas || w == 0
      literalOk := decide (v.toNat < 62) && decide (w.toNat < 62)
      registerOk := !two || (even o.t && even v && even w) }
where
  /-- An even register number: the first of a pair. -/
  even (r : BitVec 6) : Bool := r.toNat % 2 == 0 && decide (r.toNat ≤ 60)

/-- What a register field of format V names (R194, R195). -/
inductive VField where
  | zero
  | vec
  | vec1
  | vec2
  | vecd
  | src
  | s
  | run (top : Nat)
  | h
  | mask
  | tok
  | tokNZ
  | index
deriving DecidableEq, Repr

/-- The widths w a vector instruction allows (R195). -/
inductive WKind where
  | any
  | one
  | upTo2
deriving DecidableEq, Repr

/-- What the selector fields sa and sb mean (R190, R195, R210, R214). -/
inductive SelKind where
  | zero
  | src
  | any
  | chunk
  | scale
deriving DecidableEq, Repr

/-- Which destination tags a vector instruction allows (R191, R195). -/
inductive TagKind where
  | any
  | zero
  | wide
  | gath
  | nz
  | fia
  | fi
  | fl
  | int
  | cmp
  | red
  | scale
deriving DecidableEq, Repr

/-- What the mask field means (R193). -/
inductive MaskKind where
  | yes
  | no
  | sel
deriving DecidableEq, Repr

/-- One row of the encoding table of R195; `rc` says how rnd and clamp are used: 0 not at all,
1 both, 2 rnd only, 3 both with rnd zero for a floating sum (R211). -/
structure VSpec where
  d : VField
  a : VField
  b : VField
  c : VField
  w : WKind
  sa : SelKind
  sb : SelKind
  dtag : TagKind
  rc : Nat
  mask : MaskKind
deriving DecidableEq, Repr

/-- The size of the source group that a selector code names for a destination group of `g`
registers, or none where the code breaks the table of R190. -/
def srcGroup (code g : Nat) : Option Nat :=
  if code = 0 then some g
  else if code ≤ 3 then if 2 ^ code * g ≤ 8 then some (2 ^ code * g) else none
  else
    let n := if code < 8 then 2 else if code < 12 then 4 else 8
    let j := code % 4
    if code = 6 ∨ code = 7 then none
    else if n ≤ g then if j = 0 then some (g / n) else none
    else if n / g ≤ 4 ∧ j < n / g then some 1 else none

/-- The index group of VGATH and VSCAT (R197). -/
def indexGroup (t g : Nat) : Option Nat :=
  if t = 0 ∨ memBits t < 8 then none
  else if g * 32 / elemBits t ≤ 8 then some (g * 32 / elemBits t) else none

/-- The selector VSCALE requires for a destination tag (R210). -/
def scaleSel (t : Nat) : Option Nat :=
  if t = 4 ∨ t = 5 ∨ t = 6 ∨ t = 7 ∨ t = 0xA then some 2 else if t = 8 ∨ t = 0xB then some 3 else none

/-- A vector group: aligned, below VREGS, not straddling the rotating region (R55, R95, R133). -/
def groupOk (lim : Limits) (base n : Nat) : Bool :=
  base % n == 0 && base + n ≤ lim.vregs &&
    !(decide (n > 1) && decide (0 < lim.rotv) && decide (base < 32 + lim.rotv) && decide (32 < base + n) &&
      !(decide (32 ≤ base) && decide (base + n ≤ 32 + lim.rotv)))

/-- The checks of one register field of format V. `sel` is the selector that goes with it. -/
def VField.checks (lim : Limits) (o : OpV) (k : VField) (sel v : Nat) : Checks :=
  let g := 2 ^ o.w.toNat
  let grp (n : Nat) : Checks := { Checks.none with registerOk := groupOk lim v n }
  match k with
  | .zero => { Checks.none with reservedOk := v == 0 }
  | .vec => grp g
  | .vec1 => grp 1
  | .vec2 => grp (2 * g)
  | .vecd => { Checks.none with
      registerOk := groupOk lim v g && (decide (o.d.toNat + g ≤ v) || decide (v + g ≤ o.d.toNat)) }
  | .src =>
    match srcGroup sel g with
    | some n => grp n
    | none => { Checks.none with fieldOk := false }
  | .s => { Checks.none with literalOk := v < 62 }
  | .run top => { Checks.none with literalOk := v < 62, registerOk := v ≤ top }
  | .h => { Checks.none with registerOk := v ≤ 15 }
  | .mask => { Checks.none with registerOk := v ≤ 7 }
  | .tok => { Checks.none with reservedOk := v < 32, registerOk := bits v 4 0 < lim.kregs }
  | .tokNZ => { Checks.none with
      reservedOk := v < 32, fieldOk := v != 0, registerOk := bits v 4 0 < lim.kregs }
  | .index =>
    match indexGroup o.dtag.toNat g with
    | some n => { Checks.none with
        fieldOk := v % n == 0 && o.d.toNat % g == 0, registerOk := groupOk lim v n }
    | none => { Checks.none with fieldOk := false }

/-- The tags a kind admits (R191, R196, R197, R205, R206, R210 to R212). -/
def TagKind.ok (k : TagKind) (t g : Nat) : Bool :=
  match k with
  | .any => true
  | .zero => true
  | .wide => !(decide (t ≠ 0) && decide (memBits t < 8))
  | .gath => (indexGroup t g).isSome
  | .nz => t != 0
  | .fia => 1 ≤ t && t ≤ 0xE
  | .fi => 1 ≤ t && t ≤ 0xC
  | .fl => 1 ≤ t && t ≤ 9
  | .int => 0xA ≤ t && t ≤ 0xC
  | .cmp => 1 ≤ t && t ≤ 0xE && g * elemsPerReg t ≤ 1024
  | .red => t == 1 || t == 0xC
  | .scale => (scaleSel t).isSome

/-- The checks of a format V instruction (R143, R194, R195). -/
def ckV (lim : Limits) (o : OpV) (p : VSpec) : Checks :=
  let g := 2 ^ o.w.toNat
  let sa := o.sa.toNat
  let sb := o.sb.toNat
  let t := o.dtag.toNat
  (p.d.checks lim o 0 o.d.toNat).and ((p.a.checks lim o sa o.a.toNat).and
    ((p.b.checks lim o sb o.b.toNat).and ((p.c.checks lim o 0 o.c.toNat).and
    { Checks.none with
      reservedOk :=
        (p.sa != .zero || sa == 0) && (p.sb != .zero || sb == 0) && (p.dtag != .zero || t == 0) &&
        (p.rc != 0 || o.rnd == 0) && (p.rc == 1 || p.rc == 3 || o.clamp == 0) &&
        (p.mask != .no || (o.mask == 0 && o.minv == 0))
      fieldOk :=
        (match p.w with
          | .any => true
          | .one => o.w == 0
          | .upTo2 => o.w != 3) &&
        (p.sa != .scale || scaleSel t == some sa) && (p.sb != .chunk || decide (sb ≤ 3)) &&
        p.dtag.ok t g && rndOk o.rnd.toNat && (p.rc != 3 || t != 1 || o.rnd == 0) &&
        (p.mask != .yes || o.mask != 0 || o.minv == 0) })))

/-- The literal-capable field of the engine commands: bits 27 to 22 of the first operand word. -/
def OpE.x (o : OpE) : BitVec 6 := o.w1.extractLsb' 22 6

/-- The checks of an engine command (R144, R239, R274, R333): the reserved bits of the three operand
words, the register fields that take no literal, and what the command says of its fields. -/
def ckE (lim : Limits) (o : OpE) (r1 r2 r3 : Nat) (regs : List Nat) (fieldOk resOk : Bool) : Checks :=
  let xUsed := r1 &&& 0xFC00000 == 0
  { reservedOk := o.w1.toNat &&& r1 == 0 && o.w2.toNat &&& r2 == 0 && o.w3.toNat &&& r3 == 0 && resOk
    fieldOk := fieldOk
    literalOk := regs.all (fun r => decide (r < 62))
    registerOk := o.kd.toNat < lim.kregs && o.ka.toNat < lim.kregs && o.kb.toNat < lim.kregs &&
      o.kc.toNat < lim.kregs
    litCanon := if xUsed then litCanon o.x o.lit else o.lit == 0 }

/-- A micro-order's reserved bits are zero (R254, R287, R346). -/
def ckMicro (b : Bool) : Checks := { Checks.none with reservedOk := b }

/-- The decode checks of every instruction; a host or platform act has none. -/
def Instr.checks (lim : Limits) : Instr → Checks
  | .packageReset => Checks.none
  | .trustCoreWatchdog => Checks.none
  | .firmwareVerified => Checks.none
  | .hbmTrainingDone _ => Checks.none
  | .hostLinkConfigReady => Checks.none
  | .functionLevelReset _ => Checks.none
  | .powerTrip => Checks.none
  | .ideFailure _ => Checks.none
  | .status _ => Checks.none
  | .reset _ => Checks.none
  | .fwLoad _ => Checks.none
  | .debugNonce _ => Checks.none
  | .debugUnlock _ => Checks.none
  | .lifecycleAdvance _ => Checks.none
  | .lifecycleTransition => Checks.none
  | .ctxCreate _ _ => Checks.none
  | .ctxEnd _ _ => Checks.none
  | .handleMint _ _ => Checks.none
  | .handleRevoke _ _ => Checks.none
  | .handleRead _ _ => Checks.none
  | .getVersion _ => Checks.none
  | .getCapabilities _ => Checks.none
  | .negotiateAlgorithms _ => Checks.none
  | .getDigests _ => Checks.none
  | .getCertificate _ => Checks.none
  | .challenge _ => Checks.none
  | .getMeasurements _ => Checks.none
  | .keyExchange _ => Checks.none
  | .finish _ => Checks.none
  | .endSession _ => Checks.none
  | .keyUpdate _ => Checks.none
  | .ideKm _ => Checks.none
  | .lockInterfaceRequest _ => Checks.none
  | .startInterfaceRequest _ _ => Checks.none
  | .stopInterfaceRequest _ => Checks.none
  | .stopInterfaceComplete _ => Checks.none
  | .launchSubmit _ _ => Checks.none
  | .launchTake _ => Checks.none
  | .clusterGroupBind _ => Checks.none
  | .strandGenerate _ => Checks.none
  | .strandDispatch _ => Checks.none
  | .gangReserve _ => Checks.none
  | .gangStart _ => Checks.none
  | .sliceEnd _ => Checks.none
  | .budgetExhausted _ => Checks.none
  | .budgetPeriodStart _ => Checks.none
  | .watchWake _ => Checks.none
  | .stealRequestArrive _ => Checks.none
  | .stealGrantArrive _ => Checks.none
  | .exchangeStepIssue _ _ => Checks.none
  | .sstepRelease _ => Checks.none
  | .launchComplete _ => Checks.none
  | .completionRecordWrite _ => Checks.none
  | .ptCommit => Checks.none
  | .calendarGo => Checks.none
  | .calendarPost => Checks.none
  | .calendarInstall => Checks.none
  | .patChange _ => Checks.none
  | .xlinv _ => Checks.none
  | .xlinvComplete => Checks.none
  | .walkApertureWrite _ _ => Checks.none
  | .pageRequestClose _ => Checks.none
  | .pageRequestRefuse _ => Checks.none
  | .functionEvict _ => Checks.none
  | .evictionDone _ => Checks.none
  | .functionResume _ => Checks.none
  | .saveAreaCheck _ => Checks.none
  | .swcap _ => Checks.none
  | .swret _ => Checks.none
  | .granuleMoveComplete => Checks.none
  | .stagingBlockMove => Checks.none
  | .retirementEnd => Checks.none
  | .keyRotationStart _ => Checks.none
  | .keyRotationEnd _ => Checks.none
  | .revocationEnd => Checks.none
  | .scrubExtentDone => Checks.none
  | .calendarSlot _ _ => Checks.none
  | .refreshForced _ _ => Checks.none
  | .bankPatrol _ _ => Checks.none
  | .linkPeerSignal _ => Checks.none
  | .linkTrainingDone _ _ _ => Checks.none
  | .linkSignalLoss _ => Checks.none
  | .attestTimeout _ => Checks.none
  | .allow _ => Checks.none
  | .deny _ => Checks.none
  | .close _ => Checks.none
  | .flitGroupReceive _ _ => Checks.none
  | .flitReceive _ _ => Checks.none
  | .requestRetry _ => Checks.none
  | .remoteWriteAck _ _ _ => Checks.none
  | .deadContextNotice _ _ => Checks.none
  | .endpointUnreachable _ => Checks.none
  | .preemptPointReached _ => Checks.none
  | .preemptSaveComplete _ => Checks.none
  | .preemptDeadline _ => Checks.none
  | .watchdog _ => Checks.none
  | .softError _ => Checks.none
  | .barrierArrive _ => Checks.none
  | .remoteCounterAdd _ => Checks.none
  | .vectorExecute _ => Checks.none
  | .matrixExecute _ => Checks.none
  | .plaitExecute _ => Checks.none
  | .copyStart _ => Checks.none
  | .copyComplete _ _ => Checks.none
  | .dbgStop _ => Checks.none
  | .dbgResume _ => Checks.none
  | .dbgStep _ => Checks.none
  | .dbgLog _ _ => Checks.none
  | .dbgReplay _ _ => Checks.none
  | .dbgLogoff _ _ => Checks.none
  | .debugDataWrite _ => Checks.none
  | .debugDataRead => Checks.none
  | .traceEnable _ => Checks.none
  | .pmevtWrite _ _ _ => Checks.none
  | .rankTableWrite _ _ => Checks.none
  | .admissionTableWrite _ _ => Checks.none
  | .registerWrite _ _ _ => Checks.none
  | .add o => ckA lim o .s .s .lit true
  | .sub o => ckA lim o .s .s .lit true
  | .mul o => ckA lim o .s .s .lit true
  | .mulhs o => ckA lim o .s .s .lit true
  | .mulhu o => ckA lim o .s .s .lit true
  | .divs o => ckA lim o .s .s .lit true
  | .divu o => ckA lim o .s .s .lit true
  | .rems o => ckA lim o .s .s .lit true
  | .remu o => ckA lim o .s .s .lit true
  | .and o => ckA lim o .s .s .lit true
  | .or o => ckA lim o .s .s .lit true
  | .xor o => ckA lim o .s .s .lit true
  | .andn o => ckA lim o .s .s .lit true
  | .shl o => ckA lim o .s .s .lit true
  | .shrl o => ckA lim o .s .s .lit true
  | .shra o => ckA lim o .s .s .lit true
  | .rotl o => ckA lim o .s .s .lit true
  | .min o => ckA lim o .s .s .lit true
  | .max o => ckA lim o .s .s .lit true
  | .minu o => ckA lim o .s .s .lit true
  | .maxu o => ckA lim o .s .s .lit true
  | .cmpeq o => ckA lim o .s .s .lit true
  | .cmplt o => ckA lim o .s .s .lit true
  | .cmpltu o => ckA lim o .s .s .lit true
  | .clz o => ckA lim o .s .s .zero true
  | .ctz o => ckA lim o .s .s .zero true
  | .popc o => ckA lim o .s .s .zero true
  | .bext o => ckA lim o .s .s .lit true
  | .bins o => ckA lim o .s .s .lit true
  | .sel _ o => ckA lim o .s .s .lit true
  | .addi o => ckI o.d o.a true true
  | .andi o => ckI o.d o.a true true
  | .ori o => ckI o.d o.a true true
  | .xori o => ckI o.d o.a true true
  | .cmpeqi o => ckI o.d o.a true true
  | .cmplti o => ckI o.d o.a true true
  | .shli o => ckI o.d o.a (bits o.n.toNat 11 6 == 0) true
  | .shrli o => ckI o.d o.a (bits o.n.toNat 11 6 == 0) true
  | .shrai o => ckI o.d o.a (bits o.n.toNat 11 6 == 0) true
  | .fadd m o => ckA lim o .s .s .litF (rndOk m.toNat)
  | .fsub m o => ckA lim o .s .s .litF (rndOk m.toNat)
  | .fmul m o => ckA lim o .s .s .litF (rndOk m.toNat)
  | .ffma m o => ckA lim o .s .s .litF (rndOk m.toNat)
  | .fdiv m o => ckA lim o .s .s .litF (rndOk m.toNat)
  | .fsqrt m o => ckA lim o .s .s .zero (rndOk m.toNat)
  | .fmin m o => ckA lim o .s .s .litF (m == 0)
  | .fmax m o => ckA lim o .s .s .litF (m == 0)
  | .fcmp m o => ckA lim o .s .s .litF (decide (m.toNat ≤ 3))
  | .fcvt m o => ckA lim o .s .s (.code 4) (rndOk m.toNat)
  | .faddFp64 m o => ckA lim o .s .s .lit (rndOk m.toNat)
  | .fsubFp64 m o => ckA lim o .s .s .lit (rndOk m.toNat)
  | .fmulFp64 m o => ckA lim o .s .s .lit (rndOk m.toNat)
  | .ffmaFp64 m o => ckA lim o .s .s .lit (rndOk m.toNat)
  | .fdivFp64 m o => ckA lim o .s .s .lit (rndOk m.toNat)
  | .fsqrtFp64 m o => ckA lim o .s .s .zero (rndOk m.toNat)
  | .fminFp64 m o => ckA lim o .s .s .lit (m == 0)
  | .fmaxFp64 m o => ckA lim o .s .s .lit (m == 0)
  | .fcmpFp64 m o => ckA lim o .s .s .lit (decide (m.toNat ≤ 3))
  | .fcvtFp64 m o => ckA lim o .s .s (.code 4) (rndOk m.toNat)
  | .qset o => ckA lim o .q .s .zero true
  | .qand o => ckA lim o .q .q .q true
  | .qor o => ckA lim o .q .q .q true
  | .qnot o => ckA lim o .q .q .zero true
  | .br o => ckB o .zero
  | .brEqz o => ckB o .s
  | .brNez o => ckB o .s
  | .brLtz o => ckB o .s
  | .brGez o => ckB o .s
  | .brGtz o => ckB o .s
  | .brLez o => ckB o .s
  | .brQ o => ckB o .q3
  | .brNq o => ckB o .q3
  | .loopInit _ o => ckB o .s
  | .loop _ o => ckB o .zero
  | .loopspInit _ o => ckB o .s
  | .loopsp _ o => ckB o .stage
  | .jmp o => ckA lim o .zero .zero .lit true
  | .call o => ckA lim o .s .zero .lit true
  | .ret o => ckA lim o .zero .s .zero true
  | .nop o => ckA lim o .zero .zero .zero true
  | .exit o => ckA lim o .zero .zero .zero true
  | .brk o => ckA lim o .zero .zero .zero true
  | .syscall o => ckA lim o .zero .zero .lit true
  | .trapf o => ckA lim o .zero .zero .zero true
  | .rgn o => ckA lim o .zero .zero .zero true
  | .suspend sc o => ckA lim o .zero .zero .zero (sc != 3)
  | .suspendYield sc o => ckA lim o .zero .zero .zero (sc != 3)
  | .watch sc o => ckA lim o .h .s .lit (sc != 3)
  | .spawn o => ckA lim o .s .spawn .lit true
  | .launch o => ckA lim o .s .h .lit true
  | .splitchk o => ckA lim o .zero .zero .zero true
  | .sstep o => ckA lim o .zero .zero .zero true
  | .csrrd o => ckI o.d o.a (o.a == 0) (csrAssigned o.n.toNat)
  | .csrwr o => ckI o.d o.a (true) (csrAssigned o.n.toNat)
  | .csrset o => ckI o.d o.a (true) (csrAssigned o.n.toNat)
  | .csrclr o => ckI o.d o.a (true) (csrAssigned o.n.toNat)
  | .ld o => ckM o (o.order.toNat ≤ 1)
  | .st o => ckM o (o.order == 0 || o.order == 2)
  | .hload o => ckA lim o .h2 .zero .lit true
  | .hquery o => ckA lim o .s .h (.code 1) true
  | .hdrop o => ckA lim o .zero .h2 .zero true
  | .atomAdd o v w => ckAtom o v w false false (true)
  | .atomAnd o v w => ckAtom o v w false false (true)
  | .atomOr o v w => ckAtom o v w false false (true)
  | .atomXor o v w => ckAtom o v w false false (true)
  | .atomMin o v w => ckAtom o v w false false (true)
  | .atomMax o v w => ckAtom o v w false false (true)
  | .atomMinu o v w => ckAtom o v w false false (true)
  | .atomMaxu o v w => ckAtom o v w false false (true)
  | .atomSwap o v w => ckAtom o v w false false (true)
  | .atomCas o v w => ckAtom o v w false true (true)
  | .atomFadd o v w => ckAtom o v w false false (decide (2 ≤ o.size.toNat))
  | .atom2Swap o v w => ckAtom o v w true false (o.size == 3)
  | .atom2Cas o v w => ckAtom o v w true true (o.size == 3)
  | .acq sc o => ckA lim o .zero .h .zero (decide (sc.toNat ≤ 4))
  | .rel sc o => ckA lim o .zero .h .zero (decide (sc.toNat ≤ 4))
  | .relK sc o => ckA lim o .tok .h .tok (decide (sc.toNat ≤ 4))
  | .fence sc o => ckA lim o .zero .zero .zero (decide (sc.toNat ≤ 4))
  | .kwait o => ckA lim o .tok .tok .tok true
  | .kwaitAll o => ckA lim o .zero .zero .zero true
  | .ktest o => ckA lim o .s .tok .zero true
  | .kstat o => ckA lim o .s .tok .zero true
  | .kstatClr o => ckA lim o .s .tok .zero true
  | .binit o => ckA lim o .s .s .lit true
  | .barrive o => ckA lim o .cmask .s .lit true
  | .bwait o => ckA lim o .zero .s .lit true
  | .btest o => ckA lim o .s .s .lit true
  | .commit o => ckA lim o .s .zero .zero true
  | .waitg o => ckA lim o .zero .zero .lit true
  | .waitgAll o => ckA lim o .zero .zero .zero true
  | .tblstart _ o => ckA lim o .tokd .s .lit true
  | .tblstop _ o => ckA lim o .zero .zero .zero true
  | .tblbase _ o => ckA lim o .zero .s .lit true
  | .eret o => ckA lim o .zero .zero .zero true
  | .halt o => ckA lim o .zero .zero .zero true
  | .icinv o => ckA lim o .zero .h .lit true
  | .codepatch o => ckA lim o .s .h .lit true
  | .dbgstop o => ckA lim o .zero .zero .zero true
  | .vld o => ckV lim o ⟨.vec, .h, .s, .tok, .any, .zero, .any, .any, 0, .yes⟩
  | .vst o => ckV lim o ⟨.vec, .h, .s, .tok, .any, .zero, .any, .zero, 0, .yes⟩
  | .vlds o => ckV lim o ⟨.vec, .h, .run 60, .tok, .any, .zero, .any, .wide, 0, .yes⟩
  | .vsts o => ckV lim o ⟨.vec, .h, .run 60, .tok, .any, .zero, .any, .zero, 0, .yes⟩
  | .vgath o => ckV lim o ⟨.vec, .h, .index, .tokNZ, .any, .zero, .any, .gath, 0, .yes⟩
  | .vscat o => ckV lim o ⟨.vec, .h, .index, .tokNZ, .any, .zero, .any, .gath, 0, .yes⟩
  | .vmov o => ckV lim o ⟨.vec, .vec, .zero, .tok, .any, .zero, .zero, .any, 0, .yes⟩
  | .vbcast o => ckV lim o ⟨.vec, .s, .zero, .tok, .any, .zero, .zero, .nz, 1, .yes⟩
  | .vextr o => ckV lim o ⟨.s, .vec, .s, .tok, .any, .zero, .zero, .zero, 0, .no⟩
  | .vins o => ckV lim o ⟨.vec, .s, .s, .tok, .one, .zero, .zero, .zero, 1, .no⟩
  | .vadd o => ckV lim o ⟨.vec, .src, .src, .tok, .any, .src, .src, .fia, 1, .yes⟩
  | .vsub o => ckV lim o ⟨.vec, .src, .src, .tok, .any, .src, .src, .fia, 1, .yes⟩
  | .vmul o => ckV lim o ⟨.vec, .src, .src, .tok, .any, .src, .src, .fi, 1, .yes⟩
  | .vfma o => ckV lim o ⟨.vec, .src, .src, .vec, .any, .src, .src, .fi, 1, .yes⟩
  | .vfms o => ckV lim o ⟨.vec, .src, .src, .vec, .any, .src, .src, .fi, 1, .yes⟩
  | .vmin o => ckV lim o ⟨.vec, .src, .src, .tok, .any, .src, .src, .fi, 1, .yes⟩
  | .vmax o => ckV lim o ⟨.vec, .src, .src, .tok, .any, .src, .src, .fi, 1, .yes⟩
  | .vabs o => ckV lim o ⟨.vec, .src, .zero, .tok, .any, .src, .zero, .fi, 1, .yes⟩
  | .vneg o => ckV lim o ⟨.vec, .src, .zero, .tok, .any, .src, .zero, .fia, 1, .yes⟩
  | .vand o => ckV lim o ⟨.vec, .vec, .vec, .tok, .any, .zero, .zero, .zero, 0, .yes⟩
  | .vor o => ckV lim o ⟨.vec, .vec, .vec, .tok, .any, .zero, .zero, .zero, 0, .yes⟩
  | .vxor o => ckV lim o ⟨.vec, .vec, .vec, .tok, .any, .zero, .zero, .zero, 0, .yes⟩
  | .vnot o => ckV lim o ⟨.vec, .vec, .zero, .tok, .any, .zero, .zero, .zero, 0, .yes⟩
  | .vshl o => ckV lim o ⟨.vec, .vec, .vec, .tok, .any, .zero, .zero, .int, 0, .yes⟩
  | .vshr o => ckV lim o ⟨.vec, .vec, .vec, .tok, .any, .zero, .zero, .int, 0, .yes⟩
  | .vshrA o => ckV lim o ⟨.vec, .vec, .vec, .tok, .any, .zero, .zero, .int, 0, .yes⟩
  | .vcmpEq o => ckV lim o ⟨.mask, .src, .src, .tok, .any, .src, .src, .cmp, 0, .yes⟩
  | .vcmpNe o => ckV lim o ⟨.mask, .src, .src, .tok, .any, .src, .src, .cmp, 0, .yes⟩
  | .vcmpLt o => ckV lim o ⟨.mask, .src, .src, .tok, .any, .src, .src, .cmp, 0, .yes⟩
  | .vcmpLe o => ckV lim o ⟨.mask, .src, .src, .tok, .any, .src, .src, .cmp, 0, .yes⟩
  | .vcmpGt o => ckV lim o ⟨.mask, .src, .src, .tok, .any, .src, .src, .cmp, 0, .yes⟩
  | .vcmpGe o => ckV lim o ⟨.mask, .src, .src, .tok, .any, .src, .src, .cmp, 0, .yes⟩
  | .vsel o => ckV lim o ⟨.vec, .vec, .vec, .tok, .any, .zero, .zero, .zero, 0, .sel⟩
  | .vcvt o => ckV lim o ⟨.vec, .src, .zero, .tok, .any, .src, .zero, .fia, 1, .yes⟩
  | .vcvtBs o => ckV lim o ⟨.vec, .src, .zero, .vec1, .any, .src, .zero, .fia, 1, .yes⟩
  | .vscale o => ckV lim o ⟨.vec, .src, .zero, .vec1, .one, .scale, .zero, .scale, 2, .no⟩
  | .vreds o => ckV lim o ⟨.vec1, .vec, .zero, .tok, .any, .zero, .zero, .red, 3, .yes⟩
  | .vredmMax o => ckV lim o ⟨.vec1, .vec, .zero, .tok, .any, .zero, .zero, .red, 1, .yes⟩
  | .vredmMin o => ckV lim o ⟨.vec1, .vec, .zero, .tok, .any, .zero, .zero, .red, 1, .yes⟩
  | .vscan o => ckV lim o ⟨.vec, .src, .zero, .tok, .any, .src, .zero, .fi, 1, .yes⟩
  | .vperm o => ckV lim o ⟨.vec, .vec, .vec, .tok, .one, .zero, .chunk, .zero, 0, .yes⟩
  | .vslideUp o => ckV lim o ⟨.vec, .vec, .s, .vec, .any, .zero, .zero, .zero, 0, .yes⟩
  | .vslideDn o => ckV lim o ⟨.vec, .vec, .s, .vec, .any, .zero, .zero, .zero, 0, .yes⟩
  | .vzip o => ckV lim o ⟨.vec2, .vec, .vec, .tok, .upTo2, .zero, .zero, .zero, 0, .no⟩
  | .vunzip o => ckV lim o ⟨.vec, .vec2, .zero, .vecd, .upTo2, .zero, .zero, .zero, 0, .no⟩
  | .viota o => ckV lim o ⟨.vec, .s, .zero, .tok, .any, .zero, .zero, .fia, 1, .yes⟩
  | .vexp2 o => ckV lim o ⟨.vec, .src, .zero, .tok, .any, .src, .zero, .fl, 1, .yes⟩
  | .vlog2 o => ckV lim o ⟨.vec, .src, .zero, .tok, .any, .src, .zero, .fl, 1, .yes⟩
  | .vrcp o => ckV lim o ⟨.vec, .src, .zero, .tok, .any, .src, .zero, .fl, 1, .yes⟩
  | .vrsq o => ckV lim o ⟨.vec, .src, .zero, .tok, .any, .src, .zero, .fl, 1, .yes⟩
  | .vsin o => ckV lim o ⟨.vec, .src, .zero, .tok, .any, .src, .zero, .fl, 1, .yes⟩
  | .vcos o => ckV lim o ⟨.vec, .src, .zero, .tok, .any, .src, .zero, .fl, 1, .yes⟩
  | .vtanh o => ckV lim o ⟨.vec, .src, .zero, .tok, .any, .src, .zero, .fl, 1, .yes⟩
  | .vsig o => ckV lim o ⟨.vec, .src, .zero, .tok, .any, .src, .zero, .fl, 1, .yes⟩
  | .mand o => ckV lim o ⟨.mask, .mask, .mask, .tok, .one, .zero, .zero, .zero, 0, .no⟩
  | .mor o => ckV lim o ⟨.mask, .mask, .mask, .tok, .one, .zero, .zero, .zero, 0, .no⟩
  | .mnot o => ckV lim o ⟨.mask, .mask, .zero, .tok, .one, .zero, .zero, .zero, 0, .no⟩
  | .mpop o => ckV lim o ⟨.s, .mask, .zero, .tok, .one, .zero, .zero, .zero, 0, .no⟩
  | .vchain o => ckV lim o ⟨.h, .h, .run 57, .tokNZ, .one, .zero, .zero, .zero, 0, .no⟩
  | .mcfg o => (ckE lim o 0x7FFFF 0xFFFFFFFF 0xFFFFFFFF [] (rndOk (bits o.w1.toNat 23 21)) (true)).and
      { Checks.none with litCanon := o.lit == 0 }
  | .mldw o => ckE lim o 0x1FF 0xFFFFFFFF 0xFFFFFFFF [bits o.w1.toNat 21 16, bits o.w1.toNat 15 10] (true) (true)
  | .mswap o => ckE lim o 0xFFFFFFFF 0xFFFFFFFF 0xFFFFFFFF [] (true) (true)
  | .mzero o => ckE lim o 0x3FFFFFFF 0xFFFFFFFF 0xFFFFFFFF [] (true) (true)
  | .mmul o => ckE lim o 0x3FF 0x3FFFF 0xFFFFFFFF [bits o.w1.toNat 21 16, bits o.w1.toNat 15 10] (decide (bits o.w2.toNat 29 24 + bits o.w2.toNat 23 18 + 1 ≤ 64)) (true)
  | .mmulc o => ckE lim o 0x3FF 0x3FFFF 0xFFFFFFFF [bits o.w1.toNat 21 16, bits o.w1.toNat 15 10] (decide (bits o.w2.toNat 29 24 + bits o.w2.toNat 23 18 + 1 ≤ 64)) (true)
  | .mlda o => ckE lim o 0x3FF 0xFFFFFFFF 0xFFFFFFFF [bits o.w1.toNat 21 16] (decide (1 ≤ bits o.w1.toNat 15 12 ∧ bits o.w1.toNat 15 12 ≤ 3)) (true)
  | .mret o => ckE lim o 0xF 0xFFFFFFFF 0xFFFFFFFF [bits o.w1.toNat 21 16] (decide (1 ≤ bits o.w1.toNat 15 12 ∧ bits o.w1.toNat 15 12 ≤ 12) && rndOk (bits o.w1.toNat 9 7)) (!bit o.w1.toNat 5)
  | .mretFree o => ckE lim o 0xFFFFF3DF 0xFFFFFFFF 0xFFFFFFFF [] (true) (bit o.w1.toNat 5)
  | .tableEnd _ m => ckMicro (m == 0)
  | .tableSeta _ m => ckMicro (bits m.toNat 24 21 == 0)
  | .tableAdda _ m => ckMicro (bits m.toNat 24 21 == 0)
  | .wrow m => ckMicro (bits m.toNat 15 0 == 0)
  | .arow m => ckMicro (bits m.toNat 15 0 == 0)
  | .tableSwap m => ckMicro (m == 0)
  | .ztile m => ckMicro (bits m.toNat 26 25 == 0 && bits m.toNat 22 0 == 0)
  | .tableSetl _ m => ckMicro (bits m.toNat 24 16 == 0)
  | .tableBack _ m => ckMicro (bits m.toNat 24 12 == 0 && bits m.toNat 11 0 != 0)
  | .prow m => ckMicro (bits m.toNat 11 0 == 0)
  | .papp m => ckMicro (bits m.toNat 22 18 == 0 && bits m.toNat 13 13 == 0 && bits m.toNat 11 0 == 0)
  | .seth m => ckMicro (bits m.toNat 24 21 == 0)
  | .move m => ckMicro (bits m.toNat 5 0 == 0)
  | .dect m => ckMicro (bits m.toNat 14 7 == 0 && bits m.toNat 5 0 == 0)
  | .plclr o => ckE lim o 0xFFF5F000 0xFFFFFFFF 0xFFFFFFFF [] (!bit o.w1.toNat 19 && decide (bits o.w1.toNat 11 6 ≤ 40 ∧ 1 ≤ bits o.w1.toNat 5 0 ∧ bits o.w1.toNat 11 6 + bits o.w1.toNat 5 0 ≤ 41)) (true)
  | .plload o => ckE lim o 0xFFFF 0xFF40000 0xFFFFFFFF [bits o.w1.toNat 21 16] (!bit o.w2.toNat 19 && fmtOk (bits o.w2.toNat 31 28) && decide (bits o.w2.toNat 11 6 ≤ 40 ∧ 1 ≤ bits o.w2.toNat 5 0 ∧ bits o.w2.toNat 11 6 + bits o.w2.toNat 5 0 ≤ 41)) (true)
  | .plqr o => ckE lim o 0xF 0xFF20FC0 0xFFFFFFFF [bits o.w1.toNat 21 16, bits o.w1.toNat 15 10, bits o.w1.toNat 9 4] (!bit o.w2.toNat 19 && fmtOk (bits o.w2.toNat 31 28) && decide (bits o.w2.toNat 5 0 ≤ 9)) (bit o.w2.toNat 18 || bits o.w1.toNat 15 10 == 0)
  | .plsolve o => ckE lim o 0xFFFF 0xF0060000 0xFFFFFFFF [bits o.w1.toNat 21 16] (!bit o.w2.toNat 19 && fmtOk (bits o.w2.toNat 27 24) && rndOk (bits o.w2.toNat 23 21) && decide (32 ≤ bits o.w2.toNat 11 6 ∧ bits o.w2.toNat 11 6 ≤ 40 ∧ 1 ≤ bits o.w2.toNat 5 0 ∧ bits o.w2.toNat 5 0 ≤ 9 ∧ bits o.w2.toNat 11 6 + bits o.w2.toNat 5 0 ≤ 41)) (true)
  | .pldrain o => ckE lim o 0xFFFF 0xF0000000 0xFFFFFFFF [bits o.w1.toNat 21 16] (!bit o.w2.toNat 19 && fmtOk (bits o.w2.toNat 27 24) && rndOk (bits o.w2.toNat 23 21) && decide (bits o.w2.toNat 11 6 ≤ 40 ∧ 1 ≤ bits o.w2.toNat 5 0 ∧ bits o.w2.toNat 11 6 + bits o.w2.toNat 5 0 ≤ 41)) (!bit o.w2.toNat 18)
  | .pldrainLm o => ckE lim o 0x3F000F 0xF0020FFF 0xFFFFFFFF [bits o.w1.toNat 15 10, bits o.w1.toNat 9 4] (!bit o.w2.toNat 19 && fmtOk (bits o.w2.toNat 27 24) && rndOk (bits o.w2.toNat 23 21) && decide (bits o.w2.toNat 16 12 ≤ 2)) (bit o.w2.toNat 18)
  | .plapply o => ckE lim o 0xF 0xFF3FFC0 0xFFFFFFFF [bits o.w1.toNat 21 16, bits o.w1.toNat 15 10, bits o.w1.toNat 9 4] (!bit o.w2.toNat 19 && fmtOk (bits o.w2.toNat 31 28) && decide (1 ≤ bits o.w2.toNat 5 0 ∧ bits o.w2.toNat 5 0 ≤ 9)) (!bit o.w2.toNat 18)
  | .plapplySw o => ckE lim o 0xF 0x3FFFF 0xFFFFFFFF [bits o.w1.toNat 21 16, bits o.w1.toNat 15 10, bits o.w1.toNat 9 4] (fmtOk (bits o.w2.toNat 31 28) && fmtOk (bits o.w2.toNat 27 24) && rndOk (bits o.w2.toNat 23 21) && (!bit o.w2.toNat 19 || bits o.w2.toNat 27 24 == 1)) (bit o.w2.toNat 18)
  | .plrot o => ckE lim o 0xF 0x7F03F 0xFFFFFFFF [bits o.w1.toNat 21 16, bits o.w1.toNat 15 10, bits o.w1.toNat 9 4] (fmtOk (bits o.w2.toNat 31 28) && fmtOk (bits o.w2.toNat 27 24) && rndOk (bits o.w2.toNat 23 21) && (!bit o.w2.toNat 19 || bits o.w2.toNat 27 24 == 1) && decide (bits o.w2.toNat 11 6 = 0xD ∨ bits o.w2.toNat 11 6 = 0xE)) (true)
  | .plvec o => ckE lim o 0xF 0x3FFFF 0xFFFFFFFF [bits o.w1.toNat 21 16, bits o.w1.toNat 15 10, bits o.w1.toNat 9 4] (fmtOk (bits o.w2.toNat 31 28) && fmtOk (bits o.w2.toNat 27 24) && rndOk (bits o.w2.toNat 23 21) && (!bit o.w2.toNat 19 || bits o.w2.toNat 27 24 == 1)) (true)
  | .plswap o => ckE lim o 0xFFFFFFFF 0xFFFFFFFF 0xFFFFFFFF [] (true) (true)
  | .cpy o => ckE lim o 0x3FF 0xFFFF 0x3FFFFFF [bits o.w1.toNat 21 16, bits o.w1.toNat 15 10, bits o.w2.toNat 27 22, bits o.w2.toNat 21 16, bits o.w3.toNat 31 26] (true) (true)
  | .cpym o => ckE lim o 0x3FF 0xFFFF 0x7FFF [bits o.w1.toNat 21 16, bits o.w1.toNat 15 10, bits o.w2.toNat 27 22, bits o.w2.toNat 21 16, bits o.w3.toNat 31 26, bits o.w3.toNat 25 20] (bits o.w2.toNat 31 28 == 0 && bits o.w3.toNat 19 16 != 0) (bit o.w3.toNat 15 || bits o.w3.toNat 25 20 == 0)
  | .cpg o => ckE lim o 0x3FF 0x3FF 0x3FFFFFF [bits o.w1.toNat 21 16, bits o.w1.toNat 15 10, bits o.w2.toNat 27 22, bits o.w2.toNat 21 16, bits o.w2.toNat 15 10, bits o.w3.toNat 31 26] (true) (true)
  | .cps o => ckE lim o 0x3FF 0x3FF 0x3FFFFFF [bits o.w1.toNat 21 16, bits o.w1.toNat 15 10, bits o.w2.toNat 27 22, bits o.w2.toNat 21 16, bits o.w2.toNat 15 10, bits o.w3.toNat 31 26] (true) (true)
  | .cpredAdd o => ckE lim o 0x3FFFFF 0x3FFFFF 0x3FF8FFF [bits o.w2.toNat 27 22, bits o.w3.toNat 31 26] (bits o.w3.toNat 14 12 == 0) (true)
  | .cpredMin o => ckE lim o 0x3FFFFF 0x3FFFFF 0x3FF8FFF [bits o.w2.toNat 27 22, bits o.w3.toNat 31 26] (bits o.w3.toNat 14 12 == 1) (true)
  | .cpredMax o => ckE lim o 0x3FFFFF 0x3FFFFF 0x3FF8FFF [bits o.w2.toNat 27 22, bits o.w3.toNat 31 26] (bits o.w3.toNat 14 12 == 2) (true)
  | .cpdec o => ckE lim o 0x3FFFFF 0x3FF 0xFFFFFFFF [bits o.w2.toNat 27 22, bits o.w2.toNat 21 16, bits o.w2.toNat 15 10] (true) (true)
  | .cpfill o => ckE lim o 0x3FF 0xFFFF 0xFFFFFFFF [bits o.w1.toNat 21 16, bits o.w1.toNat 15 10, bits o.w2.toNat 31 26, bits o.w2.toNat 25 20] (decide (bits o.w2.toNat 19 16 ≤ 3)) (true)
  | .cpremPut o => ckE lim o 0x3FF 0xFFFF 0xF0FFF [bits o.w1.toNat 21 16, bits o.w1.toNat 15 10, bits o.w2.toNat 27 22, bits o.w2.toNat 21 16, bits o.w3.toNat 31 26, bits o.w3.toNat 25 20] (bits o.w3.toNat 14 12 == 0) (bit o.w3.toNat 15 || bits o.w3.toNat 25 20 == 0)
  | .cpremGet o => ckE lim o 0x3FF 0xFFFF 0xF0FFF [bits o.w1.toNat 21 16, bits o.w1.toNat 15 10, bits o.w2.toNat 27 22, bits o.w2.toNat 21 16, bits o.w3.toNat 31 26, bits o.w3.toNat 25 20] (bits o.w3.toNat 14 12 == 1 && !bit o.w3.toNat 15) (bit o.w3.toNat 15 || bits o.w3.toNat 25 20 == 0)
  | .cpagentCas128 o => ckE lim o 0x3FFFFF 0x3F03FF 0xFFFF8FFF [bits o.w2.toNat 27 22, bits o.w2.toNat 15 10] (bits o.w3.toNat 14 12 == 0) (true)
  | .cpagentCas256 o => ckE lim o 0x3FFFFF 0x3F03FF 0xFFFF8FFF [bits o.w2.toNat 27 22, bits o.w2.toNat 15 10] (bits o.w3.toNat 14 12 == 1) (true)
  | .cpagentEnq o => ckE lim o 0x3FFFFF 0x3F03FF 0xFFFF8FFF [bits o.w2.toNat 27 22, bits o.w2.toNat 15 10] (bits o.w3.toNat 14 12 == 2) (true)
  | .cpagentChase o => ckE lim o 0x3FFFFF 0x3F03FF 0xFC0F8FFF [bits o.w2.toNat 27 22, bits o.w2.toNat 15 10, bits o.w3.toNat 25 20] (bits o.w3.toNat 14 12 == 3) (true)
  | .bmupdAdd o => ckE lim o 0x3FFFFF 0xF8FFF 0xFFFFFFFF [bits o.w2.toNat 31 26, bits o.w2.toNat 25 20] (bits o.w2.toNat 14 12 == 0) (true)
  | .bmupdMul o => ckE lim o 0x3FFFFF 0xF8FFF 0xFFFFFFFF [bits o.w2.toNat 31 26, bits o.w2.toNat 25 20] (bits o.w2.toNat 14 12 == 1) (true)
  | .bmupdMin o => ckE lim o 0x3FFFFF 0xF8FFF 0xFFFFFFFF [bits o.w2.toNat 31 26, bits o.w2.toNat 25 20] (bits o.w2.toNat 14 12 == 2) (true)
  | .bmupdMax o => ckE lim o 0x3FFFFF 0xF8FFF 0xFFFFFFFF [bits o.w2.toNat 31 26, bits o.w2.toNat 25 20] (bits o.w2.toNat 14 12 == 3) (true)
  | .bmupdFma o => ckE lim o 0x3F03FF 0xF8FFF 0xFFFFFFFF [bits o.w1.toNat 15 10, bits o.w2.toNat 31 26, bits o.w2.toNat 25 20] (bits o.w2.toNat 14 12 == 4) (true)
  | .bmupdSet o => ckE lim o 0x3FFFFF 0xF8FFF 0xFFFFFFFF [bits o.w2.toNat 31 26, bits o.w2.toNat 25 20] (bits o.w2.toNat 14 12 == 5) (true)
  | .hostMemoryAccess _ _ _ => Checks.none
  | .scaleOutFrameReceive _ _ => Checks.none
  | .retransmissionTimeout _ => Checks.none
  | .ptCommitDone => Checks.none
  | .patChangeDone => Checks.none
  | .saveAreaCheckDone _ => Checks.none
  | .debugReplayDone _ => Checks.none

/-- Steps 5 to 8 of the decode order pass under the launch's register counts (R146). -/
def Instr.wfAt (lim : Limits) (i : Instr) : Bool := (i.checks lim).all

/-- Well formed for some launch: under the largest register counts. -/
def Instr.wf (i : Instr) : Bool := i.wfAt Limits.max

end Sys2Proof
end

