-- ==== Sys2Proof/Decode.lean ====
section
/-! DEFINITION. The decoder of instruction words (R137 to R146) and the encoder of well-formed
instructions, both from the encoding tables of the spec. -/

namespace Sys2Proof

open Machine

/-- The reasons of an ILLEGAL_INSN (R146). -/
inductive Reason where
  | major
  | function
  | reserved
  | literal
  | field
  | register
deriving DecidableEq, Repr

/-- The reason code that TRAPINFO receives (R146). -/
def Reason.code : Reason → Nat
  | .major => 1
  | .function => 2
  | .reserved => 3
  | .literal => 4
  | .field => 5
  | .register => 6

/-- What reading the words at the program counter gives: an instruction and its length in words, an
illegal encoding, or a word that lies beyond those given (the fetch fault of R130). -/
inductive Read where
  | ok (i : Instr) (len : Nat)
  | illegal (r : Reason)
  | short
deriving DecidableEq, Repr

/-- The formats of R139 to R144, and the majors that hold no instruction (R145). -/
inductive Form where
  | illegal
  | a
  | i
  | b
  | m
  | m2
  | v
  | e
deriving DecidableEq, Repr

/-- The major opcode map (R145), without the majors that R195, R239, R271 and R331 leave unassigned. -/
def majorForm (maj : Nat) : Form :=
  if maj = 1 ∨ maj = 8 ∨ maj = 9 ∨ maj = 0xC ∨ maj = 0xD ∨ maj = 0xE ∨ maj = 0x12 ∨ maj = 0x13 ∨
      maj = 0x1A ∨ maj = 0x1E ∨ maj = 0x3C ∨ maj = 0x3D ∨ maj = 0x3E then .a
  else if (2 ≤ maj ∧ maj ≤ 7) ∨ maj = 0xF ∨ maj = 0x14 then .i
  else if maj = 0x10 ∨ maj = 0x11 then .b
  else if maj = 0x18 ∨ maj = 0x19 then .m
  else if maj = 0x1C ∨ maj = 0x1D then .m2
  else if 0x20 ≤ maj ∧ maj ≤ 0x29 then .v
  else if maj = 0x30 ∨ maj = 0x34 ∨ maj = 0x38 then .e
  else .illegal

/-- The major of a word. -/
def major (w : W32) : BitVec 6 := w.extractLsb' 26 6

/-- The literal a literal-capable field announces, and the number of words it takes (R137, R138). -/
def takeLit (code : BitVec 6) (ws : List W32) : Option (Word × Nat) :=
  if code = 62 then
    match ws with
    | l :: _ => some (BitVec.zeroExtend 64 l, 1)
    | _ => none
  else if code = 63 then
    match ws with
    | l :: h :: _ => some (h ++ l, 2)
    | _ => none
  else some (0, 0)

/-- The words of a literal. -/
def litWords (code : BitVec 6) (l : Word) : List W32 :=
  if code = 62 then [l.extractLsb' 0 32]
  else if code = 63 then [l.extractLsb' 0 32, l.extractLsb' 32 32]
  else []

/-- The fields of format A (R139) with a literal. -/
def fieldsA (w : W32) (l : Word) : OpA :=
  ⟨w.extractLsb' 20 6, w.extractLsb' 14 6, w.extractLsb' 8 6, l⟩

/-- The fields of format I (R140). -/
def fieldsI (w : W32) : OpI := ⟨w.extractLsb' 20 6, w.extractLsb' 14 6, w.extractLsb' 0 14⟩

/-- The fields of format I in majors 0x0F and 0x14 (R140). -/
def fieldsJ (w : W32) : OpJ := ⟨w.extractLsb' 20 6, w.extractLsb' 14 6, w.extractLsb' 0 12⟩

/-- The fields of format B (R141). -/
def fieldsB (w : W32) : OpB := ⟨w.extractLsb' 16 6, w.extractLsb' 0 16⟩

/-- The fields of format M (R142) with a literal. -/
def fieldsM (w : W32) (l : Word) : OpM :=
  ⟨w.extractLsb' 20 6, w.extractLsb' 16 4, w.extractLsb' 10 6, w.extractLsb' 8 2, w.extractLsb' 6 2,
    w.extractLsb' 3 3, w.extractLsb' 0 3, l⟩

/-- The fields of format V (R143). -/
def fieldsV (w x : W32) : OpV :=
  ⟨w.extractLsb' 20 6, w.extractLsb' 14 6, w.extractLsb' 8 6, w.extractLsb' 6 2, x.extractLsb' 28 4,
    x.extractLsb' 24 4, x.extractLsb' 20 4, x.extractLsb' 17 3, x.extractLsb' 16 1, x.extractLsb' 13 3,
    x.extractLsb' 12 1, x.extractLsb' 6 6⟩

/-- The header of format E (R144) with operand words and a literal. -/
def fieldsE (w w1 w2 w3 : W32) (l : Word) : OpE :=
  ⟨w.extractLsb' 15 5, w.extractLsb' 10 5, w.extractLsb' 5 5, w.extractLsb' 0 5, w1, w2, w3, l⟩

/-- The format A instructions with a fixed function code (R155 to R182, R251, R321, R369, R421,
R464). -/
def codeA (maj fn : Nat) (o : OpA) : Option Instr :=
  match maj, fn with
  | 0x1, 0x0 => some (.add o)
  | 0x1, 0x1 => some (.sub o)
  | 0x1, 0x2 => some (.mul o)
  | 0x1, 0x3 => some (.mulhs o)
  | 0x1, 0x4 => some (.mulhu o)
  | 0x1, 0x5 => some (.divs o)
  | 0x1, 0x6 => some (.divu o)
  | 0x1, 0x7 => some (.rems o)
  | 0x1, 0x8 => some (.remu o)
  | 0x1, 0x10 => some (.and o)
  | 0x1, 0x11 => some (.or o)
  | 0x1, 0x12 => some (.xor o)
  | 0x1, 0x13 => some (.andn o)
  | 0x1, 0x18 => some (.shl o)
  | 0x1, 0x19 => some (.shrl o)
  | 0x1, 0x1A => some (.shra o)
  | 0x1, 0x1B => some (.rotl o)
  | 0x1, 0x20 => some (.min o)
  | 0x1, 0x21 => some (.max o)
  | 0x1, 0x22 => some (.minu o)
  | 0x1, 0x23 => some (.maxu o)
  | 0xC, 0x0 => some (.qset o)
  | 0xC, 0x1 => some (.qand o)
  | 0xC, 0x2 => some (.qor o)
  | 0xC, 0x3 => some (.qnot o)
  | 0xD, 0x0 => some (.clz o)
  | 0xD, 0x1 => some (.ctz o)
  | 0xD, 0x2 => some (.popc o)
  | 0xD, 0x4 => some (.bext o)
  | 0xD, 0x5 => some (.bins o)
  | 0xD, 0x8 => some (.sel 0 o)
  | 0xD, 0x9 => some (.sel 1 o)
  | 0xD, 0xA => some (.sel 2 o)
  | 0xD, 0xB => some (.sel 3 o)
  | 0xD, 0xC => some (.sel 4 o)
  | 0xD, 0xD => some (.sel 5 o)
  | 0xD, 0xE => some (.sel 6 o)
  | 0xD, 0xF => some (.sel 7 o)
  | 0xE, 0x0 => some (.cmpeq o)
  | 0xE, 0x1 => some (.cmplt o)
  | 0xE, 0x2 => some (.cmpltu o)
  | 0x12, 0x0 => some (.nop o)
  | 0x12, 0x1 => some (.jmp o)
  | 0x12, 0x2 => some (.call o)
  | 0x12, 0x3 => some (.ret o)
  | 0x12, 0x4 => some (.exit o)
  | 0x12, 0x8 => some (.brk o)
  | 0x12, 0x9 => some (.syscall o)
  | 0x12, 0xA => some (.trapf o)
  | 0x12, 0x10 => some (.rgn o)
  | 0x13, 0x10 => some (.spawn o)
  | 0x13, 0x18 => some (.launch o)
  | 0x13, 0x20 => some (.splitchk o)
  | 0x13, 0x28 => some (.sstep o)
  | 0x13, 0x0 => some (.suspend 0 o)
  | 0x13, 0x1 => some (.suspend 1 o)
  | 0x13, 0x2 => some (.suspend 2 o)
  | 0x13, 0x4 => some (.suspendYield 0 o)
  | 0x13, 0x5 => some (.suspendYield 1 o)
  | 0x13, 0x6 => some (.suspendYield 2 o)
  | 0x13, 0x8 => some (.watch 0 o)
  | 0x13, 0x9 => some (.watch 1 o)
  | 0x13, 0xA => some (.watch 2 o)
  | 0x1A, 0x0 => some (.hload o)
  | 0x1A, 0x1 => some (.hquery o)
  | 0x1A, 0x2 => some (.hdrop o)
  | 0x1E, 0x0 => some (.acq 0 o)
  | 0x1E, 0x1 => some (.acq 1 o)
  | 0x1E, 0x2 => some (.acq 2 o)
  | 0x1E, 0x3 => some (.acq 3 o)
  | 0x1E, 0x4 => some (.acq 4 o)
  | 0x1E, 0x5 => some (.acq 5 o)
  | 0x1E, 0x6 => some (.acq 6 o)
  | 0x1E, 0x7 => some (.acq 7 o)
  | 0x1E, 0x10 => some (.rel 0 o)
  | 0x1E, 0x11 => some (.rel 1 o)
  | 0x1E, 0x12 => some (.rel 2 o)
  | 0x1E, 0x13 => some (.rel 3 o)
  | 0x1E, 0x14 => some (.rel 4 o)
  | 0x1E, 0x15 => some (.rel 5 o)
  | 0x1E, 0x16 => some (.rel 6 o)
  | 0x1E, 0x17 => some (.rel 7 o)
  | 0x1E, 0x20 => some (.relK 0 o)
  | 0x1E, 0x21 => some (.relK 1 o)
  | 0x1E, 0x22 => some (.relK 2 o)
  | 0x1E, 0x23 => some (.relK 3 o)
  | 0x1E, 0x24 => some (.relK 4 o)
  | 0x1E, 0x25 => some (.relK 5 o)
  | 0x1E, 0x26 => some (.relK 6 o)
  | 0x1E, 0x27 => some (.relK 7 o)
  | 0x1E, 0x30 => some (.fence 0 o)
  | 0x1E, 0x31 => some (.fence 1 o)
  | 0x1E, 0x32 => some (.fence 2 o)
  | 0x1E, 0x33 => some (.fence 3 o)
  | 0x1E, 0x34 => some (.fence 4 o)
  | 0x1E, 0x35 => some (.fence 5 o)
  | 0x1E, 0x36 => some (.fence 6 o)
  | 0x1E, 0x37 => some (.fence 7 o)
  | 0x3C, 0x0 => some (.kwait o)
  | 0x3C, 0x1 => some (.kwaitAll o)
  | 0x3C, 0x4 => some (.ktest o)
  | 0x3C, 0x8 => some (.kstat o)
  | 0x3C, 0x9 => some (.kstatClr o)
  | 0x3C, 0x10 => some (.binit o)
  | 0x3C, 0x11 => some (.barrive o)
  | 0x3C, 0x12 => some (.bwait o)
  | 0x3C, 0x13 => some (.btest o)
  | 0x3C, 0x18 => some (.commit o)
  | 0x3C, 0x19 => some (.waitg o)
  | 0x3C, 0x1A => some (.waitgAll o)
  | 0x3D, 0x0 => some (.tblstart 0 o)
  | 0x3D, 0x1 => some (.tblstart 1 o)
  | 0x3D, 0x2 => some (.tblstart 2 o)
  | 0x3D, 0x3 => some (.tblstart 3 o)
  | 0x3D, 0x10 => some (.tblstop 0 o)
  | 0x3D, 0x11 => some (.tblstop 1 o)
  | 0x3D, 0x12 => some (.tblstop 2 o)
  | 0x3D, 0x13 => some (.tblstop 3 o)
  | 0x3D, 0x20 => some (.tblbase 0 o)
  | 0x3D, 0x21 => some (.tblbase 1 o)
  | 0x3D, 0x22 => some (.tblbase 2 o)
  | 0x3D, 0x23 => some (.tblbase 3 o)
  | 0x3E, 0x0 => some (.eret o)
  | 0x3E, 0x1 => some (.halt o)
  | 0x3E, 0x8 => some (.icinv o)
  | 0x3E, 0x9 => some (.codepatch o)
  | 0x3E, 0xA => some (.dbgstop o)
  | _, _ => none

/-- The floating instructions: function code in bits 4 to 0, mode in bits 7 to 5 (R161). -/
def codeF (maj fn : Nat) (m : BitVec 3) (o : OpA) : Option Instr :=
  match maj, fn with
  | 0x8, 0x0 => some (.fadd m o)
  | 0x9, 0x0 => some (.faddFp64 m o)
  | 0x8, 0x1 => some (.fsub m o)
  | 0x9, 0x1 => some (.fsubFp64 m o)
  | 0x8, 0x2 => some (.fmul m o)
  | 0x9, 0x2 => some (.fmulFp64 m o)
  | 0x8, 0x3 => some (.ffma m o)
  | 0x9, 0x3 => some (.ffmaFp64 m o)
  | 0x8, 0x4 => some (.fdiv m o)
  | 0x9, 0x4 => some (.fdivFp64 m o)
  | 0x8, 0x5 => some (.fsqrt m o)
  | 0x9, 0x5 => some (.fsqrtFp64 m o)
  | 0x8, 0x6 => some (.fmin m o)
  | 0x9, 0x6 => some (.fminFp64 m o)
  | 0x8, 0x7 => some (.fmax m o)
  | 0x9, 0x7 => some (.fmaxFp64 m o)
  | 0x8, 0x8 => some (.fcmp m o)
  | 0x9, 0x8 => some (.fcmpFp64 m o)
  | 0x8, 0x9 => some (.fcvt m o)
  | 0x9, 0x9 => some (.fcvtFp64 m o)
  | _, _ => none

/-- A format A instruction from its major, its function byte and its operands. -/
def mkInstrA (maj : Nat) (fn : BitVec 8) (o : OpA) : Option Instr :=
  if maj = 8 ∨ maj = 9 then codeF maj (fn.extractLsb' 0 5).toNat (fn.extractLsb' 5 3) o
  else codeA maj fn.toNat o

/-- Whether field b of a format A instruction is literal-capable (R138). -/
def litA : Instr → Bool
  | .add _ => true
  | .sub _ => true
  | .mul _ => true
  | .mulhs _ => true
  | .mulhu _ => true
  | .divs _ => true
  | .divu _ => true
  | .rems _ => true
  | .remu _ => true
  | .and _ => true
  | .or _ => true
  | .xor _ => true
  | .andn _ => true
  | .shl _ => true
  | .shrl _ => true
  | .shra _ => true
  | .rotl _ => true
  | .min _ => true
  | .max _ => true
  | .minu _ => true
  | .maxu _ => true
  | .cmpeq _ => true
  | .cmplt _ => true
  | .cmpltu _ => true
  | .bext _ => true
  | .bins _ => true
  | .sel _ _ => true
  | .fadd _ _ => true
  | .faddFp64 _ _ => true
  | .fsub _ _ => true
  | .fsubFp64 _ _ => true
  | .fmul _ _ => true
  | .fmulFp64 _ _ => true
  | .ffma _ _ => true
  | .ffmaFp64 _ _ => true
  | .fdiv _ _ => true
  | .fdivFp64 _ _ => true
  | .fmin _ _ => true
  | .fminFp64 _ _ => true
  | .fmax _ _ => true
  | .fmaxFp64 _ _ => true
  | .fcmp _ _ => true
  | .fcmpFp64 _ _ => true
  | .jmp _ => true
  | .call _ => true
  | .syscall _ => true
  | .watch _ _ => true
  | .spawn _ => true
  | .launch _ => true
  | .hload _ => true
  | .binit _ => true
  | .barrive _ => true
  | .bwait _ => true
  | .btest _ => true
  | .waitg _ => true
  | .tblstart _ _ => true
  | .tblbase _ _ => true
  | .icinv _ => true
  | .codepatch _ => true
  | _ => false

/-- The format I instructions (R140, R156, R157, R169). -/
def mkInstrI (maj : Nat) (w : W32) : Option Instr :=
  match maj, (w.extractLsb' 12 2).toNat with
  | 2, _ => some (.addi (fieldsI w))
  | 3, _ => some (.andi (fieldsI w))
  | 4, _ => some (.ori (fieldsI w))
  | 5, _ => some (.xori (fieldsI w))
  | 6, _ => some (.cmpeqi (fieldsI w))
  | 7, _ => some (.cmplti (fieldsI w))
  | 0xF, 0 => some (.shli (fieldsJ w))
  | 0xF, 1 => some (.shrli (fieldsJ w))
  | 0xF, 2 => some (.shrai (fieldsJ w))
  | 0x14, 0 => some (.csrrd (fieldsJ w))
  | 0x14, 1 => some (.csrwr (fieldsJ w))
  | 0x14, 2 => some (.csrset (fieldsJ w))
  | 0x14, 3 => some (.csrclr (fieldsJ w))
  | _, _ => none

/-- The format B instructions (R141, R164, R167, R168). -/
def mkInstrB (maj : Nat) (w : W32) : Option Instr :=
  if maj = 0x10 then
    match (w.extractLsb' 22 4).toNat with
    | 0 => some (.br (fieldsB w))
    | 1 => some (.brEqz (fieldsB w))
    | 2 => some (.brNez (fieldsB w))
    | 3 => some (.brLtz (fieldsB w))
    | 4 => some (.brGez (fieldsB w))
    | 5 => some (.brGtz (fieldsB w))
    | 6 => some (.brLez (fieldsB w))
    | 8 => some (.brQ (fieldsB w))
    | 9 => some (.brNq (fieldsB w))
    | _ => none
  else
    match (w.extractLsb' 24 2).toNat with
    | 0 => some (.loopInit (w.extractLsb' 22 2) (fieldsB w))
    | 1 => some (.loop (w.extractLsb' 22 2) (fieldsB w))
    | 2 => some (.loopspInit (w.extractLsb' 22 2) (fieldsB w))
    | _ => some (.loopsp (w.extractLsb' 22 2) (fieldsB w))

/-- ATOM and ATOM2 by their operation code (R381, R382). -/
def mkInstrAtom (maj aop : Nat) (o : OpM) (v w : BitVec 6) : Option Instr :=
  match maj, aop with
  | 0x1C, 0x0 => some (.atomAdd o v w)
  | 0x1C, 0x1 => some (.atomAnd o v w)
  | 0x1C, 0x2 => some (.atomOr o v w)
  | 0x1C, 0x3 => some (.atomXor o v w)
  | 0x1C, 0x4 => some (.atomMin o v w)
  | 0x1C, 0x5 => some (.atomMax o v w)
  | 0x1C, 0x6 => some (.atomMinu o v w)
  | 0x1C, 0x7 => some (.atomMaxu o v w)
  | 0x1C, 0x8 => some (.atomSwap o v w)
  | 0x1C, 0x9 => some (.atomCas o v w)
  | 0x1C, 0xA => some (.atomFadd o v w)
  | 0x1D, 0x8 => some (.atom2Swap o v w)
  | 0x1D, 0x9 => some (.atom2Cas o v w)
  | _, _ => none

/-- The format V instructions (R195). -/
def mkInstrV (maj fn : Nat) (o : OpV) : Option Instr :=
  match maj, fn with
  | 0x20, 0x0 => some (.vld o)
  | 0x20, 0x1 => some (.vst o)
  | 0x20, 0x2 => some (.vlds o)
  | 0x20, 0x3 => some (.vsts o)
  | 0x20, 0x4 => some (.vgath o)
  | 0x20, 0x5 => some (.vscat o)
  | 0x21, 0x0 => some (.vmov o)
  | 0x21, 0x1 => some (.vbcast o)
  | 0x21, 0x2 => some (.vextr o)
  | 0x21, 0x3 => some (.vins o)
  | 0x22, 0x0 => some (.vadd o)
  | 0x22, 0x1 => some (.vsub o)
  | 0x22, 0x2 => some (.vmul o)
  | 0x22, 0x3 => some (.vfma o)
  | 0x22, 0x4 => some (.vfms o)
  | 0x22, 0x5 => some (.vmin o)
  | 0x22, 0x6 => some (.vmax o)
  | 0x22, 0x7 => some (.vabs o)
  | 0x22, 0x8 => some (.vneg o)
  | 0x23, 0x0 => some (.vand o)
  | 0x23, 0x1 => some (.vor o)
  | 0x23, 0x2 => some (.vxor o)
  | 0x23, 0x3 => some (.vnot o)
  | 0x23, 0x4 => some (.vshl o)
  | 0x23, 0x5 => some (.vshr o)
  | 0x23, 0x6 => some (.vshrA o)
  | 0x23, 0x8 => some (.vcmpEq o)
  | 0x23, 0x9 => some (.vcmpNe o)
  | 0x23, 0xA => some (.vcmpLt o)
  | 0x23, 0xB => some (.vcmpLe o)
  | 0x23, 0xC => some (.vcmpGt o)
  | 0x23, 0xD => some (.vcmpGe o)
  | 0x23, 0x10 => some (.vsel o)
  | 0x24, 0x0 => some (.vcvt o)
  | 0x24, 0x1 => some (.vcvtBs o)
  | 0x24, 0x2 => some (.vscale o)
  | 0x25, 0x0 => some (.vreds o)
  | 0x25, 0x1 => some (.vredmMax o)
  | 0x25, 0x2 => some (.vredmMin o)
  | 0x25, 0x3 => some (.vscan o)
  | 0x26, 0x0 => some (.vperm o)
  | 0x26, 0x1 => some (.vslideUp o)
  | 0x26, 0x2 => some (.vslideDn o)
  | 0x26, 0x3 => some (.vzip o)
  | 0x26, 0x4 => some (.vunzip o)
  | 0x26, 0x5 => some (.viota o)
  | 0x27, 0x0 => some (.vexp2 o)
  | 0x27, 0x1 => some (.vlog2 o)
  | 0x27, 0x2 => some (.vrcp o)
  | 0x27, 0x3 => some (.vrsq o)
  | 0x27, 0x4 => some (.vsin o)
  | 0x27, 0x5 => some (.vcos o)
  | 0x27, 0x6 => some (.vtanh o)
  | 0x27, 0x7 => some (.vsig o)
  | 0x28, 0x0 => some (.mand o)
  | 0x28, 0x1 => some (.mor o)
  | 0x28, 0x2 => some (.mnot o)
  | 0x28, 0x3 => some (.mpop o)
  | 0x29, 0x0 => some (.vchain o)
  | _, _ => none

/-- The number of operand words of an engine command, or none where op is unassigned (R239, R274,
R333). -/
def operandWords (maj op : Nat) : Option Nat :=
  if maj = 0x30 then if op ≤ 3 ∨ op = 6 ∨ op = 7 then some 1 else if op ≤ 5 then some 2 else none
  else if maj = 0x34 then if op = 0 ∨ op = 8 then some 1 else if op ≤ 7 then some 2 else none
  else if maj = 0x38 then
    if op ≤ 4 ∨ op = 7 ∨ op = 8 then some 3 else if op = 5 ∨ op = 6 ∨ op = 9 then some 2 else none
  else none

/-- Whether the command's field x is literal-capable: every command that reads x (R238, R272, R332). In a field that the
instruction does not use, codes 62 and 63 name no literal and are reserved (log 105). -/
def commandLit (maj op : Nat) (w1 : W32) : Bool :=
  if maj = 0x30 then op = 1 ∨ op = 4 ∨ op = 5 ∨ op = 6 ∨ (op = 7 ∧ w1.extractLsb' 5 1 = 0)
  else if maj = 0x34 then op ≠ 0 ∧ op ≠ 8
  else true

/-- The engine commands; a sub-operation field chooses among the rows of one op (R239, R274, R333). -/
def mkInstrE (maj op : Nat) (o : OpE) : Option Instr :=
  let sw := o.w2.extractLsb' 18 1 = 1
  let op3 := (o.w3.extractLsb' 12 3).toNat
  let op2 := (o.w2.extractLsb' 12 3).toNat
  match maj, op with
  | 0x30, 0 => some (.mcfg o)
  | 0x30, 1 => some (.mldw o)
  | 0x30, 2 => some (.mswap o)
  | 0x30, 3 => some (.mzero o)
  | 0x30, 4 => some (.mmul o)
  | 0x30, 5 => some (.mmulc o)
  | 0x30, 6 => some (.mlda o)
  | 0x30, 7 => some (if o.w1.extractLsb' 5 1 = 1 then .mretFree o else .mret o)
  | 0x34, 0 => some (.plclr o)
  | 0x34, 1 => some (.plload o)
  | 0x34, 2 => some (.plqr o)
  | 0x34, 3 => some (.plsolve o)
  | 0x34, 4 => some (if sw then .pldrainLm o else .pldrain o)
  | 0x34, 5 => some (if sw then .plapplySw o else .plapply o)
  | 0x34, 6 => some (.plrot o)
  | 0x34, 7 => some (.plvec o)
  | 0x34, 8 => some (.plswap o)
  | 0x38, 0 => some (.cpy o)
  | 0x38, 1 => some (.cpym o)
  | 0x38, 2 => some (.cpg o)
  | 0x38, 3 => some (.cps o)
  | 0x38, 4 => some (if op3 = 0 then .cpredAdd o else if op3 = 1 then .cpredMin o else .cpredMax o)
  | 0x38, 5 => some (.cpdec o)
  | 0x38, 6 => some (.cpfill o)
  | 0x38, 7 => some (if op3 = 0 then .cpremPut o else .cpremGet o)
  | 0x38, 8 => some (if op3 = 0 then .cpagentCas128 o else if op3 = 1 then .cpagentCas256 o
      else if op3 = 2 then .cpagentEnq o else .cpagentChase o)
  | 0x38, 9 => some (if op2 = 0 then .bmupdAdd o else if op2 = 1 then .bmupdMul o
      else if op2 = 2 then .bmupdMin o else if op2 = 3 then .bmupdMax o
      else if op2 = 4 then .bmupdFma o else .bmupdSet o)
  | _, _ => none

/-- Why a function code of format A that names no instruction fails: in major 0x1E bit 3 of the code is reserved, and
bits 7 to 4 alone are assigned or not (R379, R146). -/
def fnReason (maj : Nat) (fn : BitVec 8) : Reason :=
  if maj = 0x1E ∧ fn.toNat < 0x40 ∧ fn.getLsbD 3 = true then .reserved else .function

/-- A format A instruction read from its words. -/
def readA (w : W32) (ws : List W32) : Read :=
  match mkInstrA (major w).toNat (w.extractLsb' 0 8) (fieldsA w 0) with
  | none => .illegal (fnReason (major w).toNat (w.extractLsb' 0 8))
  | some i =>
    if litA i then
      match takeLit (w.extractLsb' 8 6) ws with
      | none => .short
      | some (l, n) =>
        match mkInstrA (major w).toNat (w.extractLsb' 0 8) (fieldsA w l) with
        | some j => .ok j (1 + n)
        | none => .illegal .function
    else .ok i 1

/-- LD or ST read from its words. -/
def readM (w : W32) (ws : List W32) : Read :=
  match takeLit (w.extractLsb' 10 6) ws with
  | none => .short
  | some (l, n) => .ok (if (major w).toNat = 0x18 then .ld (fieldsM w l) else .st (fieldsM w l)) (1 + n)

/-- ATOM or ATOM2 read from its words: the reserved bits of the operation word are checked here,
since the instruction does not hold them (R381). -/
def readAtom (w : W32) (ws : List W32) : Read :=
  match ws with
  | [] => .short
  | p :: ws =>
    match mkInstrAtom (major w).toNat (p.extractLsb' 27 5).toNat (fieldsM w 0) (p.extractLsb' 21 6)
        (p.extractLsb' 15 6) with
    | none => .illegal .function
    | some _ =>
      match takeLit (w.extractLsb' 10 6) ws with
      | none => .short
      | some (l, n) =>
        if p.extractLsb' 0 15 ≠ 0 then .illegal .reserved
        else
          match mkInstrAtom (major w).toNat (p.extractLsb' 27 5).toNat (fieldsM w l) (p.extractLsb' 21 6)
              (p.extractLsb' 15 6) with
          | some i => .ok i (2 + n)
          | none => .illegal .function

/-- A format V instruction read from its words; the reserved bits of word 1 are checked here (R143). -/
def readV (w : W32) (ws : List W32) : Read :=
  match mkInstrV (major w).toNat (w.extractLsb' 0 6).toNat (fieldsV w 0) with
  | none => .illegal .function
  | some _ =>
    match ws with
    | [] => .short
    | x :: _ =>
      if x.extractLsb' 0 6 ≠ 0 then .illegal .reserved
      else
        match mkInstrV (major w).toNat (w.extractLsb' 0 6).toNat (fieldsV w x) with
        | some i => .ok i 2
        | none => .illegal .function

/-- An engine command read from its words. -/
def readE (w : W32) (ws : List W32) : Read :=
  let maj := (major w).toNat
  let op := (w.extractLsb' 20 6).toNat
  match operandWords maj op with
  | none => .illegal .function
  | some n =>
    match ws with
    | [] => .short
    | w1 :: rest =>
      if ws.length < n then .short
      else
        let w2 := if 2 ≤ n then rest.headD 0 else 0
        let w3 := if 3 ≤ n then rest.tail.headD 0 else 0
        match (if commandLit maj op w1 then takeLit (w1.extractLsb' 22 6) (ws.drop n) else some (0, 0)) with
        | none => .short
        | some (l, k) =>
          match mkInstrE maj op (fieldsE w w1 w2 w3 l) with
          | some i => .ok i (1 + n + k)
          | none => .illegal .function

/-- Steps 1 to 4 of the decode order over the words at the program counter (R146): which instruction
they are, before any field is checked. A condition code of a branch is a field: one that R165 does not list
names no instruction and is refused as such. -/
def readWords (ws : List W32) : Read :=
  match ws with
  | [] => .short
  | w :: rest =>
    match majorForm (major w).toNat with
    | .illegal => .illegal .major
    | .a => readA w rest
    | .i =>
      match mkInstrI (major w).toNat w with
      | some i => .ok i 1
      | none => .illegal .function
    | .b =>
      match mkInstrB (major w).toNat w with
      | some i => .ok i 1
      | none => .illegal .field
    | .m => readM w rest
    | .m2 => readAtom w rest
    | .v => readV w rest
    | .e => readE w rest

/-- Steps 5 to 8 over an instruction: the first check that fails (R146). -/
def firstFailure (k : Checks) : Option Reason :=
  if !k.reservedOk then some .reserved
  else if !k.fieldOk then some .field
  else if !k.literalOk then some .literal
  else if !k.registerOk then some .register
  else none

/-- The decoder: steps 1 to 8 of R146 under a launch's register counts. -/
def decode (lim : Limits) (ws : List W32) : Read :=
  match readWords ws with
  | .ok i n =>
    match firstFailure (i.checks lim) with
    | none => .ok i n
    | some r => .illegal r
  | r => r

/-- Whether an instruction is of the privileged major or names a privileged control register (R134). -/
def Instr.privileged : Instr → Bool
  | .eret _ => true
  | .halt _ => true
  | .icinv _ => true
  | .codepatch _ => true
  | .dbgstop _ => true
  | .csrrd o => o.n.getLsbD 11
  | .csrwr o => o.n.getLsbD 11
  | .csrset o => o.n.getLsbD 11
  | .csrclr o => o.n.getLsbD 11
  | _ => false

/-- The words of a format A instruction. -/
def mkA (maj : BitVec 6) (fn : BitVec 8) (o : OpA) : List W32 := [maj ++ o.d ++ o.a ++ o.b ++ fn]

/-- The words of a format A instruction whose field b takes a literal. -/
def mkAL (maj : BitVec 6) (fn : BitVec 8) (o : OpA) : List W32 :=
  (maj ++ o.d ++ o.a ++ o.b ++ fn) :: litWords o.b o.lit

/-- The words of a format M instruction, with an operation word where there is one. -/
def mkM (maj : BitVec 6) (o : OpM) (op : List W32) : List W32 :=
  (maj ++ o.t ++ o.h ++ o.x ++ o.size ++ o.order ++ o.scope ++ o.scale) :: (op ++ litWords o.x o.lit)

/-- The words of a format V instruction. -/
def mkV (maj fn : BitVec 6) (o : OpV) : List W32 :=
  [maj ++ o.d ++ o.a ++ o.b ++ o.w ++ fn,
    o.sa ++ o.sb ++ o.dtag ++ o.rnd ++ o.clamp ++ o.mask ++ o.minv ++ o.c ++ 0#6]

/-- The words of an engine command of `n` operand words, with the literal of field x where it has one. -/
def mkE (maj op : BitVec 6) (n : Nat) (lit : Bool) (o : OpE) : List W32 :=
  (maj ++ op ++ o.kd ++ o.ka ++ o.kb ++ o.kc) ::
    ([o.w1, o.w2, o.w3].take n ++ (if lit then litWords o.x o.lit else []))

/-- The words of an instruction, from the encoding tables of the spec; an act of the host or the
platform is no instruction word and has none. The micro-orders of the step tables are 32-bit words
of their own (R254, R287, R346), with their code in bits 31 to 27. -/
def encode : Instr → List W32
  | .packageReset => []
  | .trustCoreWatchdog => []
  | .firmwareVerified => []
  | .hbmTrainingDone _ => []
  | .hostLinkConfigReady => []
  | .functionLevelReset _ => []
  | .powerTrip => []
  | .ideFailure _ => []
  | .status _ => []
  | .reset _ => []
  | .fwLoad _ => []
  | .debugNonce _ => []
  | .debugUnlock _ => []
  | .lifecycleAdvance _ => []
  | .lifecycleTransition => []
  | .ctxCreate _ _ => []
  | .ctxEnd _ _ => []
  | .handleMint _ _ => []
  | .handleRevoke _ _ => []
  | .handleRead _ _ => []
  | .getVersion _ => []
  | .getCapabilities _ => []
  | .negotiateAlgorithms _ => []
  | .getDigests _ => []
  | .getCertificate _ => []
  | .challenge _ => []
  | .getMeasurements _ => []
  | .keyExchange _ => []
  | .finish _ => []
  | .endSession _ => []
  | .keyUpdate _ => []
  | .ideKm _ => []
  | .lockInterfaceRequest _ => []
  | .startInterfaceRequest _ _ => []
  | .stopInterfaceRequest _ => []
  | .stopInterfaceComplete _ => []
  | .launchSubmit _ _ => []
  | .launchTake _ => []
  | .clusterGroupBind _ => []
  | .strandGenerate _ => []
  | .strandDispatch _ => []
  | .gangReserve _ => []
  | .gangStart _ => []
  | .sliceEnd _ => []
  | .budgetExhausted _ => []
  | .budgetPeriodStart _ => []
  | .watchWake _ => []
  | .stealRequestArrive _ => []
  | .stealGrantArrive _ => []
  | .exchangeStepIssue _ _ => []
  | .sstepRelease _ => []
  | .launchComplete _ => []
  | .completionRecordWrite _ => []
  | .ptCommit => []
  | .calendarGo => []
  | .calendarPost => []
  | .calendarInstall => []
  | .patChange _ => []
  | .xlinv _ => []
  | .xlinvComplete => []
  | .walkApertureWrite _ _ => []
  | .pageRequestClose _ => []
  | .pageRequestRefuse _ => []
  | .functionEvict _ => []
  | .evictionDone _ => []
  | .functionResume _ => []
  | .saveAreaCheck _ => []
  | .swcap _ => []
  | .swret _ => []
  | .granuleMoveComplete => []
  | .stagingBlockMove => []
  | .retirementEnd => []
  | .keyRotationStart _ => []
  | .keyRotationEnd _ => []
  | .revocationEnd => []
  | .scrubExtentDone => []
  | .calendarSlot _ _ => []
  | .refreshForced _ _ => []
  | .bankPatrol _ _ => []
  | .linkPeerSignal _ => []
  | .linkTrainingDone _ _ _ => []
  | .linkSignalLoss _ => []
  | .attestTimeout _ => []
  | .allow _ => []
  | .deny _ => []
  | .close _ => []
  | .flitGroupReceive _ _ => []
  | .flitReceive _ _ => []
  | .requestRetry _ => []
  | .remoteWriteAck _ _ _ => []
  | .deadContextNotice _ _ => []
  | .endpointUnreachable _ => []
  | .preemptPointReached _ => []
  | .preemptSaveComplete _ => []
  | .preemptDeadline _ => []
  | .watchdog _ => []
  | .softError _ => []
  | .barrierArrive _ => []
  | .remoteCounterAdd _ => []
  | .vectorExecute _ => []
  | .matrixExecute _ => []
  | .plaitExecute _ => []
  | .copyStart _ => []
  | .copyComplete _ _ => []
  | .dbgStop _ => []
  | .dbgResume _ => []
  | .dbgStep _ => []
  | .dbgLog _ _ => []
  | .dbgReplay _ _ => []
  | .dbgLogoff _ _ => []
  | .debugDataWrite _ => []
  | .debugDataRead => []
  | .traceEnable _ => []
  | .pmevtWrite _ _ _ => []
  | .rankTableWrite _ _ => []
  | .admissionTableWrite _ _ => []
  | .registerWrite _ _ _ => []
  | .add o => mkAL 0x1#6 0x0#8 o
  | .sub o => mkAL 0x1#6 0x1#8 o
  | .mul o => mkAL 0x1#6 0x2#8 o
  | .mulhs o => mkAL 0x1#6 0x3#8 o
  | .mulhu o => mkAL 0x1#6 0x4#8 o
  | .divs o => mkAL 0x1#6 0x5#8 o
  | .divu o => mkAL 0x1#6 0x6#8 o
  | .rems o => mkAL 0x1#6 0x7#8 o
  | .remu o => mkAL 0x1#6 0x8#8 o
  | .and o => mkAL 0x1#6 0x10#8 o
  | .or o => mkAL 0x1#6 0x11#8 o
  | .xor o => mkAL 0x1#6 0x12#8 o
  | .andn o => mkAL 0x1#6 0x13#8 o
  | .shl o => mkAL 0x1#6 0x18#8 o
  | .shrl o => mkAL 0x1#6 0x19#8 o
  | .shra o => mkAL 0x1#6 0x1A#8 o
  | .rotl o => mkAL 0x1#6 0x1B#8 o
  | .min o => mkAL 0x1#6 0x20#8 o
  | .max o => mkAL 0x1#6 0x21#8 o
  | .minu o => mkAL 0x1#6 0x22#8 o
  | .maxu o => mkAL 0x1#6 0x23#8 o
  | .cmpeq o => mkAL 0xE#6 0x0#8 o
  | .cmplt o => mkAL 0xE#6 0x1#8 o
  | .cmpltu o => mkAL 0xE#6 0x2#8 o
  | .clz o => mkA 0xD#6 0x0#8 o
  | .ctz o => mkA 0xD#6 0x1#8 o
  | .popc o => mkA 0xD#6 0x2#8 o
  | .bext o => mkAL 0xD#6 0x4#8 o
  | .bins o => mkAL 0xD#6 0x5#8 o
  | .sel q o => mkAL 0xD#6 (1#5 ++ q) o
  | .addi o => [(0x2#6 ++ o.d ++ o.a ++ o.imm)]
  | .andi o => [(0x3#6 ++ o.d ++ o.a ++ o.imm)]
  | .ori o => [(0x4#6 ++ o.d ++ o.a ++ o.imm)]
  | .xori o => [(0x5#6 ++ o.d ++ o.a ++ o.imm)]
  | .cmpeqi o => [(0x6#6 ++ o.d ++ o.a ++ o.imm)]
  | .cmplti o => [(0x7#6 ++ o.d ++ o.a ++ o.imm)]
  | .shli o => [(0xF#6 ++ o.d ++ o.a ++ 0#2 ++ o.n)]
  | .shrli o => [(0xF#6 ++ o.d ++ o.a ++ 1#2 ++ o.n)]
  | .shrai o => [(0xF#6 ++ o.d ++ o.a ++ 2#2 ++ o.n)]
  | .fadd m o => mkAL 0x8#6 (m ++ 0#5) o
  | .fsub m o => mkAL 0x8#6 (m ++ 1#5) o
  | .fmul m o => mkAL 0x8#6 (m ++ 2#5) o
  | .ffma m o => mkAL 0x8#6 (m ++ 3#5) o
  | .fdiv m o => mkAL 0x8#6 (m ++ 4#5) o
  | .fsqrt m o => mkA 0x8#6 (m ++ 5#5) o
  | .fmin m o => mkAL 0x8#6 (m ++ 6#5) o
  | .fmax m o => mkAL 0x8#6 (m ++ 7#5) o
  | .fcmp m o => mkAL 0x8#6 (m ++ 8#5) o
  | .fcvt m o => mkA 0x8#6 (m ++ 9#5) o
  | .faddFp64 m o => mkAL 0x9#6 (m ++ 0#5) o
  | .fsubFp64 m o => mkAL 0x9#6 (m ++ 1#5) o
  | .fmulFp64 m o => mkAL 0x9#6 (m ++ 2#5) o
  | .ffmaFp64 m o => mkAL 0x9#6 (m ++ 3#5) o
  | .fdivFp64 m o => mkAL 0x9#6 (m ++ 4#5) o
  | .fsqrtFp64 m o => mkA 0x9#6 (m ++ 5#5) o
  | .fminFp64 m o => mkAL 0x9#6 (m ++ 6#5) o
  | .fmaxFp64 m o => mkAL 0x9#6 (m ++ 7#5) o
  | .fcmpFp64 m o => mkAL 0x9#6 (m ++ 8#5) o
  | .fcvtFp64 m o => mkA 0x9#6 (m ++ 9#5) o
  | .qset o => mkA 0xC#6 0x0#8 o
  | .qand o => mkA 0xC#6 0x1#8 o
  | .qor o => mkA 0xC#6 0x2#8 o
  | .qnot o => mkA 0xC#6 0x3#8 o
  | .br o => [(0x10#6 ++ 0#4 ++ o.a ++ o.disp)]
  | .brEqz o => [(0x10#6 ++ 1#4 ++ o.a ++ o.disp)]
  | .brNez o => [(0x10#6 ++ 2#4 ++ o.a ++ o.disp)]
  | .brLtz o => [(0x10#6 ++ 3#4 ++ o.a ++ o.disp)]
  | .brGez o => [(0x10#6 ++ 4#4 ++ o.a ++ o.disp)]
  | .brGtz o => [(0x10#6 ++ 5#4 ++ o.a ++ o.disp)]
  | .brLez o => [(0x10#6 ++ 6#4 ++ o.a ++ o.disp)]
  | .brQ o => [(0x10#6 ++ 8#4 ++ o.a ++ o.disp)]
  | .brNq o => [(0x10#6 ++ 9#4 ++ o.a ++ o.disp)]
  | .loopInit n o => [(0x11#6 ++ 0#2 ++ n ++ o.a ++ o.disp)]
  | .loop n o => [(0x11#6 ++ 1#2 ++ n ++ o.a ++ o.disp)]
  | .loopspInit n o => [(0x11#6 ++ 2#2 ++ n ++ o.a ++ o.disp)]
  | .loopsp n o => [(0x11#6 ++ 3#2 ++ n ++ o.a ++ o.disp)]
  | .jmp o => mkAL 0x12#6 0x1#8 o
  | .call o => mkAL 0x12#6 0x2#8 o
  | .ret o => mkA 0x12#6 0x3#8 o
  | .nop o => mkA 0x12#6 0x0#8 o
  | .exit o => mkA 0x12#6 0x4#8 o
  | .brk o => mkA 0x12#6 0x8#8 o
  | .syscall o => mkAL 0x12#6 0x9#8 o
  | .trapf o => mkA 0x12#6 0xA#8 o
  | .rgn o => mkA 0x12#6 0x10#8 o
  | .suspend sc o => mkA 0x13#6 (0#6 ++ sc) o
  | .suspendYield sc o => mkA 0x13#6 (1#6 ++ sc) o
  | .watch sc o => mkAL 0x13#6 (2#6 ++ sc) o
  | .spawn o => mkAL 0x13#6 0x10#8 o
  | .launch o => mkAL 0x13#6 0x18#8 o
  | .splitchk o => mkA 0x13#6 0x20#8 o
  | .sstep o => mkA 0x13#6 0x28#8 o
  | .csrrd o => [(0x14#6 ++ o.d ++ o.a ++ 0#2 ++ o.n)]
  | .csrwr o => [(0x14#6 ++ o.d ++ o.a ++ 1#2 ++ o.n)]
  | .csrset o => [(0x14#6 ++ o.d ++ o.a ++ 2#2 ++ o.n)]
  | .csrclr o => [(0x14#6 ++ o.d ++ o.a ++ 3#2 ++ o.n)]
  | .ld o => mkM 0x18#6 o []
  | .st o => mkM 0x19#6 o []
  | .hload o => mkAL 0x1A#6 0x0#8 o
  | .hquery o => mkA 0x1A#6 0x1#8 o
  | .hdrop o => mkA 0x1A#6 0x2#8 o
  | .atomAdd o v w => mkM 0x1C#6 o [(0#5 ++ v ++ w ++ 0#15)]
  | .atomAnd o v w => mkM 0x1C#6 o [(1#5 ++ v ++ w ++ 0#15)]
  | .atomOr o v w => mkM 0x1C#6 o [(2#5 ++ v ++ w ++ 0#15)]
  | .atomXor o v w => mkM 0x1C#6 o [(3#5 ++ v ++ w ++ 0#15)]
  | .atomMin o v w => mkM 0x1C#6 o [(4#5 ++ v ++ w ++ 0#15)]
  | .atomMax o v w => mkM 0x1C#6 o [(5#5 ++ v ++ w ++ 0#15)]
  | .atomMinu o v w => mkM 0x1C#6 o [(6#5 ++ v ++ w ++ 0#15)]
  | .atomMaxu o v w => mkM 0x1C#6 o [(7#5 ++ v ++ w ++ 0#15)]
  | .atomSwap o v w => mkM 0x1C#6 o [(8#5 ++ v ++ w ++ 0#15)]
  | .atomCas o v w => mkM 0x1C#6 o [(9#5 ++ v ++ w ++ 0#15)]
  | .atomFadd o v w => mkM 0x1C#6 o [(10#5 ++ v ++ w ++ 0#15)]
  | .atom2Swap o v w => mkM 0x1D#6 o [(8#5 ++ v ++ w ++ 0#15)]
  | .atom2Cas o v w => mkM 0x1D#6 o [(9#5 ++ v ++ w ++ 0#15)]
  | .acq sc o => mkA 0x1E#6 (0#5 ++ sc) o
  | .rel sc o => mkA 0x1E#6 (2#5 ++ sc) o
  | .relK sc o => mkA 0x1E#6 (4#5 ++ sc) o
  | .fence sc o => mkA 0x1E#6 (6#5 ++ sc) o
  | .kwait o => mkA 0x3C#6 0x0#8 o
  | .kwaitAll o => mkA 0x3C#6 0x1#8 o
  | .ktest o => mkA 0x3C#6 0x4#8 o
  | .kstat o => mkA 0x3C#6 0x8#8 o
  | .kstatClr o => mkA 0x3C#6 0x9#8 o
  | .binit o => mkAL 0x3C#6 0x10#8 o
  | .barrive o => mkAL 0x3C#6 0x11#8 o
  | .bwait o => mkAL 0x3C#6 0x12#8 o
  | .btest o => mkAL 0x3C#6 0x13#8 o
  | .commit o => mkA 0x3C#6 0x18#8 o
  | .waitg o => mkAL 0x3C#6 0x19#8 o
  | .waitgAll o => mkA 0x3C#6 0x1A#8 o
  | .tblstart e o => mkAL 0x3D#6 (0#6 ++ e) o
  | .tblstop e o => mkA 0x3D#6 (4#6 ++ e) o
  | .tblbase e o => mkAL 0x3D#6 (8#6 ++ e) o
  | .eret o => mkA 0x3E#6 0x0#8 o
  | .halt o => mkA 0x3E#6 0x1#8 o
  | .icinv o => mkAL 0x3E#6 0x8#8 o
  | .codepatch o => mkAL 0x3E#6 0x9#8 o
  | .dbgstop o => mkA 0x3E#6 0xA#8 o
  | .vld o => mkV 0x20#6 0x0#6 o
  | .vst o => mkV 0x20#6 0x1#6 o
  | .vlds o => mkV 0x20#6 0x2#6 o
  | .vsts o => mkV 0x20#6 0x3#6 o
  | .vgath o => mkV 0x20#6 0x4#6 o
  | .vscat o => mkV 0x20#6 0x5#6 o
  | .vmov o => mkV 0x21#6 0x0#6 o
  | .vbcast o => mkV 0x21#6 0x1#6 o
  | .vextr o => mkV 0x21#6 0x2#6 o
  | .vins o => mkV 0x21#6 0x3#6 o
  | .vadd o => mkV 0x22#6 0x0#6 o
  | .vsub o => mkV 0x22#6 0x1#6 o
  | .vmul o => mkV 0x22#6 0x2#6 o
  | .vfma o => mkV 0x22#6 0x3#6 o
  | .vfms o => mkV 0x22#6 0x4#6 o
  | .vmin o => mkV 0x22#6 0x5#6 o
  | .vmax o => mkV 0x22#6 0x6#6 o
  | .vabs o => mkV 0x22#6 0x7#6 o
  | .vneg o => mkV 0x22#6 0x8#6 o
  | .vand o => mkV 0x23#6 0x0#6 o
  | .vor o => mkV 0x23#6 0x1#6 o
  | .vxor o => mkV 0x23#6 0x2#6 o
  | .vnot o => mkV 0x23#6 0x3#6 o
  | .vshl o => mkV 0x23#6 0x4#6 o
  | .vshr o => mkV 0x23#6 0x5#6 o
  | .vshrA o => mkV 0x23#6 0x6#6 o
  | .vcmpEq o => mkV 0x23#6 0x8#6 o
  | .vcmpNe o => mkV 0x23#6 0x9#6 o
  | .vcmpLt o => mkV 0x23#6 0xA#6 o
  | .vcmpLe o => mkV 0x23#6 0xB#6 o
  | .vcmpGt o => mkV 0x23#6 0xC#6 o
  | .vcmpGe o => mkV 0x23#6 0xD#6 o
  | .vsel o => mkV 0x23#6 0x10#6 o
  | .vcvt o => mkV 0x24#6 0x0#6 o
  | .vcvtBs o => mkV 0x24#6 0x1#6 o
  | .vscale o => mkV 0x24#6 0x2#6 o
  | .vreds o => mkV 0x25#6 0x0#6 o
  | .vredmMax o => mkV 0x25#6 0x1#6 o
  | .vredmMin o => mkV 0x25#6 0x2#6 o
  | .vscan o => mkV 0x25#6 0x3#6 o
  | .vperm o => mkV 0x26#6 0x0#6 o
  | .vslideUp o => mkV 0x26#6 0x1#6 o
  | .vslideDn o => mkV 0x26#6 0x2#6 o
  | .vzip o => mkV 0x26#6 0x3#6 o
  | .vunzip o => mkV 0x26#6 0x4#6 o
  | .viota o => mkV 0x26#6 0x5#6 o
  | .vexp2 o => mkV 0x27#6 0x0#6 o
  | .vlog2 o => mkV 0x27#6 0x1#6 o
  | .vrcp o => mkV 0x27#6 0x2#6 o
  | .vrsq o => mkV 0x27#6 0x3#6 o
  | .vsin o => mkV 0x27#6 0x4#6 o
  | .vcos o => mkV 0x27#6 0x5#6 o
  | .vtanh o => mkV 0x27#6 0x6#6 o
  | .vsig o => mkV 0x27#6 0x7#6 o
  | .mand o => mkV 0x28#6 0x0#6 o
  | .mor o => mkV 0x28#6 0x1#6 o
  | .mnot o => mkV 0x28#6 0x2#6 o
  | .mpop o => mkV 0x28#6 0x3#6 o
  | .vchain o => mkV 0x29#6 0x0#6 o
  | .mcfg o => mkE 0x30#6 0x0#6 1 false o
  | .mldw o => mkE 0x30#6 0x1#6 1 true o
  | .mswap o => mkE 0x30#6 0x2#6 1 false o
  | .mzero o => mkE 0x30#6 0x3#6 1 false o
  | .mmul o => mkE 0x30#6 0x4#6 2 true o
  | .mmulc o => mkE 0x30#6 0x5#6 2 true o
  | .mlda o => mkE 0x30#6 0x6#6 1 true o
  | .mret o => mkE 0x30#6 0x7#6 1 true o
  | .mretFree o => mkE 0x30#6 0x7#6 1 false o
  | .tableEnd _ m => [(0#5 ++ m)]
  | .tableSeta _ m => [(1#5 ++ m)]
  | .tableAdda _ m => [(2#5 ++ m)]
  | .wrow m => [(3#5 ++ m)]
  | .arow m => [(4#5 ++ m)]
  | .tableSwap m => [(5#5 ++ m)]
  | .ztile m => [(6#5 ++ m)]
  | .tableSetl _ m => [(7#5 ++ m)]
  | .tableBack _ m => [(8#5 ++ m)]
  | .prow m => [(16#5 ++ m)]
  | .papp m => [(17#5 ++ m)]
  | .seth m => [(9#5 ++ m)]
  | .move m => [(16#5 ++ m)]
  | .dect m => [(17#5 ++ m)]
  | .plclr o => mkE 0x34#6 0x0#6 1 false o
  | .plload o => mkE 0x34#6 0x1#6 2 true o
  | .plqr o => mkE 0x34#6 0x2#6 2 true o
  | .plsolve o => mkE 0x34#6 0x3#6 2 true o
  | .pldrain o => mkE 0x34#6 0x4#6 2 true o
  | .pldrainLm o => mkE 0x34#6 0x4#6 2 true o
  | .plapply o => mkE 0x34#6 0x5#6 2 true o
  | .plapplySw o => mkE 0x34#6 0x5#6 2 true o
  | .plrot o => mkE 0x34#6 0x6#6 2 true o
  | .plvec o => mkE 0x34#6 0x7#6 2 true o
  | .plswap o => mkE 0x34#6 0x8#6 1 false o
  | .cpy o => mkE 0x38#6 0x0#6 3 true o
  | .cpym o => mkE 0x38#6 0x1#6 3 true o
  | .cpg o => mkE 0x38#6 0x2#6 3 true o
  | .cps o => mkE 0x38#6 0x3#6 3 true o
  | .cpredAdd o => mkE 0x38#6 0x4#6 3 true o
  | .cpredMin o => mkE 0x38#6 0x4#6 3 true o
  | .cpredMax o => mkE 0x38#6 0x4#6 3 true o
  | .cpdec o => mkE 0x38#6 0x5#6 2 true o
  | .cpfill o => mkE 0x38#6 0x6#6 2 true o
  | .cpremPut o => mkE 0x38#6 0x7#6 3 true o
  | .cpremGet o => mkE 0x38#6 0x7#6 3 true o
  | .cpagentCas128 o => mkE 0x38#6 0x8#6 3 true o
  | .cpagentCas256 o => mkE 0x38#6 0x8#6 3 true o
  | .cpagentEnq o => mkE 0x38#6 0x8#6 3 true o
  | .cpagentChase o => mkE 0x38#6 0x8#6 3 true o
  | .bmupdAdd o => mkE 0x38#6 0x9#6 2 true o
  | .bmupdMul o => mkE 0x38#6 0x9#6 2 true o
  | .bmupdMin o => mkE 0x38#6 0x9#6 2 true o
  | .bmupdMax o => mkE 0x38#6 0x9#6 2 true o
  | .bmupdFma o => mkE 0x38#6 0x9#6 2 true o
  | .bmupdSet o => mkE 0x38#6 0x9#6 2 true o
  | .hostMemoryAccess _ _ _ => []
  | .scaleOutFrameReceive _ _ => []
  | .retransmissionTimeout _ => []
  | .ptCommitDone => []
  | .patChangeDone => []
  | .saveAreaCheckDone _ => []
  | .debugReplayDone _ => []

/-- The first `n` 32-bit words of a number, least significant first. -/
def wordsOf : Nat → Nat → List W32
  | 0, _ => []
  | n + 1, w => BitVec.ofNat 32 w :: wordsOf n (w / 2 ^ 32)

/-- The instruction the decoder reads from the bits of an opcode-table row: bit 0 is the least
significant bit of the first word, and every bit at or above `nbits` is zero. -/
def decodeTableWord (nbits w : Nat) : Option Instr :=
  match decode Limits.max (wordsOf 6 (w % 2 ^ nbits)) with
  | .ok i _ => some i
  | _ => none

end Sys2Proof
end

