-- ==== Sys2Proof/Machine/State.lean ====
section
/-! DEFINITION. The state of the machine: plain data, one field for each piece of state the spec names,
and the state right after reset. -/

namespace Sys2Proof.Machine

/-! ## One core -/

/-- A vector register: 512 bytes, format tag, valid bit (R49, R132). -/
structure VReg where
  data : BitVec 4096
  tag : BitVec 4
  valid : Bool
deriving DecidableEq, Repr

/-- A token register: pending or complete with status and detail (R366). `prod` is the model's number of
the production a pending token waits for (R457). -/
structure Tok where
  pend : Bool
  status : BitVec 8
  detail : BitVec 40
  prod : Nat
deriving DecidableEq, Repr

/-- A handle register h2 to h15 (R82): the entry it names and the generation it was loaded with. -/
inductive HReg where
  | empty
  /-- h0 and h1: the record is built by the hardware and cannot be revoked (R82) -/
  | built
  | valid (entry gen : Nat)
  | revoked (entry gen : Nat)
deriving DecidableEq, Repr

/-- The registers the region log covers (R410): the log of a region is a whole copy of them, taken at
its start. -/
structure Regs where
  s : List Word
  v : List VReg
  k : List Tok
  m : List (BitVec 1024)
  q : BitVec 8
  lc : List W32
  /-- iteration counts ITC0 to ITC3 (R463) -/
  itc : List W32
  /-- whether a LOOPSP.init started each counter (R464) -/
  lsp : List Bool
  rbs : Nat
  rbv : Nat
  rbk : Nat
  h : List HReg
  flags : Word
  flagen : Word
  rnglo : Word
  rnghi : Word
  /-- members of the open group, by production number (R325, R373) -/
  openGroup : List Nat
  /-- outstanding closed groups: group number and members (R373) -/
  closedGroups : List (Nat × List Nat)
  /-- the strand's next group number (R373) -/
  nextGroup : W32
deriving DecidableEq, Repr

/-- A tensor parameter record (R79), as a handle-cache fill copies it. -/
structure Param where
  rnd : Nat
  tag : Nat
  cmp : Bool
  bsp : Bool
  bs : Bool
  d : List Nat
  s : List Nat
  clamp : W32
  aux : Nat
deriving DecidableEq, Repr

/-- A handle record (R73): bytes 0 to 47 by field, and the 128-bit SEAL of bytes 48 to 63. -/
structure HRec where
  base : Nat
  length : Nat
  rights : BitVec 16
  tenant : Nat
  keyslot : Nat
  guard : Nat
  param : Nat
  gen : Nat
  kind : Nat
  local_ : Bool
  rank : Nat
  sealTag : BitVec 128
deriving DecidableEq, Repr

/-- A line of the core's handle cache (R85): the record and the parameter record copied with it. -/
structure HCached where
  entry : Nat
  rec_ : HRec
  param : Option Param
deriving DecidableEq, Repr

/-- A view after its check (R86): where the handle's range lies, the offset, and the records carried. -/
structure View where
  kind : Nat
  local_ : Bool
  rank : Nat
  /-- tenant address of the range, or place of the share for LM and CP -/
  base : Nat
  off : Nat
  length : Nat
  rights : BitVec 16
  entry : Option Nat
  guard : Nat
  param : Option Param
  hreg : Nat
  opw : Nat
deriving DecidableEq, Repr

/-- What a queued command still waits for: a production and the physical token that named it at issue, or
the status it took from it (R457, R470). -/
inductive Wait where
  | on (prod phys : Nat)
  | done (status : BitVec 8)
deriving DecidableEq, Repr

/-- A translation miss (R297, R415): what the page-request entry records, and the TRAPINFO that a refused request delivers
(R417). -/
structure Miss where
  addr : Nat
  tenant : Nat
  bm : Bool
  need : BitVec 4
  /-- the reason of R416; 6: a poisoned line of walk space (R444); above 6 no page is missing: `Stall.code` says what the
  access waits for -/
  reason : Nat
  info : Word
deriving DecidableEq, Repr

/-- An entry of an engine's queue (R13, R183, R235, R267, R324). -/
structure Cmd where
  instr : Instr
  /-- the production this command makes -/
  prod : Nat
  /-- the region it was issued in -/
  rseq : BitVec 48
  /-- the physical token it completes and its logical number, if it names one -/
  tok : Option (Nat × Nat)
  waits : List Wait
  /-- scalar operands, read at issue -/
  scal : List Word
  /-- the values of its scalar operand fields, in field order (R468) -/
  operands : List Word
  views : List View
  rbv : Nat
  rbs : Nat
  started : Bool
  /-- resume cursor: the next unit to do (R188, R249, R285, R329) -/
  cursor : Nat
  fl : BitVec 5
  /-- the status it will end with, once it failed -/
  fail : Option (BitVec 8 × BitVec 40)
  /-- the page-request entry it is paused on (R415) -/
  paused : Option Nat
  /-- the miss for which no page-request entry was free (R416) -/
  full : Option Miss := none
  /-- its region was rolled back: it runs on but changes no restored register (R330) -/
  orphan : Bool
  /-- what the command noted as it began: chain table bytes, or the offsets of a gather (R188) -/
  pieces : List Nat
  /-- tags its result gives to physical vector registers (R184) -/
  tags : List (Nat × Nat)
  /-- the handle registers a copy table run took at its issue (R346) -/
  snap : List HReg
  /-- places a copy command has written, with lengths (R320) -/
  wrote : List (Nat × Nat)
  /-- pairs or elements of the unit in progress already finished (R270, R432) -/
  part : Nat
deriving DecidableEq, Repr

/-- A store held in the region store buffer (R319). -/
structure SEntry where
  view : View
  /-- its place; for a remote store the tenant address at the target -/
  place : Nat
  bytes : List Byte
deriving DecidableEq, Repr

/-- A line of the scalar line buffer (R320). -/
structure LineBuf where
  line : Nat
  data : List Byte
  valid : BitVec 64
  dirty : BitVec 64
  guard : Nat
deriving DecidableEq, Repr

/-- A line of the instruction cache (R131). -/
structure ILine where
  tenant : Nat
  entry : Nat
  gen : Nat
  line : Nat
  data : List Byte
deriving DecidableEq, Repr

/-- The code handle as the sequencer holds it (R129). -/
structure Code where
  entry : Nat
  gen : Nat
  base : Nat
  length : Nat
  kind : Nat
deriving DecidableEq, Repr

/-- The strand a core runs and what its launch fixes for it (R92 to R97, R112, R116). -/
structure Job where
  launch : Nat
  strand : Nat
  ctx : Nat
  fn : Nat
  tenant : Nat
  workid : Word
  ncores : Nat
  rank : Nat
  mode : Nat
  lim : Limits
  rsb : Nat
  code : Code
  hlStart : Nat
  /-- generations recorded at admission, one for each handle of the list (R83) -/
  admitted : List Nat
  lmBase : Nat
  lmBytes : Nat
  /-- its group's CP share: cluster, offset and bytes (R116) -/
  cpCluster : Nat
  cpBase : Nat
  cpBytes : Nat
  group : Nat
  /-- its core group; a spawned strand has none (R121) -/
  coreGroup : Option Nat
  /-- the step tables TBL0 to TBL3: LM offset and entries -/
  tables : List (Nat × Nat)
  readyAt : Nat
deriving DecidableEq, Repr

/-- A weight plane: rows of 64 element codes, E8M0 scales by 64 × group + column, tag, valid bit and the C
and S bits (R228, R230). What is not listed is zero. -/
structure Plane where
  rows : List (List Nat)
  scales : List Nat
  tag : Nat
  valid : Bool
  c : Bool
  s : Bool
deriving DecidableEq, Repr

/-- An accumulator tile: FREE or LIVE, 64 rows of 64 FP32 codes, and its exception record INVC, OVFC,
ROWS (R230). A row or an element not listed is +0. -/
structure Tile where
  live : Bool
  rows : List (List Nat)
  invc : Nat
  ovfc : Nat
  count : Nat
deriving DecidableEq, Repr

/-- The run of a step table in one engine (R251, R252, R346). -/
structure TableRun where
  base : Nat
  entries : Nat
  pos : Nat
  steps : Nat
  address : List Nat
  loops : List Nat
deriving DecidableEq, Repr

/-- The arrays of a core (R230, R240, R258): planes w0, w1, tiles a0 to a3, matrix configuration, the
plait planes tq0 and tq1. -/
structure Arrays where
  w0 : Plane
  w1 : Plane
  a : List Tile
  wtag : Nat
  atag : Nat
  rnd : Nat
  wbs : Bool
  abs_ : Bool
  tq0 : List (List Nat)
  tq1 : List (List Nat)
deriving DecidableEq, Repr

/-- What a stalled or waiting sequencer waits for (R182, R415, R425). -/
inductive Stall where
  | none
  | busy
  | full (e : Eng)
  | page (entry : Nat)
  | pageFull
  /-- an access meets a line of a granule of HBM in transit (R442) -/
  | transit (line : Nat)
  /-- a write to a line of HBM waits for its scrub out of order (R455) -/
  | scrub (line : Nat)
  /-- a walk waits for a slot of its class (R16) -/
  | walk
  /-- 4096 requests of the core are outstanding (R324) -/
  | room
  | steal
  | barrier
  /-- rolled back at the deadline of a pre-emption, the array still finishing earlier entries (R426) -/
  | drain
deriving DecidableEq, Repr

/-- The access waits for the memory: nothing of what met it has been done, and it is made again (R363, R442, R455). -/
def Stall.held : Stall → Bool
  | .transit _ => true
  | .scrub _ => true
  | .walk => true
  | .room => true
  | _ => false

/-- Such a wait as a miss that asks for no page: its reason and what it names. -/
def Stall.code : Stall → Nat × Nat
  | .transit l => (7, l)
  | .scrub l => (9, l)
  | _ => (8, 0)

/-- The wait that a miss without a page stands for. -/
def Miss.held (m : Miss) : Option Stall :=
  if m.reason = 7 then some (.transit m.info.toNat)
  else if m.reason = 8 then some .walk
  else if m.reason = 9 then some (.scrub m.info.toNat)
  else none

/-- One core: sequencer, registers, engines and their queues (R12, R13, R132, R135). -/
structure Core where
  pc : BitVec 48
  live : Regs
  ckpt : Regs
  startPc : BitVec 48
  startPriv : Bool
  priv : Bool
  rseq : BitVec 48
  lastCause : BitVec 2
  /-- the region RSEQ numbers has closed and the next one has not started: an instruction between the two is
  under way (R171) -/
  closed : Bool
  reexec : Bool
  /-- the consumption that set REEXEC was privileged (R433) -/
  reexecPriv : Bool
  /-- the five substreams of stochastic rounding and the region each was seeded for (R65, R66) -/
  sub : List Word
  subSeq : List (BitVec 48)
  /-- old states of the copy engine's substream, by region, for commands of those regions still in progress
  (R66) -/
  oldSubs : List (Nat × Word)
  trapCause : Word
  trapInfo : Word
  epc : Word
  trapScr : Word
  job : Option Job
  hcache : List HCached
  icache : List ILine
  lines : List LineBuf
  sbuf : List SEntry
  vq : List Cmd
  mq : List Cmd
  pq : List Cmd
  cq : List Cmd
  /-- the next production number -/
  prod : Nat
  arrays : Arrays
  /-- the checkpoint copies of the matrix and the plait array, and the regions they were taken at (R247,
  R284) -/
  arraysCkpt : Arrays
  matSeq : BitVec 48
  plaitSeq : BitVec 48
  tables : List TableRun
  tablesCkpt : List TableRun
  stallSel : Word
  /-- the 37 stall counters of each of the four engines and the sequencer, by selector (R469) -/
  stallCnt : List (Nat × Word)
  /-- command logs of the engines: on or off, and the records held (R468) -/
  cmdLog : List Bool
  stall : Stall
  /-- the miss its strand waits for, by an entry of the queue or for one to be free (R415, R416) -/
  awaits : Option Miss
  /-- acknowledgements awaited of posted remote writes, and statuses held (R407, R408) -/
  posted : List Nat
  held : List (Nat × BitVec 8)
  /-- the remote load or atomic under way (R317, R383) -/
  remote : Option Nat
  /-- an atomic that a roll-back met while its response was awaited: the request, and the PC and the level of its
  instruction, whose next attempt takes that response (R383) -/
  kept : List (Nat × BitVec 48 × Bool)
  /-- a steal request outstanding, its grant, and requests held here (R122 to R124) -/
  thief : Bool
  /-- it has arrived at the barrier of its stepped launch and waits there (R125) -/
  atBarrier : Bool
  grant : Option (Word × Word)
  stealReturned : Bool
  heldSteals : List Nat
  /-- a pre-emption request reached this core (R425) -/
  preempt : Bool
  preemptReady : Bool
  /-- a strand that ends as HALT does, with this status, once its waits are over (R418, R424) -/
  halting : Option Nat
  /-- it has entered a trap, and the first instruction of its supervisor is not fetched yet (R418) -/
  entering : Bool
  /-- stopped by the debug port (R460) -/
  stopped : Bool
  /-- marked stop pending, and the stop point it stands at already passed (R460, R461) -/
  stopPending : Bool
  stopPassed : Bool
deriving DecidableEq, Repr

/-! ## Memory, handles and translation -/

/-- An entry of a handle table (R76). -/
structure TEntry where
  rec_ : Option HRec
  gen : Nat
  closed : Bool
deriving DecidableEq, Repr

/-- A context: its function, session, tenant identifier, key slot, handle table and supervisor entry
offset (R76, R77, R418). `domain` numbers the first tenant key drawn for it, from which the keys of its
shares are counted (R449, assumption 6). -/
structure Ctx where
  num : Nat
  fn : Nat
  sess : Nat
  tenant : Nat
  domain : Nat
  /-- number of the tenant key in force; the old one while a rotation runs (R448) -/
  key : Nat
  keyslot : Nat
  size : Nat
  table : List (Nat × TEntry)
  trapvec : Word
deriving DecidableEq, Repr

/-- The states of a tenant identifier (R301). -/
inductive TidState where
  | free
  | live
  | retiring
  /-- 0x00 and 0xFF, never allocated (R301) -/
  | reserved
deriving DecidableEq, Repr

/-- A tenant identifier: state, EPOCH, HINT, and when it became free (R298, R301). -/
structure Tid where
  state : TidState
  epoch : BitVec 8
  hint : BitVec 4
  freedAt : Nat
  /-- its retirement sweep has ended (R301) -/
  swept : Bool
  /-- the function whose context holds or held it -/
  fn : Nat
deriving DecidableEq, Repr

/-- An entry of the inverted page table (R294). -/
structure IptEntry where
  vpn : BitVec 32
  tenant : BitVec 8
  valid : Bool
  lock : Bool
  size : BitVec 2
  rights : BitVec 4
  link : BitVec 25
deriving DecidableEq, Repr

/-- A leaf held by a cluster's translation cache (unit 0 to 191) or a die's walk cache (unit 192 to
199) (R299). -/
structure XlEntry where
  unit_ : Nat
  tenant : Nat
  epoch : BitVec 8
  size : Nat
  vpn : Nat
  frame : Nat
  kind : Nat
  rights : BitVec 4
  /-- LOCK of the entry as it was cached: a leaf gives the result that the walk then gave (R299) -/
  lock : Bool
deriving DecidableEq, Repr

/-- An extent of the physical allocation table (R310). -/
structure Extent where
  owner : BitVec 8
  scrub : BitVec 2
deriving DecidableEq, Repr

/-- An open entry of the page-request queue (R416). -/
structure PageReq where
  addr : Nat
  tenant : Nat
  need : BitVec 4
  reason : Nat
  bm : Bool
  opened : Nat
  /-- taken from the tenant's reserved entries, not from the pool -/
  reserved : Bool
deriving DecidableEq, Repr

/-- What the trust core's error log records (R85, R315, R423, R432, R433). -/
inductive LogKind where
  | sealFail
  | poison
  | consumed
  | trapLost
  | softError
  | watchdog
  | saveFault
  | contextLost
  | remoteRefused
  | linkDown
  | walkPoison
deriving DecidableEq, Repr

/-- A record of the trust core's error log. -/
structure LogRec where
  kind : LogKind
  a : Nat
  b : Nat
  c : Nat
deriving DecidableEq, Repr

/-! ## Launches and strands -/

/-- A launch header's fields (R92). -/
structure Header where
  mode : Nat
  prio : Nat
  codeIx : Nat
  entry : Nat
  hlStart : Nat
  hlCount : Nat
  widths : List Nat
  nf : Nat
  cl : Nat
  kl : Nat
  ext : List Nat
  lmBytes : Nat
  cpBytes : Nat
  vregs : Nat
  kregs : Nat
  rots : Nat
  rotv : Nat
  rotk : Nat
  depth : Nat
  rsb : Nat
  tables : List (Nat × Nat)
  planIx : Nat
  planSteps : Nat
  planClk : Nat
  boundCores : Nat
  node : Nat
  npred : Nat
  succ : List Nat
  gparIx : Nat
  gparOff : Nat
  ctag : Word
  args : List Word
deriving DecidableEq, Repr

/-- A step of an exchange plan (R126). -/
structure PlanStep where
  src : Nat
  dst : Nat
  skind : Nat
  dkind : Nat
  hix : Nat
  soff : Nat
  doff : Nat
  len : Nat
  start : Nat
deriving DecidableEq, Repr

/-- The states of a record in a strand pool (R115, R117). -/
inductive RecState where
  | ready
  | suspended
  | watching
deriving DecidableEq, Repr

/-- A continuation record (R115) with the marks the pool keeps beside it: its strand and launch, the
groups it belongs to, whether it was ever dispatched, and the save of a pre-empted strand (R427). -/
structure Rec where
  strand : Nat
  launch : Nat
  group : Nat
  coreGroup : Option Nat
  cluster : Nat
  first : Bool
  pc : BitVec 48
  flags : BitVec 5
  state : RecState
  workid : Word
  s1 : Word
  s2 : Word
  s3 : Word
  s4 : Word
  lc0 : W32
  /-- whether a LOOPSP.init started lc0 (R464) -/
  pipe0 : Bool := false
  qs : BitVec 8
  rot : BitVec 5
  rseq : BitVec 48
  scope : Nat
  y : Bool
  core : Option Nat
  readyAt : Nat
  save : Option Core
  /-- the slot of the save: tenant address and number of the save (R427, R431) -/
  slot : Nat := 0
  saveNo : Nat := 0
deriving DecidableEq, Repr

/-- How far a launch has come (R97, R104, R112 to R114, R125, R477). -/
inductive LaunchState where
  | running
  | reserving
  | barrier
  | exchange
  | released
  | ending
  | done
deriving DecidableEq, Repr

/-- A launch that was taken from its queue and admitted (R97 to R106, R112 to R127). -/
structure Launch where
  num : Nat
  ctx : Nat
  fn : Nat
  part : Nat
  hdr : Header
  prio : Nat
  depth : Nat
  enteredAt : Nat
  admitted : List Nat
  code : Code
  state : LaunchState
  /-- bound cluster groups: the cluster each is bound to (R113) -/
  bound : List (Nat × Nat)
  /-- bound core groups: the core each is bound to (R112) -/
  coreBound : List (Nat × Nat)
  /-- strands not yet ended, by cluster group and by core group (R112) -/
  groupLeft : List (Nat × Nat)
  coreLeft : List (Nat × Nat)
  /-- the reserved core of each strand of a gang launch (R114) -/
  reserved : List (Nat × Nat)
  /-- strands generated so far in WORKID order, and strands ended -/
  generated : Nat
  live : Nat
  arrived : List Nat
  exited : List Nat
  /-- the strands that SPAWN made (R121); the barrier counts none of them (R125) -/
  spawned : List Nat
  plan : List PlanStep
  planDone : List Nat
  /-- a status that ends the launch at once, its detail and its WORKID (R426, R475) -/
  status : Option (Nat × Nat × Nat)
  /-- the status of the lowest WORKID that is not OK, and how many strands were not (R475, R476) -/
  bad : Option (Nat × Nat)
  exits : Nat
  device : Bool
  /-- where the header lies, for the record of R478 -/
  hdrView : Option View
  /-- the replay this launch is a node of, and the node -/
  replay : Option (Nat × Nat)
  readyAt : Nat
  evicted : Bool
  /-- CYCLE of the last arrival at the barrier and of the last exchange step that completed (R127) -/
  arrivedAt : Nat
  stepAt : Nat
  /-- the exchange overrun counter (R127) -/
  overruns : Nat
  /-- the page request an exchange step waits for, and the step (R415) -/
  planPage : Option (Nat × Nat)
deriving DecidableEq, Repr

/-- An entry of a function's queue (R99 to R102): a submitted launch or graph replay. -/
structure Queued where
  ctx : Nat
  kind : Nat
  hentry : Nat
  hoff : Nat
  nodes : Nat
  prio : Nat
  depth : Nat
  device : Bool
  enteredAt : Nat
  /-- refused at the copy already (R100) -/
  bad : Bool
  /-- the node of a replay, with the replay's number -/
  replay : Option (Nat × Nat)
  /-- header location given by a strand's handle register, as a view -/
  view : Option View
  /-- the page-request entry its header read waits for, and whether that was refused (R97) -/
  waitsFor : Option Nat
  refused : Bool
  /-- generation of the entry that `view` was read from, at LAUNCH -/
  gen : Nat
  /-- the launch as it was admitted, once it waits for room (R98) -/
  held : Option Launch
  /-- the launch as its header was read and passed steps 1 to 5, once it waits for a page of its plan (R97) -/
  seen : Option Launch
  /-- the root's header as it was read, once a replay waits for a page of its parameter block (R97, R105) -/
  root : Option Header
deriving DecidableEq, Repr

/-- An act of an agent of the machine that comes next (INVENTORY, Agents): an event of the opcode table,
the next instruction of a core, or the next unit of an engine's current command. -/
inductive Input where
  | event (i : Instr)
  /-- an error that ECC cannot correct arises in a line: in its data, or in its metadata (R313) -/
  | decay (line : Nat) (meta_ : Bool)
  /-- a line of walk space that a retirement copies cannot be read (R444) -/
  | walkDecay (line : Nat)
  /-- the sensors of ENVSTAT: input power, hottest junction, coolant inlet (R484) -/
  | sensors (pwr : BitVec 16) (tmax tin : BitVec 8)
  | run (core : Nat)
  | unit (core : Nat) (e : Eng) (i : Nat)
deriving DecidableEq, Repr

/-- A watcher of an 8-byte word of bank memory (R119). -/
structure Watcher where
  word : Nat
  strand : Nat
  entry : Nat
  /-- a write that covers the word was ordered; its strand is about to be READY -/
  hit : Bool
deriving DecidableEq, Repr

/-- The memories (R290, R291): bytes by place, poison marks, the key domain of each line, and the watch
lists of the banks. -/
structure Mem where
  cells : List Host.Cell
  poison : List Nat
  /-- lines with an error that ECC cannot correct, not yet read (R313, R315) -/
  faulty : List Nat
  domain : List (Nat × Nat)
  watchers : List Watcher
deriving DecidableEq, Repr

/-- Translation and allocation (R294 to R303, R310, R416). -/
structure Xlat where
  anchors : List (Nat × Nat)
  entries : List (Nat × IptEntry)
  /-- lines of walk space that are poisoned (R444) -/
  walkBad : List Nat
  tids : List (Nat × Tid)
  cache : List XlEntry
  extents : List (Nat × Extent)
  prq : List (Nat × PageReq)
  /-- misses that found no free entry, in the order in which they occurred (R416): the core, or 768 for the launch unit,
  its command or request, and the tenant -/
  misses : List (Nat × Option Nat × Nat)
  xlBusy : Bool
  xlinv : Word
  xlErr : Bool
  xlWhere : BitVec 25
  surv : List Nat
  whome : List Nat
  capacity : Nat
  patBusy : Bool
  patop : Word
  patCode : BitVec 3
deriving DecidableEq, Repr

/-- An LM share of a core (R112): held by a core group, or by one strand alone (R116). -/
structure Share where
  core : Nat
  off : Nat
  len : Nat
  launch : Nat
  coreGroup : Option Nat
  alone : Option Nat
deriving DecidableEq, Repr

/-- A CP share of a cluster (R112). -/
structure CpShare where
  cluster : Nat
  off : Nat
  len : Nat
  launch : Nat
  group : Nat
deriving DecidableEq, Repr

/-- The image of an evicted share in the save area (R429): its context, its bytes by place and its poisoned lines,
and where the image lies with the number of its save (R431). -/
structure Image where
  fn : Nat
  ctx : Nat
  lm : Option Share
  cp : Option CpShare
  cells : List Host.Cell
  poison : List Nat
  slot : Nat
  saveNo : Nat
deriving DecidableEq, Repr

/-- What a launch that has ended still waits for before its record is written (R478): another try, a page of its
header, or the acknowledgement of its header record in another package. -/
inductive Closing where
  | due
  | page (e : Nat)
  | ack (id : Nat)
deriving DecidableEq, Repr

/-- Contexts, launches, strand pools and shares (R76, R97 to R128). -/
structure Work where
  ctxs : List Ctx
  nextDomain : Nat
  queues : List (Nat × List Queued)
  /-- launches that have ended and whose record is not written, with what they wait for (R478) -/
  finishing : List (Launch × Closing)
  launches : List Launch
  pool : List Rec
  shares : List Share
  cps : List CpShare
  images : List Image
  nextLaunch : Nat
  nextStrand : Nat
deriving DecidableEq, Repr

/-! ## Trust core, functions and host registers -/

/-- The lifecycle states (R28). -/
inductive Lifecycle where
  | blank
  | provisioned
  | operational
  | debug
  | retired
deriving DecidableEq, Repr

/-- The TDISP states (R37). -/
inductive Tdisp where
  | unlocked
  | locked
  | run
  | error
deriving DecidableEq, Repr

/-- A command as its doorbell submitted it: what MBCMD and the buffer held then (R31). -/
structure Rung where
  code : BitVec 8
  len : BitVec 13
  buf : List Byte
deriving DecidableEq, Repr

/-- One mailbox: MBCMD, MBSTAT fields and the message buffer (R31). -/
structure Mailbox where
  cmd : BitVec 8
  len : BitVec 13
  busy : Bool
  done : Bool
  status : BitVec 8
  rlen : BitVec 13
  buf : List Byte
  /-- a context of its function was declared lost by a debug unlock; told at the next command (R41) -/
  lostNotice : Bool
  /-- the command submitted by a doorbell and not yet taken by the trust core (R31, R32) -/
  pending : Option Rung
deriving DecidableEq, Repr

/-- How far the SPDM flow of a function has come (R35). -/
inductive SpdmStage where
  | none
  | version
  | capabilities
  | algorithms
  | exchanging
  | session
deriving DecidableEq, Repr

/-- A virtual function: TDISP state, SPDM session, launch window, completion ring, weights and
profiling counters (R35, R37, R99, R397, R429, R454, R471, R477). -/
structure Fn where
  mbox : Mailbox
  tdisp : Tdisp
  spdm : SpdmStage
  session : Nat
  /-- the session that locked the interface -/
  lockedBy : Option Nat
  /-- a STOP_INTERFACE_REQUEST is waiting for the scrub (R38) -/
  stopping : Bool
  ideKeyed : Bool
  slots : List Byte
  /-- slots submitted and not yet copied into the queue, as they stood at the write of TAIL (R100) -/
  submitted : List (List Byte)
  lqHead : BitVec 7
  lqTail : BitVec 7
  lqRefused : Bool
  cqBase : BitVec 52
  cqSize : BitVec 4
  cqHead : BitVec 17
  cqTail : BitVec 17
  /-- completion records waiting for room in the ring (R477) -/
  waiting : List (List Byte)
  /-- records that enter the ring before CTX_END is answered (R479) -/
  endLeft : Nat
  weight : BitVec 8
  zero : Bool
  /-- core-clk used in the current budget period (R103) -/
  used : Nat
  evict : BitVec 2
  pmevt : List Word
  pmcnt : List (BitVec 48)
  /-- MSI-X vectors raised, by number of times (R396) -/
  msix : List Nat
deriving DecidableEq, Repr

/-- A firmware bank of the module flash (R27). -/
structure Flash where
  image : List Byte
  version : Nat
  signed : Bool
deriving DecidableEq, Repr

/-- The trust core (R22 to R42, R74, R76, R487). -/
structure Trust where
  /-- fused lifecycle state and current state -/
  lcFuse : Lifecycle
  lcNow : Lifecycle
  arbn : Nat
  dbgn : Nat
  identityFused : Bool
  parityError : Bool
  recovery : Bool
  /-- how far the reset has come: 0 reset released, 1 firmware verified, 2 stacks trained, 3 host link
  open (R25) -/
  boot : Nat
  banks : List Flash
  running : Nat
  fwver : Nat
  /-- measurement slots 0 to 4 (R34) -/
  slots : List (List Byte)
  /-- the identity key in force, derived at reset (R30) -/
  identity : List Byte
  nonce : Option (List Byte)
  draws : Nat
  /-- number of the seal key in force (R74) -/
  sealNo : Nat
  /-- key slots: the key domain that each holds (R77, R312, R448) -/
  keys : List (Option Nat)
  log : List LogRec
  /-- a lifecycle transition waiting for the end of a retirement (R489) -/
  pendingLc : Option Lifecycle
  pendingToken : List Byte
  debugOpen : Bool
  /-- the BUSY command of HANDLE_REVOKE: function, context, entry, core to sweep and counts (R450) -/
  revoke : Option (Nat × Nat × Nat × Nat × List Nat)
  /-- the function whose mailbox was served last (R32) -/
  last : Nat
deriving DecidableEq, Repr

/-- The partition manager's registers (R107 to R110), written and installed. -/
structure Part where
  descr : List Byte
  fence : BitVec 768
  budget : List Word
  iDescr : List Byte
  iFence : BitVec 768
  iBudget : List Word
  /-- cores fenced while a strand of a running launch occupied them, with that launch (R108) -/
  deferred : List (Nat × Nat)
  busy : Bool
  code : BitVec 3
  part : BitVec 5
deriving DecidableEq, Repr

/-- Calendars (R304 to R309). -/
structure Cal where
  pending : List (Nat × List Byte)
  installed : List (Nat × List Byte)
  post : Option (List (Nat × List Byte))
  staged : Option (List (Nat × List Byte))
  lat : List (Nat × Nat)
  refcut : List (Nat × W32)
  postponed : List (Nat × Nat)
  busy : Bool
  calctl : BitVec 2
  code : BitVec 3
deriving DecidableEq, Repr

/-- A tenant's key rotation (R446 to R448): phase number, result code, and while one runs the new and old
key slots and the mark. -/
structure Rotation where
  num : W32
  code : BitVec 3
  act : Bool
  newSlot : Nat
  oldSlot : Nat
  /-- number of the new key (R448) -/
  newKey : Nat
  ext : Nat
  line : Nat
deriving DecidableEq, Repr

/-- The sweeps: stack retirement, key rotation, revocation, scrub (21). -/
structure Sweep where
  phaseNum : W32
  retiring : Option Nat
  stage : Nat
  gran : Nat
  win : Nat
  /-- lines of the retiring stack's walk slices that could not be read, each with the entries or anchors written
  since (R444) -/
  lost : List (Nat × List Nat)
  /-- entries and anchors of the retiring stack's walk slices written in the phase, by line (R444) -/
  slice : List (Nat × List Nat)
  /-- lines of each granule in transit read and, from 64 on, written (R440) -/
  moves : List (Nat × Nat)
  staged : Bool
  swCode : BitVec 4
  swBusy : Bool
  /-- SWREPLAY: requests stalled, and requests refused and replayed (R458) -/
  stalled : W32
  refused : W32
  /-- the requests that wait for a granule in transit: the core or unit, its strand, command or request, the line -/
  stalls : List (Nat × Nat × Nat)
  /-- key rotations, by tenant -/
  rot : List (Nat × Rotation)
  revNum : W32
  revCore : Nat
  scrNum : W32
  scrExt : Option Nat
  /-- lines of the extent being scrubbed that the sweep has passed (R454) -/
  scrLine : Nat
  /-- lines of HBM that hold a write until they are scrubbed out of order (R455) -/
  asked : List Nat
  /-- lines scrubbed so, of extents that are not clean yet (R455) -/
  early : List Nat
deriving DecidableEq, Repr

/-- A stack retirement runs: PHASE.NUM is odd (R435). -/
def Sweep.retiringNow (w : Sweep) : Bool := w.phaseNum.toNat % 2 == 1

/-- A granule in transit (R439). -/
def Sweep.moving (w : Sweep) (g : Nat) : Bool := decide (w.gran ≤ g) && decide (g < w.gran + w.win)

/-- A granule that a running retirement has moved to its new home (R439). -/
def Sweep.moved (w : Sweep) (g : Nat) : Bool := w.retiringNow && decide (w.gran + w.win ≤ g)

/-- The states of a rack port (R392). -/
inductive PortState where
  | down
  | training
  | attesting
  | open_
  | error
deriving DecidableEq, Repr

/-- A rack port (R392, R393). -/
structure Port where
  state : PortState
  err : W32
  peer : BitVec 5
  rec_ : PeerRecord
  failed : Nat
  groups : Nat
  keyNo : Nat
  /-- the measurement slots, that of debug among them, that this package reported to the peer (R34, R36) -/
  told : List (List Byte)
deriving DecidableEq, Repr

/-- An outstanding request of this package to another (R385, R386, R399). -/
structure Req where
  id : Nat
  core : Nat
  /-- the command it belongs to, or none for the sequencer -/
  cmd : Option (Eng × Nat)
  piece : Nat
  op : HoopOp
  rank : Nat
  ext : Bool
  addr : Nat
  bytes : List Byte
  len : Nat
  tries : Nat
  returned : Bool
  posted : Bool
  resp : Option (BitVec 8 × List Byte)
  /-- the context it belongs to -/
  ctx : Nat
  /-- the fields of its header that its sender gives it (R384) -/
  pkey : BitVec 16
  tenant : BitVec 8
  ddie : BitVec 3
  dpkg : BitVec 5
  /-- the endpoint it was sent to, beyond scale-out (R399) -/
  endpt : Nat
  /-- the port or package-hoop station it left by, as FLIT_RECEIVE numbers them (R387, R389) -/
  port : Nat
deriving DecidableEq, Repr

/-- An entry of the endpoint table with the sequence numbers of its pair (R398): of the peer's operations the next one
expected, of ours the next to be sent, and those sent and not acknowledged, in order, with how often each was sent
again. -/
structure Endpoint where
  addr : BitVec 128
  vlan : BitVec 12
  port : BitVec 3
  expect : Nat
  next : Nat
  window : List (Nat × Nat × Flit)
deriving DecidableEq, Repr

/-- The fabrics (R384 to R399). -/
structure Links where
  ports : List Port
  admits : List W32
  ranks : List (Nat × Word)
  keydrop : W32
  reqs : List Req
  nextReq : Nat
  /-- refusal records: sender station and line, and the tag of the refused request (R388) -/
  refusals : List ((Nat × Nat) × Nat)
  /-- packages and keys known dead (R395) -/
  dead : List (Nat × Nat)
  /-- packages whose port left OPEN: every context of theirs is dead (R395) -/
  deadPkgs : List Nat
  /-- the endpoint table: its entries that are not as at reset (R398) -/
  endpoints : List (Nat × Endpoint)
  unreachable : List Nat
  /-- flits sent and not yet looked at by the outside world, each with the rack port it left by, or 4 + the die whose
  station sent it over the package hoop (R387, R389) -/
  sent : List (Nat × Flit)
  /-- flits that wait for their rack port to be OPEN (R392) -/
  unsent : List (Nat × Flit)
  /-- frames sent and not yet looked at by the outside world (R398) -/
  frames : List Frame
  /-- number of the keys of the package hoop's links, drawn anew at every package reset (R392) -/
  hoopKey : Nat
  /-- dead-context notices sent: package and partition key (R395) -/
  notices : List (Nat × Nat)
  /-- pieces written whose arrival is still to be counted: place of the barrier, bytes, and the launch whose command
  wrote them (R375) -/
  arrivals : List (Nat × Nat × Nat)
  /-- additions to counter words still to be made: place, amount, context, the endpoint it came from if it came in a
  frame, and the request that asked for it and has its answer once the addition is made (R338) -/
  adds : List (Nat × Nat × Nat × Option Nat × Flit)
deriving DecidableEq, Repr

/-- The debug port and tracing (R459 to R468). -/
structure Debug where
  dbgcmd : Word
  busy : Bool
  err : Bool
  core : Nat
  reg : Word
  log : Word
  logPos : Nat
  /-- the logged commands, as replay takes them: engine, substream at the start, command (R468) -/
  logged : List (Nat × Word × Cmd)
  /-- what the last read of DBGDATA returned -/
  data : Word
  trcctl : Word
  trchead : Word
  trcdrop : Word
  trcmask : BitVec 768
  replaying : Option (Nat × Eng)
deriving DecidableEq, Repr

/-- Save-area registers of a tenant (R430). -/
structure SaveArea where
  base : Word
  size : BitVec 24
  state : BitVec 2
deriving DecidableEq, Repr

/-- The remaining registers of the physical function (R417, R430, R484): input power in W, hottest junction and
coolant inlet in °C as the sensors last gave them, save areas. -/
structure HostRegs where
  pwr : BitVec 16
  tmax : BitVec 8
  tin : BitVec 8
  save : List (Nat × SaveArea)
  /-- host memory the device wrote: completion records by host address (R477) -/
  hostMem : List Host.Cell
  /-- the status with which the host's last access to HBM ended (R15, R313) -/
  access : Nat
  /-- accesses of the host to HBM not yet served: function, address, bytes to be written (R397) -/
  queue : List (Nat × Nat × Option (List Byte))
  /-- the deficit round robin of the host link: bytes each function may still have served, and the function whose turn
  it is (R397) -/
  deficits : List (Nat × Nat)
  turn : Nat
deriving DecidableEq, Repr

/-- A graph replay in flight (R105, R106). -/
structure Replay where
  num : Nat
  fn : Nat
  ctx : Nat
  hentry : Nat
  hoff : Nat
  nodes : Nat
  root : Header
  /-- the snapshot of the node parameter block -/
  params : List (List Byte)
  done : List Nat
  submitted : List Nat
  status : Option (Nat × Nat)
  depth : Nat
  /-- predecessors completed with OK, by node -/
  counts : List (Nat × Nat)
  /-- NPRED of nodes that have such a predecessor, as read (R105) -/
  npreds : List (Nat × Nat)
  /-- nodes whose NPRED waits for a page request, with the entry, and nodes whose request was refused -/
  waits : List (Nat × Nat)
  refused : List Nat
deriving DecidableEq, Repr

/-- A steal request on its way (R122 to R124). -/
structure Steal where
  id : Nat
  launch : Nat
  thief : Nat
  /-- cores still to visit -/
  route : List Nat
  granted : Option (Word × Word)
  back : Bool
deriving DecidableEq, Repr

/-- The whole machine. -/
structure State where
  core : Core
  coreId : Nat
  /-- the other cores; one not listed is idle as after reset -/
  parked : List (Nat × Core)
  inputs : List Input
  /-- steps of the machine so far (assumption 2) -/
  stepNo : Nat
  /-- the step of the last package reset, which CYCLE counts from -/
  resetStep : Nat
  /-- free values drawn so far (assumption 3) -/
  drawn : Nat
  powered : Bool
  mem : Mem
  xl : Xlat
  work : Work
  replays : List Replay
  steals : List Steal
  fns : List Fn
  trust : Trust
  part : Part
  cal : Cal
  sweep : Sweep
  links : Links
  dbg : Debug
  host : HostRegs
deriving DecidableEq, Repr

/-- The reasons a step can stop without a next state. -/
inductive Fault where
  /-- Raised by the step while the module has no power (25 R483): nothing runs until power returns with a
  package reset. Safe: no state exists to go on from. -/
  | poweredOff
deriving DecidableEq, Repr

/-- The reasons the model has no meaning for a step. -/
inductive Refusal where
  /-- Raised by an arm of Machine/Dispatch.lean whose instruction has no meaning in the model. Safe: the
  machine goes on where the model stops. -/
  | notModelled (mnemonic : String)
deriving DecidableEq, Repr

/-! ## Reset -/

/-- An untouched vector register. -/
def VReg.reset : VReg := ⟨0, 0, false⟩

/-- A complete token with status OK. -/
def Tok.reset : Tok := ⟨false, 0, 0, 0⟩

/-- The registers after reset (R22, R116). -/
def Regs.reset : Regs where
  s := List.replicate 62 0
  v := List.replicate 64 VReg.reset
  k := List.replicate 32 Tok.reset
  m := List.replicate 8 0
  q := 0
  lc := List.replicate 4 0
  itc := [0, 0, 0, 0]
  lsp := [false, false, false, false]
  rbs := 0
  rbv := 0
  rbk := 0
  h := List.replicate 16 .empty
  flags := 0
  flagen := 0
  rnglo := 0
  rnghi := 0
  openGroup := []
  closedGroups := []
  nextGroup := 0

/-- An invalid weight plane. -/
def Plane.reset : Plane := ⟨[], [], 0, false, false, false⟩

/-- A FREE tile. -/
def Tile.reset : Tile := ⟨false, [], 0, 0, 0⟩

/-- No table bound and no run. -/
def TableRun.reset : TableRun := ⟨0, 0, 0, 0, [0, 0, 0, 0], [0, 0, 0, 0]⟩

/-- The arrays after reset: planes and plait results zero, tiles FREE, configuration BF16 (R240, R258). -/
def Arrays.reset : Arrays where
  w0 := Plane.reset
  w1 := Plane.reset
  a := List.replicate 4 Tile.reset
  wtag := 2
  atag := 2
  rnd := 0
  wbs := false
  abs_ := false
  tq0 := []
  tq1 := []

/-- A core after reset: idle. -/
def Core.reset : Core where
  pc := 0
  live := Regs.reset
  ckpt := Regs.reset
  startPc := 0
  startPriv := false
  priv := false
  rseq := 0
  lastCause := 0
  closed := false
  reexec := false
  reexecPriv := false
  sub := [0, 0, 0, 0, 0]
  subSeq := [0, 0, 0, 0, 0]
  oldSubs := []
  trapCause := 0
  trapInfo := 0
  epc := 0
  trapScr := 0
  job := none
  hcache := []
  icache := []
  lines := []
  sbuf := []
  vq := []
  mq := []
  pq := []
  cq := []
  prod := 1
  arrays := Arrays.reset
  arraysCkpt := Arrays.reset
  matSeq := 0
  plaitSeq := 0
  tables := List.replicate 4 TableRun.reset
  tablesCkpt := List.replicate 4 TableRun.reset
  stallSel := 0
  stallCnt := []
  cmdLog := [false, false, false]
  stall := .none
  awaits := none
  posted := []
  held := []
  remote := none
  kept := []
  thief := false
  atBarrier := false
  grant := none
  stealReturned := false
  heldSteals := []
  preempt := false
  preemptReady := false
  halting := none
  entering := false
  stopped := false
  stopPending := false
  stopPassed := false

/-- An idle mailbox. -/
def Mailbox.reset : Mailbox := ⟨0, 0, false, false, 0, 0, [], false, none⟩

/-- A function after reset. -/
def Fn.reset : Fn where
  mbox := Mailbox.reset
  tdisp := .unlocked
  spdm := .none
  session := 0
  lockedBy := none
  stopping := false
  ideKeyed := false
  slots := []
  submitted := []
  lqHead := 0
  lqTail := 0
  lqRefused := false
  cqBase := 0
  cqSize := 0
  cqHead := 0
  cqTail := 0
  waiting := []
  endLeft := 0
  weight := 1
  zero := true
  used := 0
  evict := 0
  pmevt := List.replicate 8 0
  pmcnt := List.replicate 8 0
  msix := []

/-- The zero measurement slot. -/
def zeroSlot : List Byte := List.replicate 64 0

/-- The trust core at reset release of an OPERATIONAL part (assumption 7). -/
def Trust.reset : Trust where
  lcFuse := .operational
  lcNow := .operational
  arbn := 0
  dbgn := 0
  identityFused := true
  parityError := false
  recovery := false
  boot := 0
  banks := [⟨[], 1, true⟩, ⟨[], 0, false⟩]
  running := 0
  fwver := 0
  slots := List.replicate 5 zeroSlot
  identity := []
  nonce := none
  draws := 0
  sealNo := 1
  keys := List.replicate 64 none
  log := []
  pendingLc := none
  pendingToken := []
  debugOpen := false
  revoke := none
  last := 32

/-- The memories after reset: nothing listed. -/
def Mem.reset : Mem := ⟨[], [], [], [], []⟩

/-- Translation and allocation at reset release: everything empty, no stack trained yet, and so none live (R303,
assumption 8). -/
def Xlat.reset : Xlat where
  anchors := []
  entries := []
  walkBad := []
  tids := []
  cache := []
  extents := []
  prq := []
  misses := []
  xlBusy := false
  xlinv := 0
  xlErr := false
  xlWhere := 0
  surv := []
  whome := List.range 16
  capacity := 0
  patBusy := false
  patop := 0
  patCode := 0

/-- No context, launch or strand. -/
def Work.reset : Work := ⟨[], 1, [], [], [], [], [], [], [], 1, 1⟩

/-- FNBUDGET after reset: PERIOD 10, BUDGET 0 (R109). -/
def budgetReset : Word := BitVec.ofNat 64 (10 * 2 ^ 48)

/-- Partition registers after reset. -/
def Part.reset : Part where
  descr := []
  fence := 0
  budget := List.replicate 32 budgetReset
  iDescr := []
  iFence := 0
  iBudget := List.replicate 32 budgetReset
  deferred := []
  busy := false
  code := 0
  part := 0

/-- Calendars after reset. -/
def Cal.reset : Cal := ⟨[], [], none, none, [], [], [], false, 0, 0⟩

/-- Sweeps after reset. -/
def Sweep.reset : Sweep where
  phaseNum := 0
  retiring := none
  stage := 0
  gran := 0
  win := 0
  lost := []
  slice := []
  moves := []
  staged := false
  swCode := 0
  swBusy := false
  stalled := 0
  refused := 0
  stalls := []
  rot := []
  revNum := 0
  revCore := 0
  scrNum := 0
  scrExt := none
  scrLine := 0
  asked := []
  early := []

/-- A rack port after reset. -/
def Port.reset : Port where
  state := .down
  err := 0
  peer := 0
  rec_ := ⟨0, 0, 0, []⟩
  failed := 0
  groups := 0
  keyNo := 0
  told := []

/-- An entry of the endpoint table that nothing has written (log 74). -/
def Endpoint.reset : Endpoint where
  addr := 0
  vlan := 0
  port := 0
  expect := 0
  next := 0
  window := []

/-- The fabrics after reset. -/
def Links.reset : Links where
  ports := List.replicate 4 Port.reset
  admits := List.replicate 32 0
  ranks := []
  keydrop := 0
  reqs := []
  nextReq := 1
  refusals := []
  dead := []
  deadPkgs := []
  endpoints := []
  unreachable := []
  sent := []
  unsent := []
  frames := []
  hoopKey := 0
  notices := []
  arrivals := []
  adds := []

/-- The debug port after reset. -/
def Debug.reset : Debug where
  dbgcmd := 0
  busy := false
  err := false
  core := 0
  reg := 0
  log := 0
  logPos := 0
  logged := []
  data := 0
  trcctl := 0
  trchead := 0
  trcdrop := 0
  trcmask := 0
  replaying := none

/-- The machine at reset release (R22 to R25). -/
def State.reset : State where
  core := Core.reset
  coreId := 0
  parked := []
  inputs := []
  stepNo := 0
  resetStep := 0
  drawn := 0
  powered := true
  mem := Mem.reset
  xl := Xlat.reset
  work := Work.reset
  replays := []
  steals := []
  fns := List.replicate 33 Fn.reset
  trust := Trust.reset
  part := Part.reset
  cal := Cal.reset
  sweep := Sweep.reset
  links := Links.reset
  dbg := Debug.reset
  host := ⟨0, 0, 0, [], [], 0, [], [], 0⟩

end Sys2Proof.Machine
end

