-- ==== Sys2Proof/Machine/Access.lean ====
section
/-! DEFINITION. The accessors every operation goes through: which core acts, its registers by logical
number, bytes of memory at their point of order, poison, and the second stage of translation. -/

namespace Sys2Proof.Machine

/-- The outcome of a step of this machine. -/
abbrev Outcome := Host.Outcome State Fault Refusal

/-- Why an instruction ends without its effect: an exact fault, a translation miss, the consumption of a
poisoned line, or a wait after which it is tried again. -/
inductive Stop where
  | trap (cause : Nat) (info : Word)
  | trapTok (cause : Nat) (info : Word)
  | miss (m : Miss)
  | poison (line : Nat) (info : Word)
  | wait (why : Stall)
deriving DecidableEq, Repr

/-- The result of an operation that may end without effect; the state beside the reason keeps what the
device does all the same (an entry of an error log, stores already performed). -/
abbrev Res (α : Type) := Except (Stop × State) α

/-! ## Cores -/

/-- Core `n` of the package. -/
def State.coreAt (s : State) (n : Nat) : Core :=
  if n = s.coreId then s.core else (lookup s.parked n).getD Core.reset

/-- Core `n` replaced. -/
def State.setCoreAt (s : State) (n : Nat) (c : Core) : State :=
  if n = s.coreId then { s with core := c } else { s with parked := insertKey s.parked n c }

/-- Core `n` made the acting core. -/
def State.focus (s : State) (n : Nat) : State :=
  if n = s.coreId then s
  else { s with
    core := s.coreAt n
    coreId := n
    parked := insertKey (eraseKey s.parked n) s.coreId s.core }

/-- An operation carried out on core `n`, after which the core that acted before acts again. -/
def State.on (s : State) (n : Nat) (f : State → State) : State := (f (s.focus n)).focus s.coreId

/-- An operation on every core that has state of its own. -/
def State.onCores (s : State) (f : Core → Core) : State :=
  { s with core := f s.core, parked := s.parked.map (fun p => (p.1, f p.2)) }

/-- The acting core changed. -/
def State.upCore (s : State) (f : Core → Core) : State := { s with core := f s.core }

/-- The live registers of the acting core changed. -/
def State.upRegs (s : State) (f : Regs → Regs) : State :=
  { s with core := { s.core with live := f s.core.live } }

/-- The physical cluster of a core (R12). -/
def clusterOf (core : Nat) : Nat := core / 4

/-- The die of a core (R12). -/
def dieOf (core : Nat) : Nat := core / 96

/-- CYCLE after `n` steps: each step takes the clk that `Config.clk` gives it. -/
def cycleAfter : Nat → Nat
  | 0 => 0
  | n + 1 => cycleAfter n + Config.clk n

/-- The CYCLE control register (R135). -/
def State.cycle (s : State) : Word := BitVec.ofNat 64 (cycleAfter s.stepNo - cycleAfter s.resetStep)

/-- The launch's register counts on a core; the largest where no strand runs. -/
def Core.lim (c : Core) : Limits :=
  match c.job with
  | some j => j.lim
  | none => Limits.max

/-! ## Registers by logical number -/

/-- The physical scalar register of a logical number (R133, R168). -/
def Core.physS (c : Core) (r : Nat) : Nat :=
  if 32 ≤ r ∧ r < 32 + c.lim.rots then 32 + (r - 32 + c.live.rbs) % c.lim.rots else r

/-- The physical vector register of a logical number under rotation base `rb`. -/
def Limits.physV (l : Limits) (rb r : Nat) : Nat :=
  if 32 ≤ r ∧ r < 32 + l.rotv then 32 + (r - 32 + rb) % l.rotv else r

/-- The physical token register of a logical number. -/
def Core.physK (c : Core) (r : Nat) : Nat :=
  if 16 ≤ r ∧ r < 16 + c.lim.rotk then 16 + (r - 16 + c.live.rbk) % c.lim.rotk else r

/-- A scalar register; s0 reads zero (R132). -/
def State.getS (s : State) (r : Nat) : Word :=
  if r = 0 then 0 else s.core.live.s.getD (s.core.physS r) 0

/-- A scalar register written; a write to s0 is discarded (R132). -/
def State.setS (s : State) (r : Nat) (v : Word) : State :=
  if r = 0 then s else s.upRegs (fun g => { g with s := upd 0 g.s (s.core.physS r) v })

/-- The sticky flags ORed into FLAGS (R70, R72). -/
def State.orFlags (s : State) (f : BitVec 5) : State :=
  s.upRegs (fun g => { g with flags := g.flags ||| BitVec.zeroExtend 64 f })

/-- A token register; k0 always reads complete (R132). -/
def State.getK (s : State) (r : Nat) : Tok :=
  if r = 0 then Tok.reset else s.core.live.k.getD (s.core.physK r) Tok.reset

/-- A token register written by its physical number; k0 discards (R132). -/
def Regs.setTok (g : Regs) (p : Nat) (t : Tok) : Regs :=
  if p = 0 then g else { g with k := upd Tok.reset g.k p t }

/-- The status word of a logical token (R372). -/
def statusWord (knum : Nat) (t : Tok) (old : Bool) : Word :=
  BitVec.ofNat 64 ((if t.pend then 0 else t.detail.toNat * 2 ^ 24 + t.status.toNat * 2 ^ 16) +
    b2n old * 2 ^ 9 + b2n t.pend * 2 ^ 8 + knum)

/-- A stage predicate. -/
def State.getQ (s : State) (i : Nat) : Bool := s.core.live.q.getLsbD i

/-- A stage predicate written. -/
def State.setQ (s : State) (i : Nat) (b : Bool) : State :=
  s.upRegs (fun g => { g with
    q := (g.q &&& ~~~(1#8 <<< i)) ||| (if b then 1#8 <<< i else 0) })

/-- The program counter moved past an instruction of `n` words (R130). -/
def State.advance (s : State) (n : Nat) : State :=
  s.upCore (fun c => { c with pc := c.pc + BitVec.ofNat 48 (4 * n) })

/-- The program counter set. -/
def State.jump (s : State) (pc : Nat) : State := s.upCore (fun c => { c with pc := BitVec.ofNat 48 pc })

/-! ## Memory by place

Every byte of the package has one place: the physical address of HBM and BM (R291), and a place of the
model above 2^48 for a byte of a local memory or of a cluster pool (assumption 9). -/

/-- The place of a byte of a core's local memory. -/
def lmPlace (core off : Nat) : Nat := 2 ^ 48 + core * 2 ^ 21 + off

/-- The place of a byte of a cluster pool. -/
def cpPlace (cluster off : Nat) : Nat := 2 ^ 49 + cluster * 2 ^ 24 + off

/-- The cluster of a place of a pool. -/
def cpCluster (place : Nat) : Nat := (place - 2 ^ 49) / 2 ^ 24

/-- The first place of bank memory (R291). -/
def bmBase : Nat := 2 ^ 40

/-- Whether a place is in local memory. -/
def isLm (place : Nat) : Bool := 2 ^ 48 ≤ place && place < 2 ^ 49

/-- Whether a place is in bank memory. -/
def isBm (place : Nat) : Bool := bmBase ≤ place && place < 2 ^ 41

/-- A byte of memory; one that nothing has written reads zero (R22, R357, R455). -/
def memGet (m : List Host.Cell) (a : Nat) : Byte := (lookup m a).getD 0

/-- A byte of memory written; zero is what an unlisted byte reads as, so writing it unlists the byte. -/
def memSet (m : List Host.Cell) (a : Nat) (b : Byte) : List Host.Cell :=
  if b = 0 then eraseKey m a else insertKey m a b

/-- The canonical form of memory: addresses strictly rising, no listed byte zero. -/
def Memory.wf : List Host.Cell → Bool
  | [] => true
  | [(_, b)] => b != 0
  | (a, b) :: (a', b') :: l => b != 0 && decide (a < a') && Memory.wf ((a', b') :: l)

/-- `n` bytes from a place. -/
def memRead (m : List Host.Cell) (a n : Nat) : List Byte := (List.range n).map (fun i => memGet m (a + i))

/-- Bytes written from a place. -/
def memWrite : List Host.Cell → Nat → List Byte → List Host.Cell
  | m, _, [] => m
  | m, a, b :: l => memWrite (memSet m a b) (a + 1) l

/-- Bytes written from a place where the mask has a 1. -/
def memWriteMask : List Host.Cell → Nat → List (Byte × Bool) → List Host.Cell
  | m, _, [] => m
  | m, a, (b, w) :: l => memWriteMask (if w then memSet m a b else m) (a + 1) l

/-- Every byte of a range made zero. -/
def memZero (m : List Host.Cell) (a n : Nat) : List Host.Cell :=
  m.filter (fun c => decide (c.1 < a) || decide (a + n ≤ c.1))

/-- The 64-byte lines a range touches. -/
def linesOf (a n : Nat) : List Nat :=
  if n = 0 then [] else (List.range ((a + n - 1) / 64 + 1 - a / 64)).map (fun i => a / 64 + i)

/-- Whether a read of a line by the holder of key domain `dom` finds it poisoned: marked, beyond ECC, or written
under another key (R313); local memory carries no tag (R312). -/
def Mem.bad (m : Mem) (dom line : Nat) : Bool :=
  m.poison.contains line || m.faulty.contains line ||
    (!isLm (line * 64) &&
      match lookup m.domain line with
      | some d => d != dom
      | none => false)

/-- The line marked poisoned in place (R313, R314). -/
def Mem.mark (m : Mem) (line : Nat) : Mem := { m with poison := insertNum m.poison line }

/-- Whether `n` bytes from `a` cover the whole of a line. -/
def coversLine (a n line : Nat) : Bool := a ≤ line * 64 && line * 64 + 64 ≤ a + n

/-- Watchers that a write meets marked to be woken (R119). -/
def State.wakeBy (s : State) (hit : Watcher → Bool) : State :=
  if s.mem.watchers.isEmpty then s
  else { s with mem := { s.mem with watchers := s.mem.watchers.map (fun w => if hit w then { w with hit := true } else w) } }

/-- The records of strands that watch become READY (R117, R119). -/
def State.readyAll (s : State) (strands : List Nat) : State :=
  { s with work := { s.work with
      pool := s.work.pool.map (fun r =>
        if strands.contains r.strand ∧ r.state = .watching then { r with state := .ready, readyAt := s.stepNo }
        else r) } }

/-- Watchers that meet a condition leave the watch lists and their strands become READY (R119, R120); how many they
were. -/
def State.dropWatchers (s : State) (p : Watcher → Bool) : State × Nat :=
  let gone := s.mem.watchers.filter p
  (({ s with mem := { s.mem with watchers := s.mem.watchers.filter (fun w => !p w) } } : State).readyAll
    (gone.map (fun w => w.strand)), gone.length)

/-- Watchers of the words that a write of `n` bytes from `a` covers marked (R119). -/
def State.wake (s : State) (a n : Nat) : State :=
  if !isBm a then s else s.wakeBy (fun w => decide (w.word < a + n) && decide (a < w.word + 8))

/-- A context by its number. -/
def State.ctx? (s : State) (n : Nat) : Option Ctx := s.work.ctxs.find? (fun c => c.num == n)

/-- A little-endian field of a byte list. -/
def field (bs : List Byte) (off n : Nat) : Nat := leNat ((bs.drop off).take n)

/-- The partition that holds a function (R107), among VALID installed descriptors. -/
def State.partOf (s : State) (f : Nat) : Option Nat :=
  (List.range 32).find? (fun p =>
    bit (field s.part.iDescr (64 * p + 28) 1) 0 && bit (field s.part.iDescr (64 * p + 24) 4) f)

/-- Whether the connection matrices join two clusters: they belong to one VALID partition (R111). -/
def State.connects (s : State) (a b : Nat) : Bool :=
  a == b || (List.range 32).any (fun p => bit (field s.part.iDescr (64 * p + 28) 1) 0 &&
    bit (field s.part.iDescr (64 * p) 24) a && bit (field s.part.iDescr (64 * p) 24) b)

/-- PKEY of an installed partition (R107). -/
def State.partKey (s : State) (p : Nat) : Nat := field s.part.iDescr (64 * p + 30) 2

/-- The index of the extent of a line of HBM or BM, and its line in it (R310, R447). -/
def extentLine (line : Nat) : Nat × Nat :=
  let a := line * 64
  if a < bmBase then (a / 2 ^ 25, line % 2 ^ 19) else (32768 + (a - bmBase) / 2 ^ 25, line % 2 ^ 19)

/-- A tenant's rotation register. -/
def State.rotation (s : State) (t : Nat) : Rotation := (lookup s.sweep.rot t).getD ⟨0, 0, false, 0, 0, 0, 0, 0⟩

/-- A line lies below the mark of a rotation that runs (R447, R448). -/
def Rotation.passed (r : Rotation) (line : Nat) : Bool :=
  let (e, l) := extentLine line
  r.act && (decide (e < r.ext) || (e == r.ext && decide (l < r.line)))

/-- The number of the key under which a context's access to a line takes place (R90, R312): during a rotation
KEYMARK selects the new or the old key (R448); a share keeps the key it was bound with (R449). -/
def State.keyFor (s : State) (c : Ctx) (line : Nat) : Nat :=
  if 2 ^ 48 ≤ line * 64 then c.domain
  else if (s.rotation c.tenant).passed line then (s.rotation c.tenant).newKey
  else c.key

/-- The key of each line for the strand of the acting core. -/
def State.domain (s : State) (line : Nat) : Nat :=
  match s.core.job with
  | some j =>
    match s.ctx? j.ctx with
    | some c => s.keyFor c line
    | none => 0
  | none => 0

/-- Whether a byte of a place belongs to the strand of the acting core: it lies in its LM share, or in a line under
its key. -/
def State.ownPlace (s : State) (a : Nat) : Bool :=
  if isLm a then
    match s.core.job with
    | some j => decide (lmPlace s.coreId j.lmBase ≤ a ∧ a < lmPlace s.coreId (j.lmBase + j.lmBytes))
    | none => false
  else lookup s.mem.domain (a / 64) == some (s.domain (a / 64))

/-- Bytes the context has written, as its memory holds them (R11; assumption 3). -/
def State.ownBytes (s : State) : List Byte := (s.mem.cells.filter (fun c => s.ownPlace c.1)).map (fun c => c.2)

/-- A byte the spec leaves undefined (R11), and the state after drawing it: one of those given, which are its
earlier value and what was being written, or zero, or a byte that the same context wrote. -/
def State.drawByte (s : State) (given : List Byte) : Byte × State :=
  let l := given ++ s.ownBytes
  ((0 :: l).getD (Config.freePick s.drawn % (l.length + 1)) 0, { s with drawn := s.drawn + 1 })

/-- Undefined bytes drawn one by one, each with the bytes it may hold besides (R11). -/
def State.drawBytes : List (List Byte) → State → List Byte × State
  | [], s => ([], s)
  | g :: l, s =>
    let (b, s) := s.drawByte g
    let (r, s) := State.drawBytes l s
    (b :: r, s)

/-- Bytes of memory made undefined: each keeps its value or takes another that R11 allows. -/
def State.drawOver (s : State) (bs : List Byte) : List Byte × State := State.drawBytes (bs.map (fun b => [b])) s

/-- An extent's entry of the physical allocation table; one not listed is unowned and unscrubbed (R24). -/
def Xlat.extent (x : Xlat) (e : Nat) : Extent := (lookup x.extents e).getD ⟨0, 1⟩

/-- A line of an extent that is not clean, neither passed by the scrub, in its turn or out of it, nor written since: it
reads zeros and no check is made (R313, R455). -/
def State.unscrubbed (s : State) (line : Nat) : Bool :=
  let (e, k) := extentLine line
  decide (line * 64 < 2 ^ 41) && (s.xl.extent e).scrub != 0 && (lookup s.mem.domain line).isNone &&
    !(s.sweep.scrExt == some e && decide (k < s.sweep.scrLine)) && !s.sweep.early.contains line

/-- Whether an access to a line consumes poison (R313). -/
def State.bad (s : State) (dom : Nat → Nat) (line : Nat) : Bool := !s.unscrubbed line && s.mem.bad (dom line) line

/-- The first line of a granule in transit, if any, that a range of HBM touches (R439). -/
def State.transit? (s : State) (a n : Nat) : Option Nat :=
  if s.sweep.retiringNow && decide (a < bmBase) then (linesOf a n).find? (fun l => s.sweep.moving (l / 64)) else none

/-- What a write waits for before it may be performed: a granule in transit (R442), then the scrub of a line of HBM that
the sweep has yet to pass (R455, R456). The banks scrub a line of BM as they write it. -/
def State.writeWaits (s : State) (a n : Nat) : Option Stall :=
  match s.transit? a n with
  | some l => some (.transit l)
  | none => if a < bmBase then ((linesOf a n).find? s.unscrubbed).map .scrub else none

/-- A function's registers. -/
def State.fn (s : State) (f : Nat) : Fn := s.fns.getD f Fn.reset

/-- A function's registers changed. -/
def State.upFn (s : State) (f : Nat) (g : Fn → Fn) : State :=
  { s with fns := upd Fn.reset s.fns f (g (s.fn f)) }

/-- A profiling event counted for a function (R471): COUNT wraps modulo 2^48. -/
def Fn.count (f : Fn) (id n : Nat) : Fn :=
  let on (w : Word) : Bool := w.getLsbD 63 && !w.getLsbD 62 && w.toNat % 65536 == id
  { f with pmcnt := (List.range 8).map (fun i =>
      if on (f.pmevt.getD i 0) then f.pmcnt.getD i 0 + BitVec.ofNat 48 n else f.pmcnt.getD i 0) }

/-- A profiling event counted for the function of a core's strand. -/
def State.countFor (s : State) (j : Option Job) (id n : Nat) : State :=
  match j with
  | some j => s.upFn j.fn (fun f => f.count id n)
  | none => s

/-- A request for a line of a granule in transit counted once, as stalled or as refused (R442, R458), and for the
function whose strand makes it (R472). -/
def State.noteStall (s : State) (core who line : Nat) : State :=
  let w := s.sweep
  if w.stalls.contains (core, who, line) then s
  else
    let up (x : W32) : W32 := BitVec.ofNat 32 (satAdd 0xFFFFFFFF x.toNat 1)
    let w := { w with stalls := w.stalls ++ [(core, who, line)] }
    ({ s with sweep := if Config.locatedBefore s.stepNo line then { w with refused := up w.refused }
      else { w with stalled := up w.stalled } } : State).countFor (s.coreAt core).job 0x52 1

/-- A request waits for the memory: counted where it meets a granule in transit (R458), and the sweep engine asked for
the line where that has to be scrubbed first (R455). -/
def State.noteHeld (s : State) (core who : Nat) (w : Stall) : State :=
  match w with
  | .transit l => s.noteStall core who l
  | .scrub l => { s with sweep := { s.sweep with asked := insertNum s.sweep.asked l } }
  | _ => s

/-- The number under which requests of the acting core's sequencer are counted: that of its strand, apart from those of
commands. -/
def State.strandWho (s : State) : Nat := 2 ^ 64 + (s.core.job.map (fun j => j.strand)).getD 0

/-- A read at the point of order (R350): a poisoned line ends it, marked in place (R313). It stalls while its granule is
in transit (R442). -/
def State.ordRead (s : State) (dom : Nat → Nat) (a n : Nat) (info : Word) : Res (List Byte) :=
  match s.transit? a n with
  | some l => .error (.wait (.transit l), s)
  | none =>
    match (linesOf a n).find? (s.bad dom) with
    | some l => .error (.poison l info, { s with mem := s.mem.mark l })
    | none => .ok (memRead s.mem.cells a n)

/-- The lines of a write that take the writer's key: all it touches, but none of local memory. -/
def Mem.claim (m : Mem) (dom : Nat → Nat) (a n : Nat) : Mem :=
  { m with
    poison := m.poison.filter (fun l => !coversLine a n l)
    faulty := m.faulty.filter (fun l => !coversLine a n l)
    domain := if isLm a then m.domain else (linesOf a n).foldl (fun d l => insertKey d l (dom l)) m.domain }

/-- Lines of BM about to be written that the scrub has still to pass are scrubbed by their bank (R455). -/
def State.scrubFirst (s : State) (ls : List Nat) : Mem :=
  let p (l : Nat) : Bool := !(ls.contains l && s.unscrubbed l)
  { s.mem with poison := s.mem.poison.filter p, faulty := s.mem.faulty.filter p }

/-- A write at the point of order (R350): a whole line clears its poison mark, part of a poisoned line
needs the old line and consumes the poison (R314). It stalls while its granule is in transit (R442), and waits for the
scrub of a line that has still to be passed (R455). -/
def State.ordWrite (s : State) (dom : Nat → Nat) (a : Nat) (bs : List Byte) (info : Word) : Res State :=
  match s.writeWaits a bs.length with
  | some w => .error (.wait w, s)
  | none =>
    match (linesOf a bs.length).find? (fun l => !coversLine a bs.length l && s.bad dom l) with
    | some l => .error (.poison l info, { s with mem := s.mem.mark l })
    | none =>
      let m := (s.scrubFirst (linesOf a bs.length)).claim dom a bs.length
      .ok ({ s with mem := { m with cells := memWrite m.cells a bs } }.wake a bs.length)

/-- A byte-masked write of one line, wherever the line lies; watchers of the words it covers are marked (R119). -/
def State.maskNow (s : State) (dom : Nat → Nat) (line : Nat) (bs : List (Byte × Bool)) (info : Word) :
    Res State :=
  let whole := bs.all (fun p => p.2)
  if !whole && s.bad dom line then
    .error (.poison line info, { s with mem := s.mem.mark line })
  else
    let m := s.scrubFirst [line]
    let m := { m with
      poison := if whole then eraseNum m.poison line else m.poison
      faulty := if whole then eraseNum m.faulty line else m.faulty
      domain := insertKey m.domain line (dom line)
      cells := memWriteMask m.cells (line * 64) bs }
    let hit (w : Watcher) : Bool :=
      (List.range 64).any (fun i => (bs.getD i (0, false)).2 && (line * 64 + i) / 8 == w.word / 8)
    .ok (if isBm (line * 64) then { s with mem := m }.wakeBy hit else { s with mem := m })

/-- A byte-masked write of one line (R320), once it waits for nothing (R442, R455). -/
def State.ordWriteMask (s : State) (dom : Nat → Nat) (line : Nat) (bs : List (Byte × Bool)) (info : Word) : Res State :=
  match s.writeWaits (line * 64) 64 with
  | some w => .error (.wait w, s)
  | none => s.maskNow dom line bs info

/-- The bytes of a line with the mask that selects them. -/
def LineBuf.masked (l : LineBuf) (mask : BitVec 64) : List (Byte × Bool) :=
  (List.range 64).map (fun i => (l.data.getD i 0, mask.getLsbD i))

/-! ## The second stage of translation (R294 to R303) -/

/-- S(z): the bits of an offset in a page of size code z (R294). -/
def pageBits : Nat → Nat
  | 0 => 16
  | 1 => 21
  | 2 => 29
  | _ => 35

/-- The bucket of a probe (R295). -/
def bucketOf (t z ta : Nat) : Nat :=
  (mix (BitVec.ofNat 64 (t * 2 ^ 56) ^^^ BitVec.ofNat 64 (z * 2 ^ 52) ^^^
    BitVec.ofNat 64 (ta / 2 ^ pageBits z))).toNat % 2 ^ 20

/-- The end of a chain (R294). -/
def linkEnd : Nat := 0x1FFFFFF

/-- An entry that nothing has written: it maps nothing (R303, R489). -/
def IptEntry.empty : IptEntry := ⟨0, 0, false, false, 0, 0, 0x1FFFFFF#25⟩

/-- The entry of a frame. -/
def Xlat.entry (x : Xlat) (f : Nat) : IptEntry := (lookup x.entries f).getD IptEntry.empty

/-- The first frame of a bucket's chain. -/
def Xlat.anchor (x : Xlat) (b : Nat) : Nat := (lookup x.anchors b).getD 0xFFFFFFFF

/-- The identifier's state; one never used is FREE, and 0x00 and 0xFF are reserved (R301). -/
def Xlat.tid (x : Xlat) (t : Nat) : Tid :=
  (lookup x.tids t).getD ⟨if t = 0 ∨ t = 255 then .reserved else .free, 0, 0, 0, true, 0⟩

/-- The line of walk space that holds a frame's entry (R294): 2^21 lines a slice. -/
def entryLine (f : Nat) : Nat := f % 16 * 2 ^ 21 + (2 ^ 20 + f / 16 * 16) / 64

/-- The line of walk space that holds a bucket's anchor (R295). -/
def anchorLine (b : Nat) : Nat := b % 16 * 2 ^ 21 + b / 16 * 4 / 64

/-- What a walk or a whole translation gives. A miss carries its reason (R416); 6 is CHAIN from a poisoned line of
walk space (R444), and 8 is no miss: the walk unit has no slot of its class, and the walk waits (R16). -/
inductive Found where
  | at (frame : Nat) (size : Nat) (rights : BitVec 4) (lock : Bool)
  | miss (reason : Nat)
deriving DecidableEq, Repr

/-- The kind of a frame: 2 BM, 3 HBM (R291). -/
def kindOfFrame (f : Nat) : Nat := if 2 ^ 24 ≤ f then 2 else 3

/-- One chain walked, at most 64 entries (R297), to the first line that is poisoned (R444). `none`: the chain ended
without a match. -/
def walkChain (x : Xlat) (t z ta kind b : Nat) : Nat → Nat → Option Found
  | fuel, f =>
    if f = linkEnd ∨ f = 0xFFFFFFFF then none
    else if f % 16 ≠ b % 16 then some (.miss 1)
    else if fuel ≠ 0 ∧ x.walkBad.contains (entryLine f) = true then some (.miss 6)
    else
      match fuel with
      | 0 => some (.miss 2)
      | fuel + 1 =>
        let e := x.entry f
        if e.valid ∧ e.tenant.toNat = t ∧ e.size.toNat = z ∧
            e.vpn.toNat = (ta / 2 ^ pageBits z) * 2 ^ (pageBits z - 16) % 2 ^ 32 then
          if kindOfFrame f ≠ kind then some (.miss 3) else some (.at f z e.rights e.lock)
        else walkChain x t z ta kind b fuel e.link.toNat

/-- The probes of a walk, from the largest size marked in the hint downwards (R297); `up` tells the slices whose walk
unit reaches its walk space. -/
def walkSizes (up : Nat → Bool) (x : Xlat) (t ta kind : Nat) : List Nat → Found
  | [] => .miss 0
  | z :: l =>
    if (x.tid t).hint.getLsbD z then
      if up (bucketOf t z ta % 16) = false then .miss 8
      else if x.walkBad.contains (anchorLine (bucketOf t z ta)) then .miss 6
      else
      match walkChain x t z ta kind (bucketOf t z ta) 64 (x.anchor (bucketOf t z ta)) with
      | some r => r
      | none => walkSizes up x t ta kind l
    else walkSizes up x t ta kind l

/-- The walk unit that serves a slice draws on its stack's channels only through walk-class slots (R16, R305): some
installed calendar of its stack gives it one. -/
def State.walksSlice (s : State) (slice : Nat) : Bool :=
  s.cal.installed.any (fun p => p.1 / 64 == s.xl.whome.getD slice 16 && (p.2.take 256).any (fun b => b.toNat == 0xC2))

/-- The walk units' answer (R297). -/
def State.walk (s : State) (t ta kind : Nat) : Found := walkSizes s.walksSlice s.xl t ta kind [3, 2, 1, 0]

/-- A leaf a cache holds for this address (R299). -/
def Xlat.cached (x : Xlat) (u t ta : Nat) : Option XlEntry :=
  x.cache.find? (fun e => e.unit_ == u && e.tenant == t && e.epoch == (x.tid t).epoch &&
    e.vpn == ta / 2 ^ pageBits e.size)

/-- The entries a unit's cache holds at most: 2048 for a cluster, 512 for a die (R299). -/
def cacheSize (u : Nat) : Nat := if u < 192 then 2048 else 512

/-- The first `k` entries of unit `u` and every entry of other units. -/
def trimUnit (u : Nat) : Nat → List XlEntry → List XlEntry
  | _, [] => []
  | k, e :: l =>
    if e.unit_ = u then
      match k with
      | 0 => trimUnit u 0 l
      | k + 1 => e :: trimUnit u k l
    else e :: trimUnit u k l

/-- A leaf entered into a unit's cache. -/
def Xlat.install (x : Xlat) (e : XlEntry) : Xlat :=
  { x with cache := trimUnit e.unit_ (cacheSize e.unit_) (e :: x.cache.filter (fun y => y != e)) }

/-- Translation on behalf of a cluster: its own cache, its die's walk cache, then the walk (R297, R299). -/
def State.find (s : State) (cluster t ta kind : Nat) : Found × Xlat :=
  let x := s.xl
  let d := 192 + cluster / 24
  let ofEntry (e : XlEntry) : Found := if e.kind ≠ kind then .miss 3 else .at e.frame e.size e.rights e.lock
  match x.cached cluster t ta with
  | some e => (ofEntry e, x)
  | none =>
    match x.cached d t ta with
    | some e => (ofEntry e, x.install { e with unit_ := cluster })
    | none =>
      match s.walk t ta kind with
      | .at f z r lock =>
        let e : XlEntry := ⟨cluster, t, (x.tid t).epoch, z, ta / 2 ^ pageBits z, f, kind, r, lock⟩
        (.at f z r lock, (x.install { e with unit_ := d }).install e)
      | r => (r, x)

/-- Rights of a page needed by an access (R294): RD 1, W 2, X 4, AT 8. -/
abbrev PageNeed := BitVec 4

/-- The physical address of a tenant address in a page. -/
def pagePlace (f z ta : Nat) : Nat := f * 65536 + ta % 2 ^ pageBits z

/-- The cause with which a page refuses an access (R291, R294): its rights, or CAPACITY. -/
def pageFault (cap kind f z ta : Nat) (r : BitVec 4) (need : PageNeed) : Option Nat :=
  if need &&& ~~~r ≠ 0 then some 3 else if kind = 3 ∧ cap ≤ pagePlace f z ta then some 8 else none

/-- Whether some rack port is OPEN: no data flit crosses another (R392). -/
def Links.anyOpen (l : Links) : Bool := l.ports.any (fun p => p.state == .open_)

/-- A request of another package is being carried out, under the stand-in strand of launch 0: every page it
touches must be locked (R293). -/
def State.servesRemote (s : State) : Bool :=
  match s.core.job with
  | some j => j.launch == 0
  | none => false

/-- A tenant address translated for the acting core (R297): the physical address; or a miss, HANDLE_RIGHTS,
BEYOND_CAPACITY (R291), or REMOTE_UNPINNED for another package (R293). It waits for a walk unit that has no slot
(R16). -/
def State.translate (s : State) (t ta kind : Nat) (need : PageNeed) (info : Word) : Res (Nat × State) :=
  match s.find (clusterOf s.coreId) t ta kind with
  | (.at f z r lock, x) =>
    if s.servesRemote && !lock then .error (.trap 0xC info, { s with xl := x })
    else
      match pageFault s.xl.capacity kind f z ta r need with
      | some c => .error (.trap c info, { s with xl := x })
      | none => .ok (pagePlace f z ta, { s with xl := x })
  | (.miss why, x) =>
    .error (if why = 8 then .wait .walk else .miss ⟨ta, t, kind == 2, need, why, info⟩, { s with xl := x })

end Sys2Proof.Machine
end

