-- ==== Sys2Proof/Machine/Teardown.lean ====
section
/-! DEFINITION. The end of strands, launches and contexts (24, 21 R453): shared operations that trap
entry, EXIT, HALT, the mailboxes and the platform's acts all use. -/

namespace Sys2Proof.Machine

/-- A core without a strand: everything of the strand gone; instruction cache, command logs and counters of
the model kept. -/
def Core.idle (c : Core) : Core := { Core.reset with icache := c.icache, prod := c.prod, cmdLog := c.cmdLog }

/-- A launch by its number. -/
def State.launch? (s : State) (n : Nat) : Option Launch := s.work.launches.find? (fun l => l.num == n)

/-- A launch of a context. -/
def State.launchOf (s : State) (ctx n : Nat) : Bool := s.work.launches.any (fun l => l.num == n && l.ctx == ctx)

/-- A launch changed. -/
def State.upLaunch (s : State) (n : Nat) (f : Launch → Launch) : State :=
  { s with work := { s.work with
      launches := s.work.launches.map (fun l => if l.num = n then f l else l) } }

/-- A response written and the command finished (R31, R32). -/
def Mailbox.respond (m : Mailbox) (status : Nat) (bs : List Byte) : Mailbox :=
  { m with
    buf := bs ++ m.buf.drop bs.length
    rlen := BitVec.ofNat 13 bs.length
    status := BitVec.ofNat 8 status
    done := true
    busy := false
    pending := none }

/-- A response in the mailbox of a function. -/
def State.respond (s : State) (f status : Nat) (bs : List Byte) : State :=
  s.upFn f (fun n => { n with mbox := n.mbox.respond status bs })

/-- Records of a function's ended contexts written or given up: the response to CTX_END follows the last (R479). -/
def State.recordsLeft (s : State) (f left : Nat) : State :=
  let was := (s.fn f).endLeft
  let s := s.upFn f (fun n => { n with endLeft := left })
  if was ≠ 0 ∧ left = 0 then s.respond f 0 [] else s

/-- A record of the trust core's error log. -/
def State.logRec (s : State) (k : LogKind) (a b c : Nat) : State :=
  { s with trust := { s.trust with log := s.trust.log ++ [⟨k, a, b, c⟩] } }

/-- The first of the given addresses of a tenant that gives no page, where a line of walk space was poisoned: the error is
logged (R444). -/
def State.logWalks (s : State) (t kind : Nat) (tas : List Nat) : State :=
  match tas.find? (fun ta => match s.walk t ta kind with
    | .at _ _ _ _ => false
    | .miss _ => true) with
  | some ta => if s.walk t ta kind = .miss 6 then s.logRec .walkPoison t ta s.cycle.toNat else s
  | none => s

/-- An MSI-X vector of a function raised (R396). -/
def State.raise (s : State) (f vector : Nat) : State :=
  s.upFn f (fun n => { n with msix := n.msix ++ [vector] })

/-- The number of strands of a launch: the product of its extents (R93). -/
def Header.strands (h : Header) : Nat := (h.ext.take h.nf).foldl (· * ·) 1

/-- The strands of one core group, and of one cluster group (R94). -/
def Header.perCore (h : Header) : Nat := ((h.ext.take h.nf).drop h.kl).foldl (· * ·) 1

/-- The strands of one cluster group (R94). -/
def Header.perCluster (h : Header) : Nat := ((h.ext.take h.nf).drop h.cl).foldl (· * ·) 1

/-- The number of cluster groups of a launch. -/
def Header.groups (h : Header) : Nat := (h.ext.take h.cl).foldl (· * ·) 1

/-- The bytes of a completion record but for ENDCLK and V, which are set when it is written (R476). -/
def recordBytes (ctag : Word) (status : Nat) (dev replay : Bool) (node detail workid exits depth : Nat) :
    List Byte :=
  leBytes 8 ctag.toNat ++ leBytes 1 status ++ leBytes 1 (b2n dev + 2 * b2n replay) ++ leBytes 2 node ++
    leBytes 4 detail ++ leBytes 8 workid ++ leBytes 4 0 ++ leBytes 2 (min exits 0xFFFF) ++ leBytes 1 depth ++
    leBytes 1 0

/-- A completion record handed to a function's ring: kept only while the function is in RUN (R477). -/
def State.complete (s : State) (f : Nat) (r : List Byte) : State :=
  if (s.fn f).tdisp = .run then s.upFn f (fun n => { n with waiting := n.waiting ++ [r] }) else s

/-- STATUS, DETAIL and WORKID of a launch that ended (R475). -/
def Launch.ending (l : Launch) : Nat × Nat × Nat :=
  match l.status with
  | some x => x
  | none =>
    match l.bad with
    | some (w, st) => (st, 0, w)
    | none => (0, 0, 0)

/-- The completion record of a launch (R476). -/
def Launch.record (l : Launch) : List Byte :=
  let (st, d, w) := l.ending
  recordBytes l.hdr.ctag st l.device false l.hdr.node d w l.exits l.depth

/-- The bytes of a range made zero, with its poison marks: a share freed or bound (R112, R453). -/
def Mem.wipe (m : Mem) (a n : Nat) : Mem :=
  { m with
    cells := memZero m.cells a n
    poison := m.poison.filter (fun l => decide (l * 64 < a) || decide (a + n ≤ l * 64))
    faulty := m.faulty.filter (fun l => decide (l * 64 < a) || decide (a + n ≤ l * 64))
    domain := m.domain.filter (fun p => decide (p.1 * 64 < a) || decide (a + n ≤ p.1 * 64)) }

/-- LM shares that meet a condition zeroed and freed. -/
def State.freeShares (s : State) (p : Share → Bool) : State :=
  let m := (s.work.shares.filter p).foldl (fun m h => m.wipe (lmPlace h.core h.off) h.len) s.mem
  { s with mem := m, work := { s.work with shares := s.work.shares.filter (fun h => !p h) } }

/-- CP shares that meet a condition zeroed and freed. -/
def State.freeCps (s : State) (p : CpShare → Bool) : State :=
  let m := (s.work.cps.filter p).foldl (fun m h => m.wipe (cpPlace h.cluster h.off) h.len) s.mem
  { s with mem := m, work := { s.work with cps := s.work.cps.filter (fun h => !p h) } }

/-- A counter of an association list lowered by one. -/
def countDown (l : List (Nat × Nat)) (k : Nat) : List (Nat × Nat) := insertKey l k ((lookup l k).getD 0 - 1)

/-- A strand's end entered into its launch: the lowest WORKID with a status other than OK decides (R475); of two
strands with that WORKID, the lower status (log 103). -/
def Launch.strandEnds (l : Launch) (j : Job) (status : Nat) : Launch :=
  { l with
    live := l.live - 1
    exited := insertNum l.exited j.strand
    groupLeft := countDown l.groupLeft j.group
    coreLeft := match j.coreGroup with
      | some g => countDown l.coreLeft g
      | none => l.coreLeft
    bad := if status = 0 then l.bad
      else match l.bad with
        | some (w, st) =>
          if j.workid.toNat < w ∨ (j.workid.toNat = w ∧ status < st) then some (j.workid.toNat, status) else some (w, st)
        | none => some (j.workid.toNat, status)
    exits := if status = 0 then l.exits else l.exits + 1 }

/-- Whether every strand of a launch has been generated and has ended (R475). -/
def Launch.finished (l : Launch) : Bool := l.generated == l.hdr.strands && l.live == 0

/-- Whether core `c` runs a strand of a launch that meets a condition. -/
def Core.runs (c : Core) (p : Job → Bool) : Bool :=
  match c.job with
  | some j => p j
  | none => false

/-- A gang none of whose strands runs, its saves written, competes again (R114). -/
def State.gangSaved (s : State) (l : Nat) : State :=
  match s.launch? l with
  | none => s
  | some x =>
    if x.hdr.mode ≠ 0 ∧ x.state = .running ∧ ¬ (s.core :: s.parked.map (fun p => p.2)).any (fun k => k.runs (fun j => j.launch == l)) = true then
      s.upLaunch l (fun x => { x with state := .reserving, readyAt := s.stepNo, reserved := [] })
    else s

/-- A strand of a gang that SPAWN made (R121): it has no core of its own among those the gang holds. -/
def Launch.isSpawned (l : Launch) (r : Rec) : Bool := l.hdr.mode != 0 && l.spawned.contains r.strand

/-- A saved strand of a gang, that is restored with the others (R114). -/
def State.gangHasSave (s : State) (l : Launch) : Bool :=
  l.hdr.mode != 0 && s.work.pool.any (fun r => r.launch == l.num && r.save.isSome && !l.isSpawned r)

/-- A strand has left its core: where a pre-emption of its gang has saved others, the last to leave ends that (R114). -/
def State.gangLeft (s : State) (l : Nat) : State :=
  match s.launch? l with
  | some x => if s.gangHasSave x then s.gangSaved l else s
  | none => s

/-- The strand of the acting core ends with a status (R474): its shares are freed as R112 and R116 give, and
the launch comes to its end after its last strand. -/
def State.endStrand (s : State) (status : Nat) : State :=
  match s.core.job with
  | none => s.upCore Core.idle
  | some j =>
    let s := (s.upCore Core.idle).upLaunch j.launch (fun l => { l.strandEnds j status with arrivedAt := s.cycle.toNat })
    match s.launch? j.launch with
    | none => s
    | some l =>
      let s :=
        if l.hdr.mode = 1 then s
        else
          let s := s.freeShares (fun h => h.launch == j.launch && h.alone == some j.strand)
          let s := match j.coreGroup with
            | some g =>
              if (lookup l.coreLeft g).getD 0 = 0 then
                s.freeShares (fun h => h.launch == l.num && h.coreGroup == some g && h.alone.isNone)
              else s
            | none => s
          if (lookup l.groupLeft j.group).getD 0 = 0 then
            s.freeCps (fun h => h.launch == l.num && h.group == j.group)
          else s
      if l.finished then s.upLaunch l.num (fun l => { l with state := .ending }) else s.gangLeft l.num

/-- The dirty bytes of a line buffer written back with no strand behind them: when the strand is stopped (R486,
step 4), or before an invalidation is over (R300), once none of them waits for the memory. Part of a poisoned line is not
written, and the consumption is logged (R314, R432). -/
def State.writeBackLoose (s : State) (dom : Nat → Nat) (core : Nat) : List LineBuf → State
  | [] => s
  | l :: ls =>
    let t :=
      if l.dirty = 0 then s
      else
        match s.maskNow dom l.line (l.masked l.dirty) 0 with
        | .ok s => s
        | .error (_, s) => s.logRec .consumed (l.line * 64) core 0
    t.writeBackLoose dom core ls

/-- The keys under which a core's strand accesses lines. -/
def State.domainOf (s : State) (c : Core) (line : Nat) : Nat :=
  match c.job with
  | some j => ((s.ctx? j.ctx).map (fun x => s.keyFor x line)).getD 0
  | none => 0

/-- The line buffers of the cores that meet a condition written back so. -/
def State.writeBackCores (s : State) (p : Core → Bool) : State :=
  ((s.coreId :: s.parked.map (fun x => x.1)).filter (fun n => p (s.coreAt n))).foldl
    (fun s n => s.writeBackLoose (s.domainOf (s.coreAt n)) n (s.coreAt n).lines) s

/-- The dirty lines of the cores that meet a condition whose write-back waits for the memory (R442, R455): core and
wait. -/
def State.looseWaits (s : State) (p : Core → Bool) : List (Nat × Stall) :=
  ((s.coreId :: s.parked.map (fun x => x.1)).filter (fun n => p (s.coreAt n))).flatMap (fun n =>
    ((s.coreAt n).lines.filter (fun l => l.dirty != 0)).filterMap (fun l =>
      (s.writeWaits (l.line * 64) 64).map (fun w => (n, w))))

/-- `f` once no such write-back waits; until then each is counted and asked for (R455, R458). -/
def State.onceLoose (s : State) (p : Core → Bool) (f : State → State) : State :=
  match s.looseWaits p with
  | [] => f s
  | l => l.foldl (fun s x => s.noteHeld x.1 (2 ^ 32) x.2) s

/-- Every strand of the given launches stopped, running or saved (R486), and the arrivals its commands still owe
dropped. `back`: the context survives, so dirty lines are written back. -/
def State.stopStrands (s : State) (p : Nat → Bool) (back : Bool) : State :=
  let hit (c : Core) : Bool := c.runs (fun j => p j.launch)
  let s := if back then s.writeBackCores hit else s
  let s := s.onCores (fun c => if hit c then c.idle else c)
  let gone := (s.work.pool.filter (fun r => p r.launch)).map (fun r => r.strand)
  { s with
    work := { s.work with pool := s.work.pool.filter (fun r => !p r.launch) }
    steals := s.steals.filter (fun t => !p t.launch)
    links := { s.links with arrivals := s.links.arrivals.filter (fun a => !p a.2.2) }
    mem := { s.mem with watchers := s.mem.watchers.filter (fun w => !gone.contains w.strand) } }

/-- What launches that meet a condition hold is freed (R478, step 1). -/
def State.freeLaunch (s : State) (p : Nat → Bool) : State :=
  let s := (s.freeShares (fun h => p h.launch)).freeCps (fun h => p h.launch)
  { s with work := { s.work with images := s.work.images.filter (fun i =>
      !(i.lm.any (fun h => p h.launch) || i.cp.any (fun h => p h.launch))) } }

/-- Every cached translation of a tenant dropped (R300, R453). -/
def Xlat.dropTenant (x : Xlat) (t : Nat) : Xlat :=
  { x with cache := x.cache.filter (fun e => e.tenant != t) }

/-- The index of an extent among all: HBM first, then BM (R310, R454). -/
def extents : Nat := 33280

/-- The next extent that is not clean, from `e` on, `n` of them looked at. -/
def Xlat.dirtyFrom (x : Xlat) : Nat → Nat → Option Nat
  | 0, _ => none
  | n + 1, e => if (x.extent e).scrub ≠ 0 then some e else x.dirtyFrom n (e + 1)

/-- The first place of an extent. -/
def extentPlace (e : Nat) : Nat := if e < 32768 then e * 2 ^ 25 else bmBase + (e - 32768) * 2 ^ 25

/-- The scrub's mark at an extent, which is scrubbing from now on (R435, R454). -/
def State.scrubAt (s : State) (e : Nat) : State :=
  { s with
    xl := { s.xl with extents := insertKey s.xl.extents e { s.xl.extent e with scrub := 2 } }
    sweep := { s.sweep with scrExt := some e, scrLine := 0 } }

/-- The scrub sweep starts, at the lowest extent that is not clean, unless it runs or there is none (R435, R454). -/
def State.startScrubSweep (s : State) : State :=
  if s.sweep.scrNum.toNat % 2 = 1 then s
  else
    match s.xl.dirtyFrom extents 0 with
    | some e => ({ s with sweep := { s.sweep with scrNum := s.sweep.scrNum + 1 } } : State).scrubAt e
    | none => s

/-- An identifier's memory is released: nothing cached, no extent, no VALID entry (R301). -/
def Xlat.released (x : Xlat) (t : Nat) : Bool :=
  (x.tid t).swept && x.cache.all (fun e => e.tenant != t) && x.extents.all (fun p => p.2.owner.toNat != t) &&
    x.entries.all (fun p => !(p.2.valid && p.2.tenant.toNat == t))

/-- Every RETIRING identifier whose memory is released becomes FREE (R301). -/
def State.settleTids (s : State) : State :=
  { s with xl := { s.xl with tids := s.xl.tids.map (fun p =>
      if p.2.state = .retiring ∧ s.xl.released p.1 = true then
        (p.1, { p.2 with state := .free, freedAt := s.stepNo })
      else p) } }

/-- A key rotation abandoned raises vector 2 as its end does (R436, R456). -/
def State.rotationGone (s : State) (t : Nat) : State := if (s.rotation t).act then s.raise 32 2 else s

/-- The extents of a tenant become unscrubbed (R453, step 5): from now on every line of them reads as zeros (R455), so that
what they hold is gone; the one that the scrub stands in is passed from its first line again. -/
def State.soilExtents (s : State) (t : Nat) : State :=
  let owned (e : Nat) : Bool := (s.xl.extent e).owner.toNat == t
  let es := (s.xl.extents.filter (fun p => p.2.owner.toNat == t)).map (fun p => p.1)
  let w := s.sweep
  { s with
    mem := es.foldl (fun m e => m.wipe (extentPlace e) (2 ^ 25)) s.mem
    xl := { s.xl with extents := s.xl.extents.map (fun p =>
      if p.2.owner.toNat = t then (p.1, { p.2 with scrub := if w.scrExt = some p.1 then 2 else 1 }) else p) }
    sweep := { w with
      scrLine := if w.scrExt.any owned then 0 else w.scrLine
      early := w.early.filter (fun l => !owned (extentLine l).1) } }

/-- The scrub of a context starts (R453, steps 1, 4 and 5): keys destroyed, the identifier RETIRING, its
cached translations dropped, its extents unscrubbed. -/
def State.startScrub (s : State) (c : Ctx) : State :=
  let t := c.tenant
  let rot := s.rotation t
  let keys := s.trust.keys.map (fun k => if k = some c.key ∨ (rot.act = true ∧ k = some rot.newKey) then none else k)
  let tid := s.xl.tid t
  let s : State := { s with
    trust := { s.trust with keys := keys }
    sweep := { s.sweep with
      rot := if rot.act then insertKey s.sweep.rot t { rot with act := false, num := rot.num + 1 } else s.sweep.rot }
    xl := { (s.xl.dropTenant t) with tids := insertKey s.xl.tids t { tid with state := .retiring, swept := true } } }
  (s.soilExtents t).startScrubSweep

/-- The node whose status ends a replay that its context's end cuts short: the one that failed before, else the
first in flight (R105, R476). -/
def Replay.cutAt (r : Replay) (status : Nat) : Nat × Nat :=
  r.status.getD (status, (r.submitted.find? (fun j => !r.done.contains j)).getD 0xFFFF)

/-- The record of a queue entry that its context's end completes (R476, R479): CTAG and NODE of its header where R97
or R105 has read that, while it waited for a page or for room. -/
def Queued.cutRecord (q : Queued) (status cause : Nat) : List Byte :=
  let (ctag, node) := match q.held.or q.seen, q.root with
    | some l, _ => (l.hdr.ctag, l.hdr.node)
    | none, some h => (h.ctag, 0xFFFF)
    | none, none => (0, 0xFFFF)
  recordBytes ctag status q.device (q.kind == 1) node cause 0 0 q.depth

/-- The end of a context (R453, R479): `status` 0x51 at CTX_END and 0x50 at a loss, `cause` the loss cause. Its
queue entries, in whichever function's queue (log 103), its launches and then its replays complete. Its notice leaves
through the ports that are OPEN (R392, R395). -/
def State.endContext (s : State) (num status cause : Nat) : State :=
  match s.ctx? num with
  | none => s
  | some c =>
    let mine : List (Nat × Queued) := s.work.queues.flatMap (fun (x : Nat × List Queued) => (x.2.filter (fun q => q.ctx == num)).map (fun q => (x.1, q)))
    let s := mine.foldl (fun (s : State) (x : Nat × Queued) => s.complete x.1 (x.2.cutRecord status cause)) s
    let ls := s.work.launches.filter (fun l => l.ctx == num && l.state != .done) ++
      (s.work.finishing.filter (fun l => l.1.ctx == num)).map (fun l => l.1)
    let p (n : Nat) : Bool := ls.any (fun l => l.num == n)
    let s := (s.stopStrands p false).freeLaunch p
    let s := ls.foldl (fun s l =>
      s.complete c.fn ({ l with status := some (status, cause, 0) } : Launch).record) s
    let s := (s.replays.filter (fun r => r.ctx == num)).foldl (fun s r =>
      let (st, node) := r.cutAt status
      s.complete c.fn (recordBytes r.root.ctag st false true node 0 0 0 r.depth)) s
    let s := { s with
      work := { s.work with
        queues := s.work.queues.map (fun (x : Nat × List Queued) => (x.1, x.2.filter (fun q => q.ctx != num)))
        launches := s.work.launches.filter (fun l => l.ctx != num)
        finishing := s.work.finishing.filter (fun l => l.1.ctx != num)
        ctxs := s.work.ctxs.filter (fun x => x.num != num) }
      replays := s.replays.filter (fun r => r.ctx != num)
      links := { s.links with
        notices := s.links.notices ++ (if s.links.anyOpen then
          ((s.partOf c.fn).map (fun p => (Config.ownPackage.toNat, s.partKey p))).toList else [])
        reqs := s.links.reqs.filter (fun r => r.ctx != num)
        adds := s.links.adds.filter (fun x => x.2.2.1 != num) } }
    ((s.rotationGone c.tenant).startScrub c).settleTids

/-- A context declared lost with a cause (R38, R423, R431 to R434): logged, and ended as R479 gives. -/
def State.loseContext (s : State) (num cause : Nat) : State :=
  (s.logRec .contextLost num cause 0).endContext num 0x50 cause

/-- The context of the acting core's strand declared lost. -/
def State.loseOwn (s : State) (cause : Nat) : State :=
  match s.core.job with
  | some j => s.loseContext j.ctx cause
  | none => s.upCore Core.idle

end Sys2Proof.Machine
end

