-- ==== Sys2Proof/Machine/Ops.lean ====
section
/-! DEFINITION. The named operations of the sequencer over memory and registers: handles and their check,
the scalar line buffer and the region store buffer, regions and roll-back, page requests, containment,
taking a trap and returning from one. -/

namespace Sys2Proof.Machine

/-! ## Handles (R75, R82, R85) -/

/-- What an access needs of a handle's RIGHTS (R75, R467). -/
inductive Right where
  | none
  | rd
  | w
  | x
  | at
  /-- a remote-put destination -/
  | mcw
  /-- a remote-put destination with the arrival bit (R338) -/
  | mcwat
  /-- a range updated at the bank (R339) -/
  | wat
  | cwx
  | rdx
deriving DecidableEq, Repr

/-- The right to write a range (R75): CW where the range carries X, else W. -/
def writable (r : BitVec 16) : Bool := if r.getLsbD 2 then r.getLsbD 3 else r.getLsbD 1

/-- HasRights (R75): bit 0 RD, 1 W, 2 X, 3 CW, 4 AT, 5 RM, 6 MC. -/
def rightsOk (r : BitVec 16) (loc : Bool) (need : Right) : Bool :=
  (loc || r.getLsbD 5) &&
    match need with
    | .none => true
    | .rd => r.getLsbD 0
    | .w => writable r
    | .x => r.getLsbD 2
    | .at => r.getLsbD 4
    | .mcw => r.getLsbD 6 && r.getLsbD 1 && writable r
    | .mcwat => r.getLsbD 6 && r.getLsbD 1 && writable r && r.getLsbD 4
    | .wat => writable r && r.getLsbD 4
    | .cwx => r.getLsbD 3 && r.getLsbD 2
    | .rdx => r.getLsbD 0 && r.getLsbD 2

/-- The page rights an access needs besides (R294, R297). -/
def Right.page : Right → PageNeed
  | .none => 0
  | .rd => 1
  | .w => 2
  | .x => 4
  | .at => 8
  | .mcw => 2
  | .mcwat => 10
  | .wat => 10
  | .cwx => 2
  | .rdx => 1

/-- GUARD of an unguarded handle (R73). -/
def unguarded : Nat := 0xFFFFFFFFFFFFFFFF

/-- TRAPINFO of a fault of an access: offset within the view, operand word, handle register (R422). -/
def accessInfo (off opw hreg : Nat) : Word := BitVec.ofNat 64 (off % 2 ^ 48 * 2 ^ 16 + opw % 16 * 2 ^ 8 + hreg % 16)

/-- The records of h0 and h1 that the hardware builds (R82). -/
def State.ownView (s : State) (h opw : Nat) : View :=
  let j := s.core.job
  let len := match j with
    | some j => if h = 0 then j.lmBytes else j.cpBytes
    | none => 0
  let base := match j with
    | some j => if h = 0 then lmPlace s.coreId j.lmBase else cpPlace j.cpCluster j.cpBase
    | none => lmPlace s.coreId 0
  ⟨h, true, 0, base, 0, len, 0x13, none, unguarded, none, h, opw⟩

/-- A parameter record read from its 32 bytes (R79). -/
def Param.read (bs : List Byte) : Param where
  rnd := bits (field bs 0 1) 6 4
  tag := bits (field bs 0 1) 3 0
  cmp := bit (field bs 1 1) 2
  bsp := bit (field bs 1 1) 1
  bs := bit (field bs 1 1) 0
  d := (List.range 4).map (fun i => field bs (2 + 2 * i) 2)
  s := (List.range 4).map (fun i => field bs (10 + 4 * i) 4)
  clamp := BitVec.ofNat 32 (field bs 26 4)
  aux := field bs 30 2

/-- The reserved bits of a parameter record are zero (R79). -/
def paramReserved (bs : List Byte) : Bool := !bit (field bs 0 1) 7 && bits (field bs 1 1) 7 3 == 0

/-- Extent and stride of a dimension. -/
def Param.dim (p : Param) (i : Nat) : Nat := p.d.getD i 1
def Param.stride (p : Param) (i : Nat) : Nat := p.s.getD i 0

/-- The bytes a line of dimension 0 occupies. -/
def Param.lineBytes (p : Param) : Nat :=
  if memBits p.tag < 8 then memBytes p.tag (p.dim 0)
  else (p.dim 0 - 1) * p.stride 0 + memBytes p.tag 1

/-- The footprint F: the highest byte offset the elements occupy, plus one (R80), with the scales of a row
trailer (R81). -/
def Param.footprint (p : Param) : Nat :=
  (p.dim 1 - 1) * p.stride 1 + (p.dim 2 - 1) * p.stride 2 + (p.dim 3 - 1) * p.stride 3 + p.lineBytes +
    if p.bs ∧ p.bsp ∧ !p.cmp then p.dim 0 / 32 else 0

/-- The elements of the outer dimensions: lines of the tensor. -/
def Param.lines (p : Param) : Nat := p.dim 1 * p.dim 2 * p.dim 3

/-- The tiles of a compressed tensor (R80, R341). -/
def Param.tiles (p : Param) : Nat := (p.dim 0 / 64) * (p.dim 1 / 64) * p.dim 2 * p.dim 3

/-- A clamp bound is allowed for a format (R68). -/
def clampOk (tag : Nat) (clamp : W32) : Bool :=
  clamp == 0 ||
    (tagFamily tag == 1 || tagFamily tag == 2) &&
    match Fmt.ofTag 1, Fmt.ofTag tag with
    | some f32, some f =>
      match decodeVal f32 clamp.toNat with
      | .fin false n d =>
        decide (0 < n) &&
        (match f with
          | .int k => n % d == 0 && decide (n / d ≤ 2 ^ (k - 1) - 1)
          | .dd8 => ((List.range 128).drop 1).any (fun c => eqQ (dd8Mag c) (n, d))
          | _ =>
            let r := roundTo f (.fin false n d) 1 (.reg true) ⟨1, 0⟩
            match decodeVal f r.1 with
            | .fin false n' d' => n * d' == n' * d
            | _ => false)
      | _ => false
    | _, _ => false

/-- Formats that take block scales (R61). -/
def scalable (t : Nat) : Bool := (4 ≤ t && t ≤ 8) || t == 0xA || t == 0xB

/-- A parameter record at offset `at` of a range of `len` bytes is valid (R81). -/
def Param.ok (p : Param) (bs : List Byte) (off len : Nat) : Bool :=
  let w := memBytes p.tag 1
  let f := p.footprint
  let scales := p.lines * (p.dim 0 / 32)
  let auxAt := p.aux * 4096
  paramReserved bs && p.tag != 0 && decide (p.rnd ≤ 5) && clampOk p.tag p.clamp && p.d.all (fun d => d != 0) &&
    (if memBits p.tag < 8 then p.stride 0 == 0 else p.stride 0 != 0 && p.stride 0 % w == 0) &&
    decide (f ≤ len) && decide (f ≤ off) &&
    (!p.bs || (scalable p.tag && p.dim 0 % 32 == 0)) &&
    (memBits p.tag != 6 || p.dim 0 % 4 == 0) &&
    (!p.cmp || ((scalable p.tag || p.tag == 9) && p.dim 0 % 64 == 0 && p.dim 1 % 64 == 0)) &&
    (!(p.bs && !p.bsp && !p.cmp) || decide (auxAt + scales ≤ len)) &&
    (!p.cmp || decide (auxAt + 4 * p.tiles + (if p.bs then 128 * p.tiles else 0) ≤ len))

/-- The rank-table entry of a rank (R391). -/
def Links.rank (l : Links) (r : Nat) : Word := (lookup l.ranks r).getD 0

/-- The die a request leaves from: its core's, or that of the launch unit that sent it, which stands as core 768 + die. -/
def Req.die (r : Req) : Nat := if r.core < 768 then dieOf r.core else r.core - 768

/-- Two requests of one sender station to one 64-byte line of a partition's memory, whatever rank names it (R388). -/
def Req.sameLine (a b : Req) : Bool :=
  a.die == b.die && a.dpkg == b.dpkg && a.pkey == b.pkey && a.ext == b.ext &&
    a.addr / 64 == b.addr / 64

/-- A request as a flit (R384). One without a payload gives in LEN the bytes it asks for (log 30). -/
def Req.flit (r : Req) : Flit where
  cls := 0
  op := r.op
  rc := false
  ret := false
  resv := 0
  pkey := r.pkey
  sdie := BitVec.ofNat 3 r.die
  spkg := Config.ownPackage
  ddie := r.ddie
  dpkg := r.dpkg
  tag := BitVec.ofNat 16 r.id
  addr := BitVec.ofNat 48 r.addr
  tenant := r.tenant
  len := BitVec.ofNat 6 ((if r.bytes = [] then r.len else r.bytes.length) - 1)
  payload := r.bytes

/-- The station a request leaves from, as logs name it (R394). -/
def Req.sender (r : Req) : Nat := Config.ownPackage.toNat * 8 + r.die

/-- What the requester logs of a request whose target found no translation: rank, tenant address and sender, as the
target logs it (R394). -/
def State.refusedRec (s : State) (r : Req) : State := s.logRec .remoteRefused r.rank r.addr r.sender

/-- The hops between two dies on the package hoop (R387). -/
def dieHops (a b : Nat) : Nat := min ((a + 8 - b) % 8) ((b + 8 - a) % 8)

/-- The bridge station nearer a die: station 0 at die 0, station 1 at die 4 (R389); for dies 2 and 6, as near to the one
as to the other, station 0 (log 57). -/
def bridgeOf (die : Nat) : Nat := if dieHops die 4 < dieHops die 0 then 1 else 0

/-- A bridge station's port to the next package of its ring, or to the previous one (R389); their numbers are
log 57. -/
def bridgePort (station : Nat) (next : Bool) : Nat := 2 * station + b2n next

/-- The packages between two of the domain, with increasing number (R389). -/
def pkgHops (a b : Nat) : Nat := (b + Config.domainSize - a) % Config.domainSize

/-- Flits that wait at a port. -/
def Links.waitingAt (l : Links) (p : Nat) : Nat := (l.unsent.filter (fun x => x.1 == p)).length

/-- Where a flit of a die of this package leaves for a package (R387, R389): by its station of the package hoop, or by
the rack port of the shorter path; of two equal ones that with the shorter queue, else towards increasing numbers. -/
def State.outPort (s : State) (die pkg : Nat) : Nat :=
  let own := Config.ownPackage.toNat
  let up := pkgHops own pkg
  let down := pkgHops pkg own
  let port := bridgePort (bridgeOf die)
  if pkg = own then 4 + die
  else if up = down then port (decide (s.links.waitingAt (port true) ≤ s.links.waitingAt (port false)))
  else port (decide (up < down))

/-- A data flit crosses the package hoop, and a rack port that is OPEN (R392). -/
def Links.crosses (l : Links) (p : Nat) : Bool :=
  decide (4 ≤ p) || (match l.ports[p]? with
    | some x => x.state == .open_
    | none => false)

/-- A flit sent by a port, once that is OPEN (R392). -/
def State.emitAt (s : State) (p : Nat) (x : Flit) : State :=
  if s.links.crosses p then { s with links := { s.links with sent := s.links.sent ++ [(p, x)] } }
  else { s with links := { s.links with unsent := s.links.unsent ++ [(p, x)] } }

/-- A flit that a station of this package sends to another station (R387, R389). -/
def State.emit (s : State) (x : Flit) : State := s.emitAt (s.outPort x.sdie.toNat x.dpkg.toNat) x

/-- The endpoint that an index names (R398). -/
def State.endpoint (s : State) (e : Nat) : Endpoint := (lookup s.links.endpoints e).getD Endpoint.reset

/-- An endpoint changed. -/
def State.upEndpoint (s : State) (e : Nat) (x : Endpoint) : State :=
  { s with links := { s.links with endpoints := insertKey s.links.endpoints e x } }

/-- An operation sent to an endpoint under its next sequence number, and kept until it is acknowledged (R398). -/
def State.emitFrame (s : State) (e : Nat) (x : Flit) : State :=
  let p := s.endpoint e
  let s := s.upEndpoint e { p with next := p.next + 1, window := p.window ++ [(p.next, 0, x)] }
  { s with links := { s.links with frames := s.links.frames ++ [⟨e, p.next, .op x⟩] } }

/-- A request on its way: over the hoops, or in a frame (R384, R398). -/
def State.depart (s : State) (r : Req) : State :=
  if r.ext then s.emitFrame r.endpt r.flit
  else if r.returned then s else s.emitAt r.port r.flit

/-- PKEY of a request: that of the partition of the acting strand (R384). -/
def State.senderKey (s : State) (rank : Nat) : Nat :=
  match s.core.job.bind (fun j => s.work.launches.find? (fun l => l.num == j.launch)) with
  | some l => s.partKey l.part
  | none => bits (s.links.rank rank).toNat 47 32

/-- A request sent to another package; its number and the state after (R385). It is held behind one to its
line that came back returned (R388), and leaves as an earlier one of its core to that line did (R387). -/
def State.send (s : State) (cmd : Option (Eng × Nat)) (piece : Nat) (op : HoopOp) (rank addr : Nat)
    (bytes : List Byte) (len : Nat) (posted : Bool) : Nat × State :=
  let id := s.links.nextReq
  let e := (s.links.rank rank).toNat
  let fits (q r : Req) : Bool := q.resp.isNone && q.sameLine r
  let r : Req := ⟨id, s.coreId, cmd, piece, op, rank, bit e 62, addr, bytes, len, 0, false, posted, none,
    (s.core.job.map (fun j => j.ctx)).getD 0, BitVec.ofNat 16 (s.senderKey rank),
    BitVec.ofNat 8 ((s.core.job.map (fun j => j.tenant)).getD 0), BitVec.ofNat 3 (bits e 13 11),
    BitVec.ofNat 5 (bits e 23 19), bits e 10 0, s.outPort (dieOf s.coreId) (bits e 23 19)⟩
  let r := { r with
    returned := s.links.reqs.any (fun q => q.returned && fits q r)
    port := ((s.links.reqs.find? (fun q => q.core == r.core && fits q r)).map (fun q => q.port)).getD r.port }
  (id, ({ s with links := { s.links with reqs := s.links.reqs ++ [r], nextReq := id + 1 } } : State).depart r)

/-- The core has as many requests outstanding as it may (R324). -/
def State.requestsFull (s : State) : Bool :=
  decide (4096 ≤ (s.links.reqs.filter (fun r => r.core == s.coreId && r.resp.isNone)).length)

/-- Why a rank cannot be reached, as a status (R391, R395, R399); none when it can. -/
def State.rankFault (s : State) (rank : Nat) (scalar : Bool) : Option Nat :=
  let e := (s.links.rank rank).toNat
  if !bit e 63 then some 1
  else if bit e 62 && scalar then some 3
  else if bit e 62 && s.links.unreachable.contains (bits e 10 0) then some 0xD
  else if !bit e 62 && (s.links.deadPkgs.contains (bits e 23 19) ||
      s.links.dead.contains (bits e 23 19, bits e 47 32)) then some 0xD
  else none

/-- The request of an atomic that was rolled back while its response was awaited, if the instruction here is that
atomic: it is not sent again (R383). -/
def State.keptRequest (s : State) : Option Nat :=
  (s.core.kept.find? (fun k => k.2.1 == s.core.pc && k.2.2 == s.core.priv &&
    s.links.reqs.any (fun r => r.id == k.1 && r.op == .atomic))).map (fun k => k.1)

/-- The atomic of the instruction here that has been sent, and whose response is awaited (R383). -/
def State.sentAtomic (s : State) : Option Req :=
  match s.core.remote.or s.keptRequest with
  | some id => s.links.reqs.find? (fun r => r.id == id && r.op == .atomic)
  | none => none

/-- A remote access of the sequencer that needs a response: sent once, then awaited (R317, R383). A status
of the response other than OK faults; one that R367 does not list reports that the target found no
translation, which loses the context (R394). -/
def State.remoteGet (s : State) (op : HoopOp) (rank addr : Nat) (bytes : List Byte) (len : Nat) (info : Word)
    (scalar : Bool := true) : Res (List Byte × State) :=
  match if op = .atomic then s.core.remote.or s.keptRequest else s.core.remote with
  | none =>
    match s.rankFault rank scalar with
    | some c => .error (.trap c info, s)
    | none =>
      if s.requestsFull then .error (.wait .room, s)
      else
      let (id, s) := s.send none 0 op rank addr bytes len false
      .error (.wait .busy, s.upCore (fun c => { c with remote := some id }))
  | some id =>
    match s.links.reqs.find? (fun r => r.id == id) with
    | none => .error (.wait .busy, s.upCore (fun c => { c with remote := none }))
    | some r =>
      match r.resp with
      | none => .error (.wait .busy, s)
      | some (st, data) =>
        let s := { s with links := { s.links with reqs := s.links.reqs.filter (fun r => r.id != id) } }
        let s := s.upCore (fun c => { c with remote := none, kept := c.kept.filter (fun k => k.1 != id) })
        if st = 0 then .ok (data, s)
        else if st = 9 then .error (.poison (addr / 64) info, s)
        else if st.toNat ≤ 0xD then .error (.trap st.toNat info, s)
        else .error (.wait .busy, (s.refusedRec r).loseOwn 1)

/-- Bytes 0 to 47 of a record (R73). -/
def HRec.bytes (r : HRec) : List Byte :=
  leBytes 8 r.base ++ leBytes 8 r.length ++ leBytes 2 r.rights.toNat ++ leBytes 1 r.tenant ++
    leBytes 1 r.keyslot ++ leBytes 8 r.guard ++ leBytes 4 r.param ++ leBytes 2 r.gen ++ leBytes 1 r.kind ++
    leBytes 2 (b2n r.local_ * 2 ^ 15 + r.rank) ++ List.replicate 11 0

/-- A record sealed under the seal key of a number (R74). -/
def HRec.sealed (r : HRec) (k : Nat) : HRec := { r with sealTag := Config.kmac k r.bytes }

/-- The seal check of a record (R74, R85). -/
def HRec.sealOk (r : HRec) (k : Nat) : Bool := Config.kmac k r.bytes == r.sealTag

/-- The table entry of a context. -/
def Ctx.entry (c : Ctx) (e : Nat) : TEntry := (lookup c.table e).getD ⟨none, 0, false⟩

/-- Fill (R85): the record of a table entry, its seal and tenant checked, with its parameter record. A record that
is not live is of no use to any register (R76, R88); an entry never minted holds none (log 92). A rank
through which a parameter record cannot be read faults (log 104); the sequencer's own accesses never reach beyond
scale-out, so nothing is read for one of them there, but for HQUERY's (R399). `off` is the access's offset (R422). -/
def State.fill (s : State) (entry off h opw : Nat) (query : Bool) : Res (HCached × State) :=
  let info := accessInfo off opw h
  match s.core.job with
  | none => .error (.trap 5 info, s)
  | some j =>
    match s.ctx? j.ctx with
    | none => .error (.trap 5 info, s)
    | some c =>
      let t := c.entry entry
      match t.rec_ with
      | none => .error (.trap 5 info, s)
      | some r =>
        if r.sealOk s.trust.sealNo = false then .error (.trap 5 info, s.logRec .sealFail c.num entry 0)
        else if r.tenant ≠ j.tenant then .error (.trap 5 info, s)
        else
          let live (c : HCached) (s : State) : Res (HCached × State) :=
            if r.gen = t.gen then .ok (c, s) else .error (.trap 4 info, s)
          if r.param = 0xFFFFFFFF then live ⟨entry, r, none⟩ s
          else if opw = 0 ∧ query = false ∧ r.local_ = false ∧ bit (s.links.rank r.rank).toNat 62 = true then
            .error (.trap (if r.gen = t.gen then 3 else 4) info, s)
          else
            let got : Res (List Byte × State) :=
              if r.local_ then
                match s.translate r.tenant (r.base + r.param) r.kind 0 info with
                | .error e => .error e
                | .ok (pa, s) =>
                  match s.ordRead s.domain pa 32 info with
                  | .error e => .error e
                  | .ok bs => .ok (bs, s)
              else s.remoteGet (.param r.kind) r.rank (r.base + r.param) [] 32 info false
            match got with
            | .error e => .error e
            | .ok (bs, s) =>
              let p := Param.read bs
              if p.ok bs r.param r.length then live ⟨entry, r, some p⟩ s else .error (.trap 6 info, s)

/-- A record entered into the core's handle cache of 64 entries, or moved to its front (R85). -/
def State.cacheHandle (s : State) (c : HCached) : State :=
  s.upCore (fun k => { k with hcache := (c :: k.hcache.filter (fun x => x.entry != c.entry)).take 64 })

/-- The state, fill, seal and generation checks of ReadHandle (R85), without rights and bounds (R322, R380), for an
access at `off`, or for HQUERY's. -/
def State.checkHandle (s : State) (h off opw : Nat) (query : Bool := false) : Res (View × State) :=
  let info := accessInfo off opw h
  if h ≤ 1 then .ok (s.ownView h opw, s)
  else
    match s.core.live.h.getD h .empty with
    | .empty => .error (.trap 5 info, s)
    | .built => .ok (s.ownView h opw, s)
    | .revoked _ _ => .error (.trap 4 info, s)
    | .valid e g =>
      let got : Res (HCached × State) :=
        match s.core.hcache.find? (fun c => c.entry == e) with
        | some c => .ok (c, s)
        | none => s.fill e off h opw query
      match got with
      | .error e => .error e
      | .ok (c, s) =>
        let s := s.cacheHandle c
        if c.rec_.gen ≠ g then .error (.trap 4 info, s)
        else
          let r := c.rec_
          .ok (⟨r.kind, r.local_, r.rank, r.base, 0, r.length, r.rights, some e, r.guard, c.param, h, opw⟩, s)

/-- The view of an access of length 0 whose register names no record that can be had: an empty range of every right
(R85, log 20). -/
def emptyView (h off opw : Nat) : View := ⟨0, true, 0, 0, off, off, 0x7F, none, unguarded, none, h, opw⟩

/-- ReadHandle of an access whose bytes are known only as it runs (R197, R336, R344, R345): every check but that of
the bounds, with `off` as its offset. -/
def State.openHandle (s : State) (h off : Nat) (need : Right) (opw : Nat) : Res (View × State) :=
  match s.checkHandle h off opw with
  | .error e => .error e
  | .ok (v, s) =>
    if !rightsOk v.rights v.local_ need then .error (.trap 3 (accessInfo off opw h), s)
    else .ok ({ v with off := off }, s)

/-- ReadHandle (R85): a view of `len` bytes at `off`, with the offset stored in it. An access of length 0 passes
every check. -/
def State.readHandle (s : State) (h off len : Nat) (need : Right) (opw : Nat) : Res (View × State) :=
  if len = 0 then
    match s.checkHandle h off opw with
    | .ok (v, s) => .ok ({ v with off := off }, s)
    | .error _ => .ok (emptyView h off opw, s)
  else
  match s.openHandle h off need opw with
  | .error e => .error e
  | .ok (v, s) => if v.length < off + len then .error (.trap 2 (accessInfo off opw h), s) else .ok (v, s)

/-- The place of a byte of a view of this package, translated for an access (R290); the pool of a cluster that the
connection matrices do not join is not reached (R111). -/
def State.viewPlace (s : State) (v : View) (off : Nat) (need : PageNeed) (info : Word) : Res (Nat × State) :=
  if v.kind ≤ 1 then
    if v.kind = 1 ∧ s.connects (clusterOf s.coreId) (cpCluster (v.base + off)) = false then .error (.trap 1 info, s)
    else .ok (v.base + off, s)
  else
    let t := match s.core.job with
      | some j => j.tenant
      | none => 0
    s.translate t (v.base + off) v.kind need info

/-! ## The scalar line buffer (R320) -/

/-- The dirty bytes of a line written back at its point of order. -/
def State.writeBack (s : State) (l : LineBuf) (info : Word) : Res State :=
  if l.dirty = 0 then .ok s else s.ordWriteMask s.domain l.line (l.masked l.dirty) info

/-- Lines written back one after the other. -/
def State.writeBackAll (s : State) (info : Word) : List LineBuf → Res State
  | [] => .ok s
  | l :: ls =>
    match s.writeBack l info with
    | .error e => .error e
    | .ok s => s.writeBackAll info ls

/-- A release's write-back: every dirty line written back and kept clean. -/
def State.flushLines (s : State) (info : Word) : Res State :=
  match s.writeBackAll info s.core.lines with
  | .error e => .error e
  | .ok s => .ok (s.upCore (fun c => { c with lines := c.lines.map (fun l => { l with dirty := 0 }) }))

/-- Lines that meet a condition written back and dropped. -/
def State.dropLines (s : State) (p : LineBuf → Bool) (info : Word) : Res State :=
  match s.writeBackAll info (s.core.lines.filter p) with
  | .error e => .error e
  | .ok s => .ok (s.upCore (fun c => { c with lines := c.lines.filter (fun l => !p l) }))

/-- A line put at the front of the buffer; the least recently used of 33 is written back and leaves. -/
def State.putLine (s : State) (l : LineBuf) (info : Word) : Res State :=
  let ls := l :: s.core.lines.filter (fun x => x.line != l.line)
  match (ls.drop 32).head? with
  | none => .ok (s.upCore (fun c => { c with lines := ls }))
  | some v =>
    match s.writeBack v info with
    | .error e => .error e
    | .ok s => .ok (s.upCore (fun c => { c with lines := ls.take 32 }))

/-- Bits `lo` to `lo + n - 1` of a 64-bit mask. -/
def maskBits (lo n : Nat) : BitVec 64 := BitVec.ofNat 64 ((2 ^ n - 1) * 2 ^ lo)

/-- Bytes put into a list of 64 bytes at an offset. -/
def putBytes (l : List Byte) (off : Nat) (bs : List Byte) : List Byte := l.take off ++ bs ++ l.drop (off + bs.length)

/-- A store leaving the store buffer enters the line buffer (R320). -/
def State.lineStore (s : State) (place guard : Nat) (bs : List Byte) (info : Word) : Res State :=
  let line := place / 64
  let l := (s.core.lines.find? (fun l => l.line == line)).getD ⟨line, List.replicate 64 0, 0, 0, guard⟩
  let m := maskBits (place % 64) bs.length
  s.putLine { l with
    data := putBytes l.data (place % 64) bs
    valid := l.valid ||| m
    dirty := l.dirty ||| m
    guard := guard } info

/-- A plain load of local BM or HBM: from the line, or after the line is read (R317, R320). -/
def State.lineLoad (s : State) (place n guard : Nat) (info : Word) : Res (List Byte × State) :=
  let line := place / 64
  let m := maskBits (place % 64) n
  let l := (s.core.lines.find? (fun l => l.line == line)).getD ⟨line, List.replicate 64 0, 0, 0, guard⟩
  let filled : Res LineBuf :=
    if l.valid &&& m = m then .ok l
    else
      match s.ordRead s.domain (line * 64) 64 info with
      | .error e => .error e
      | .ok bs => .ok { l with
          data := (List.range 64).map (fun i => if l.dirty.getLsbD i then l.data.getD i 0 else bs.getD i 0)
          valid := BitVec.allOnes 64 }
  match filled with
  | .error e => .error e
  | .ok l =>
    match s.putLine { l with guard := guard } info with
    | .error e => .error e
    | .ok s => .ok ((l.data.drop (place % 64)).take n, s)

/-! ## Regions (R409 to R414) -/

/-- A posted write to another package (R317, R360, R408): its acknowledgement is awaited later. -/
def State.post (s : State) (rank addr : Nat) (bs : List Byte) : State :=
  match s.rankFault rank true with
  | some c =>
    let id := s.links.nextReq
    ({ s with links := { s.links with nextReq := id + 1 } } : State).upCore (fun k =>
      { k with held := insertKey k.held id (BitVec.ofNat 8 c) })
  | none =>
    let (id, s) := s.send none 0 .write rank addr bs bs.length true
    s.upCore (fun k => { k with posted := k.posted ++ [id] })

/-- One buffered store performed as the region closes (R317, R319). -/
def State.perform (s : State) (e : SEntry) : Res State :=
  let info := accessInfo e.view.off e.view.opw e.view.hreg
  if !e.view.local_ then
    if s.requestsFull then .error (.wait .room, s) else .ok (s.post e.view.rank e.place e.bytes)
  else if e.view.kind ≤ 1 then s.ordWrite s.domain e.place e.bytes info
  else s.lineStore e.place e.view.guard e.bytes info

/-- The store buffer drained in program order. -/
def State.drain (s : State) : List SEntry → Res State
  | [] => .ok s
  | e :: l =>
    match s.perform e with
    | .error x => .error x
    | .ok s => s.drain l

/-- The store buffer emptied at a region's end: a re-execution that no further consumption met is over, unless no
region was open (R413, R433). -/
def Core.emptied (c : Core) : Core :=
  { c with sbuf := [], reexec := c.reexec && (c.closed || c.reexecPriv != c.priv) }

/-- The current region closes: its store buffer drains (R413), and its re-execution, if it is one, is over (R433). Where
none is open there is none to close. -/
def State.closeRegion (s : State) : Res State :=
  match s.drain s.core.sbuf with
  | .error e => .error e
  | .ok s => .ok (s.upCore Core.emptied)

/-- The seed of substream `j` in the region that is current (R65). -/
def Core.seed (c : Core) (j : Nat) : Word :=
  seedOf (match c.job with
    | some j => j.workid
    | none => 0) (BitVec.zeroExtend 64 c.rseq) j

/-- The region log and start taken as the registers now stand. -/
def Core.mark (c : Core) : Core := { c with ckpt := c.live, startPc := c.pc, startPriv := c.priv }

/-- The region has closed and no other has started; a roll-back comes back to here (R171). -/
def Core.shut (c : Core) : Core := { c.mark with closed := true }

/-- A region starts here (R409): RSEQ rises by 1, the log is empty, the sequencer's substream is seeded;
the engines reseed at their first command of the region (R66). -/
def Core.openRegion (c : Core) : Core :=
  let c := { c with rseq := c.rseq + 1, closed := false }.mark
  { c with sub := upd 0 c.sub 0 (c.seed 0), subSeq := upd 0 c.subSeq 0 c.rseq }

/-- The next region starts after an instruction that lay between two; one that consumed poison and ran again there is
itself what was re-executed (R433). -/
def Core.reopen (c : Core) (again : Bool) : Core :=
  { c with reexec := c.reexec && (!again || c.reexecPriv != c.priv) }.openRegion

/-- An instruction that lies between two regions (R171, R316, R376, R380, R383): the region before it
closes, it acts, the next region starts after it. A translation miss of the act is requeued at the
instruction itself (R383). -/
def State.between (s : State) (act : State → Res State) : Res State :=
  let again := s.core.closed
  match s.closeRegion with
  | .error e => .error e
  | .ok s =>
    match act (s.upCore Core.shut) with
    | .error e => .error e
    | .ok s => .ok (s.upCore (fun c => c.reopen again))

/-- A region boundary alone. -/
def State.boundary (s : State) : Res State := s.between .ok

/-- The region of a number is the one the strand is in; none is while an instruction stands between two (R171). -/
def Core.inRegion (c : Core) (rseq : BitVec 48) : Bool := !c.closed && rseq == c.rseq

/-- The engine entries that stay at a roll-back (R412, R330): all of earlier regions; of this region only
copy commands already started, which run on. -/
def Core.keepCmds (c : Core) (q : List Cmd) : List Cmd := q.filter (fun x => !c.inRegion x.rseq)

/-- The copy entries that stay at a roll-back. -/
def Core.keepCopies (c : Core) (q : List Cmd) : List Cmd :=
  (q.filter (fun x => !c.inRegion x.rseq || x.started)).map (fun x =>
    if c.inRegion x.rseq then { x with orphan := true } else x)

/-- The arrays with the matrix part of a checkpoint. -/
def Arrays.restoreMatrix (a b : Arrays) : Arrays := { b with tq0 := a.tq0, tq1 := a.tq1 }

/-- The arrays with the plait part of a checkpoint. -/
def Arrays.restorePlait (a b : Arrays) : Arrays := { a with tq0 := b.tq0, tq1 := b.tq1 }

/-- RollBack (R412): the strand returns to the start of its region; RSEQ stays. Substreams that commands of earlier
regions still draw from are left to them (R66, log 93). -/
def Core.rollBack (c : Core) (cause : Nat) : Core :=
  let a := if c.inRegion c.matSeq then c.arrays.restoreMatrix c.arraysCkpt else c.arrays
  let a := if c.inRegion c.plaitSeq then a.restorePlait c.arraysCkpt else a
  let t := (List.range 4).map (fun i =>
    let r := c.tables.getD i TableRun.reset
    if (i = 0 ∧ c.inRegion c.matSeq = true) ∨ (i = 1 ∧ c.inRegion c.plaitSeq = true) then c.tablesCkpt.getD i r else r)
  { c with
    sbuf := []
    vq := c.keepCmds c.vq
    mq := c.keepCmds c.mq
    pq := c.keepCmds c.pq
    cq := c.keepCopies c.cq
    arrays := a
    tables := t
    live := c.ckpt
    pc := c.startPc
    priv := c.startPriv
    lastCause := BitVec.ofNat 2 cause
    stopPassed := false
    sub := (List.range 5).map (fun j =>
      if (j = 0 ∧ c.closed = false) ∨ c.inRegion (c.subSeq.getD j 0) = true then c.seed j else c.sub.getD j 0)
    remote := none
    kept := match c.remote with
      | some id => if c.closed then (id, c.pc, c.priv) :: c.kept else c.kept
      | none => c.kept
    halting := none
    stall := .none }

/-! ## Traces (R464, R465) -/

/-- Bytes of memory set, and nothing else. -/
def State.poke (s : State) (a : Nat) (bs : List Byte) : State :=
  { s with mem := { s.mem with cells := memWrite s.mem.cells a bs } }

/-- Bytes written by the platform to a place: a whole line clears its poison mark; part of a poisoned line is not
written, and the consumption is logged (R314, log 86). -/
def State.platformWrite (s : State) (a : Nat) (bs : List Byte) : State :=
  match (linesOf a bs.length).find? (fun l => !coversLine a bs.length l && (s.mem.poison.contains l || s.mem.faulty.contains l)) with
  | some l => ({ s with mem := s.mem.mark l } : State).logRec .consumed (l * 64) s.coreId 0
  | none =>
    ({ s with mem := { s.mem with
        poison := s.mem.poison.filter (fun l => !coversLine a bs.length l)
        faulty := s.mem.faulty.filter (fun l => !coversLine a bs.length l) } } : State).poke a bs

/-- A trace record of a kind written to the ring, when the port traces the core and the kind (R464). -/
def State.trace (s : State) (kind lc sp iter : Nat) (pc : BitVec 48) : State :=
  let ctl := s.dbg.trcctl.toNat
  if !(s.trust.debugOpen && bit ctl 63 && s.dbg.trcmask.getLsbD s.coreId && bit (bits ctl 39 35) kind) then s
  else
    let size := bits ctl 34 24 * 65536
    if size < s.dbg.trchead.toNat + 32 then { s with dbg := { s.dbg with trcdrop := s.dbg.trcdrop + 1 } }
    else
      let w := match s.core.job with
        | some j => j.workid.toNat
        | none => 0
      let bs := leBytes 8 s.cycle.toNat ++ leBytes 6 pc.toNat ++ leBytes 2 s.coreId ++ leBytes 4 iter ++
        leBytes 1 (lc + 4 * sp + 16 * kind) ++ leBytes 1 s.core.live.q.toNat ++
        leBytes 2 (s.core.rseq.toNat % 65536) ++ leBytes 8 w
      let s := s.platformWrite (bmBase + bits ctl 8 0 * 2 ^ 25 + s.dbg.trchead.toNat) bs
      { s with dbg := { s.dbg with trchead := s.dbg.trchead + 32 } }

/-- The innermost loop whose counter is not zero, for trace records of other kinds (R464): the highest
number, its form and its iteration count. -/
def State.traceLoop (s : State) (kind : Nat) (pc : BitVec 48) : State :=
  match (List.range 4).reverse.find? (fun i => s.core.live.lc.getD i 0 != 0) with
  | some i => s.trace kind i (b2n (s.core.live.lsp.getD i false)) (s.core.live.itc.getD i 0).toNat pc
  | none => s.trace kind 0 0 0 pc

/-- The acting core's strand rolled back to its region's start, counted, and traced as it then stands (R412, R464,
R472). -/
def State.rollBack (s : State) (cause : Nat) : State :=
  let t := (s.countFor s.core.job 0x51 1).upCore (fun c => c.rollBack cause)
  t.traceLoop 4 t.core.pc

/-! ## Traps (R418 to R424) -/

/-- The supervisor's code handle (R418): entry 0 of the context's table, live and with X. -/
def State.supervisorCode (s : State) : Option Code :=
  match s.core.job with
  | none => none
  | some j =>
    match s.ctx? j.ctx with
    | none => none
    | some c =>
      let t := c.entry 0
      match t.rec_ with
      | none => none
      | some r =>
        if r.gen = t.gen ∧ t.closed = false ∧ r.sealOk s.trust.sealNo = true ∧ r.rights.getLsbD 2 = true then
          some ⟨0, t.gen, r.base, r.length, r.kind⟩
        else none

/-- TRAPVEC of the strand's context. -/
def State.trapVector (s : State) : Word := ((s.core.job.bind (fun j => s.ctx? j.ctx)).map (fun c => c.trapvec)).getD 0

/-- The supervisor that a trap enters (R418): its code handle and TRAPVEC, which lies within it. -/
def State.supervisor (s : State) : Option (Code × Word) :=
  match s.supervisorCode with
  | none => none
  | some c =>
    let v := s.trapVector
    if v.toNat % 4 = 0 ∧ v.toNat + 4 ≤ c.length then some (c, v) else none

/-- TRAPCAUSE of a trap (R421). -/
def trapCauseWord (cause : Nat) (rb tok : Bool) : Word :=
  BitVec.ofNat 64 (cause + b2n rb * 2 ^ 8 + b2n tok * 2 ^ 9)

/-- The registers of trap entry (R420), on a core whose region has closed: cause, detail and saved PC
written, privileged, PC at TRAPVEC, the next region started. -/
def Core.enterTrap (c : Core) (cause info epc vec : Word) : Core :=
  ({ c with
    trapCause := cause
    trapInfo := info
    epc := epc
    priv := true
    pc := BitVec.ofNat 48 vec.toNat
    entering := true
    stopPassed := false
    stall := .none } : Core).openRegion

/-- Whether the fetch at the supervisor's entry faults (R418): its page grants no X, or lies beyond
CAPACITY. -/
def State.entryFaults (s : State) (c : Code) (vec : Word) : Bool :=
  match s.core.job with
  | none => true
  | some j =>
    match (s.find (clusterOf s.coreId) j.tenant (c.base + vec.toNat) c.kind).1 with
    | .at f z r _ => (pageFault s.xl.capacity c.kind f z (c.base + vec.toNat) r 4).isSome
    | .miss _ => false

/-- TRAPVEC, if a trap can be entered (R418). -/
def State.entry? (s : State) : Option Word :=
  match s.supervisor with
  | some (c, vec) => if s.entryFaults c vec then none else some vec
  | none => none

/-- A trap taken on a core whose store buffer is empty; without a supervisor the strand ends as HALT
does, with the cause as its status (R418). -/
def State.trapNow (s : State) (cause : Nat) (info : Word) (epc : BitVec 48) (rb tok : Bool) : State :=
  match s.entry? with
  | some vec => (s.traceLoop 2 s.core.pc).upCore (fun c =>
      c.enterTrap (trapCauseWord cause rb tok) info (BitVec.zeroExtend 64 epc) vec)
  | none => s.upCore (fun c => { c.shut with halting := some cause, stall := .none })

/-- The line the trust core logs for a consumption (R432). -/
def State.logConsumed (s : State) (line : Nat) : State := s.logRec .consumed (line * 64) s.coreId 0

/-- Containment of a consumption of poison (R432, R433): roll-back, then a trap at the region start for an
unprivileged strand; a second consumption in the re-executed region loses the context. -/
def State.contain (s : State) (line : Nat) (info : Word) (tok : Bool) : State :=
  let s := s.logConsumed line
  if s.core.reexec then s.loseOwn 9
  else if s.core.priv then
    (s.rollBack 2).upCore (fun c => { c with reexec := true, reexecPriv := true })
  else
    let s := s.rollBack 2
    let s := if s.entry?.isSome then s.trapNow 9 info s.core.startPc true tok else s
    s.upCore (fun c => { c with reexec := true, reexecPriv := false })

/-- The misses of the launch unit by number: those of a replay's node, of a header record, of a queued entry, of an
exchange step (R97, R105, R127, R478). -/
def nodeMiss (replay node : Nat) : Nat := 4 * (4096 * replay + node)
def recordMiss (launch : Nat) : Nat := 4 * launch + 1
def entryMiss (fn enteredAt : Nat) : Nat := 4 * (64 * enteredAt + fn) + 2
def stepMiss (launch step : Nat) : Nat := 4 * (4096 * launch + step) + 3

/-- What a miss of the launch unit is for still waits (R416). -/
def State.unitMisses (s : State) (id : Nat) : Bool :=
  let k := id / 4
  match id % 4 with
  | 0 => s.replays.any (fun r => r.num == k / 4096 && (lookup r.waits (k % 4096)).isNone && (lookup r.npreds (k % 4096)).isNone)
  | 1 => s.work.finishing.any (fun l => l.1.num == k && l.2 == .due)
  | 2 => ((lookup s.work.queues (k % 64)).getD []).any (fun q => q.enteredAt == k / 64 && q.waitsFor.isNone && q.held.isNone)
  | _ => s.work.launches.any (fun l => l.num == k / 4096 && l.planPage.isNone && l.state == .running &&
      !l.planDone.contains (k % 4096))

/-- A miss that found no free entry still waits: its strand, or its command on the core, or the launch unit (R416). -/
def State.stillMisses (s : State) (x : Nat × Option Nat × Nat) : Bool :=
  let c := s.coreAt x.1
  match x.2.1 with
  | none => c.stall == .pageFull
  | some p =>
    if x.1 = 768 then s.unitMisses p
    else (c.vq ++ c.mq ++ c.pq ++ c.cq).any (fun y => y.prod == p && y.full.isSome)

/-- A miss takes its place among those of its tenant that wait for an entry; whether it is the first (R416). -/
def State.missTurn (s : State) (me : Nat × Option Nat × Nat) : Bool × State :=
  let l := s.xl.misses.filter (fun x => x == me || s.stillMisses x)
  let l := if l.contains me then l else l ++ [me]
  (l.find? (fun x => x.2.2 == me.2.2) == some me, { s with xl := { s.xl with misses := l } })

/-- A miss no longer waits for an entry. -/
def State.missServed (s : State) (me : Nat × Option Nat × Nat) : State :=
  { s with xl := { s.xl with misses := s.xl.misses.filter (fun x => x != me) } }

/-- A page-request entry for a miss: joined, or opened from the tenant's reserved four or from the pool of
128 (R416). The entry's number, or none while neither has room. -/
def State.openRequest (s : State) (m : Miss) (first : Bool) : Option Nat × State :=
  let same (p : Nat × PageReq) : Bool :=
    p.2.tenant == m.tenant && p.2.bm == m.bm && p.2.addr / 65536 == m.addr / 65536
  match s.xl.prq.find? same with
  | some (i, e) =>
    (some i, { s with xl := { s.xl with
      prq := insertKey s.xl.prq i { e with need := e.need ||| m.need } } })
  | none =>
    let mine := (s.xl.prq.filter (fun p => p.2.tenant == m.tenant)).length
    let pool := (s.xl.prq.filter (fun p => !p.2.reserved)).length
    if first = false ∨ (4 ≤ mine ∧ 128 ≤ pool) then (none, s)
    else
      match (List.range 256).find? (fun i => (lookup s.xl.prq i).isNone) with
      | none => (none, s)
      | some i =>
        let e : PageReq := ⟨m.addr, m.tenant, m.need, m.reason % 4, m.bm, s.cycle.toNat % 2 ^ 32, decide (mine < 4)⟩
        (some i, ({ s with xl := { s.xl with prq := insertKey s.xl.prq i e } }).raise 32 1)

/-- The page-request entry of a miss that `me` stands for (R415, R416): one that has to wait opens none before the
tenant's earlier ones. A walk that met a poisoned line is logged once (R444). -/
def State.askPage (s : State) (m : Miss) (me : Nat × Option Nat × Nat) : Option Nat × State :=
  let s := if m.reason = 6 ∧ s.xl.misses.contains me = false then s.logRec .walkPoison m.tenant m.addr s.cycle.toNat else s
  let (first, s) := s.missTurn me
  match s.openRequest m first with
  | (some i, s) => (some i, s.missServed me)
  | (none, s) => (none, s)

/-- The page-request entry of a miss of the acting core, by its sequencer or by a command of it (R415, R416). -/
def State.pageRequest (s : State) (m : Miss) (prod : Option Nat) : Option Nat × State :=
  s.askPage m (s.coreId, prod, m.tenant)

/-- The page-request entry of a miss of the launch unit (R97, R105, R127); what waits for the memory asks for none and is
tried again (R16, R442, R455). -/
def State.unitRequest (s : State) (m : Miss) (id : Nat) : Option Nat × State :=
  match m.held with
  | some w => (none, s.noteHeld 768 id w)
  | none => s.askPage m (768, some id, m.tenant)

/-- A strand waits for the page of a miss: by its entry, or for one to be free (R415, R416). -/
def Core.waitsFor (c : Core) (m : Miss) (e : Option Nat) : Core :=
  { c with stall := e.elim .pageFull .page, awaits := some m }

/-- A translation miss of the sequencer (R415): roll-back to the region start, and a wait for the page. -/
def State.missed (s : State) (m : Miss) : State :=
  let (e, s) := ((s.countFor s.core.job 0x50 1).rollBack 1).pageRequest m none
  s.upCore (fun c => c.waitsFor m e)

/-- A strand whose miss found no free entry asks again, and issues nothing (R415, R416). -/
def State.askAgain (s : State) : Option State :=
  match s.core.stall, s.core.awaits with
  | .pageFull, some m =>
    match s.pageRequest m none with
    | (some i, s) => some (s.upCore (fun c => c.waitsFor m (some i)))
    | (none, _) => none
  | _, _ => none

/-- TrapEntry (R420): the region closes and the trap is taken; a fault raised while privileged is no trap
but loses the context (R423). A failure of the drain is a failure of the region (R413). -/
def State.trapEntry (s : State) (cause : Nat) (info : Word) (epc : BitVec 48) (rb tok : Bool) : State :=
  if s.core.priv then
    (s.logRec .trapLost cause s.core.pc.toNat info.toNat).loseOwn cause
  else
    match s.closeRegion with
    | .ok s => s.trapNow cause info epc rb tok
    | .error (.poison l i, s) => s.contain l i false
    | .error (.miss m, s) => s.missed m
    | .error (.trap c i, s) => (s.upCore (fun k => { k with sbuf := [] })).trapNow c i epc rb tok
    | .error (.trapTok c i, s) => (s.upCore (fun k => { k with sbuf := [] })).trapNow c i epc rb tok
    | .error (.wait w, s) => s.upCore (fun k => { k with stall := w })

/-- An instruction waits; what the memory makes it wait for is noted (R442, R455, R458). -/
def State.stalls (s : State) (w : Stall) : State :=
  (s.upCore (fun k => { k with stall := w })).noteHeld s.coreId s.strandWho w

/-- The first fetch of the supervisor faults (R418): the strand ends as HALT does, with the cause of the trap it was
entering; after a first consumption of poison it re-runs its region. -/
def State.failedEntry (s : State) : State :=
  s.upCore (fun c =>
    let cause := bits c.trapCause.toNat 7 0
    if cause = 9 then
      { c with entering := false, priv := false, pc := BitVec.ofNat 48 c.epc.toNat, stall := .none }.openRegion
    else { c.shut with entering := false, halting := some cause, stall := .none })

/-- What follows when an instruction ends without its effect. -/
def State.stop (s : State) (e : Stop) : State :=
  match e with
  | .trap c i => s.trapEntry c i s.core.pc false false
  | .trapTok c i => s.trapEntry c i s.core.pc false true
  | .miss m => s.missed m
  | .poison l i => s.contain l i false
  | .wait w => s.stalls w

/-- What follows when a fetch fails: the first of a supervisor is that of its trap's entry (R130, R418). Poison that a fetch
meets is contained as every other consumption, at the start of the region (R432, log 105). -/
def State.fetchStop (s : State) (e : Stop) : State :=
  if s.core.entering then
    match e with
    | .trap c _ => if c = 0x10 then s.stop e else s.failedEntry
    | .poison l _ => (s.logConsumed l).failedEntry
    | e => s.stop e
  else s.stop e

/-- What `t` makes of `s`, unless it has to wait for the memory: then nothing has been done yet, and the core waits
(R363, R442). -/
def State.orStalls (s t : State) : State := if t.core.stall.held then s.stalls t.core.stall else t

/-- The same of what the core does while it waits for something else (R425): that wait stands, and it is tried
again. -/
def State.orHeld (s t : State) : State :=
  if t.core.stall.held then s.noteHeld s.coreId s.strandWho t.core.stall else t

/-- The next state after an instruction that may end without its effect. -/
def retire (r : Res State) : Outcome :=
  match r with
  | .ok s => .next s
  | .error (e, s) => .next (s.stop e)

/-- A transfer's target satisfies R164 for a code handle. -/
def targetOk (length target : Nat) : Bool :=
  target % 4 == 0 && decide (target + 4 ≤ length)

/-- LENGTH of the launch's code handle (R129). -/
def State.launchCodeLength (s : State) : Nat :=
  match s.core.job with
  | some j => j.code.length
  | none => 2 ^ 48

/-- LENGTH of the code handle in force: the supervisor's while privileged (R129, R418). -/
def State.codeLength (s : State) : Nat :=
  if s.core.priv then
    match s.supervisorCode with
    | some c => c.length
    | none => 0
  else s.launchCodeLength

/-- The return from a trap (R424): region boundary, unprivileged, PC := EPC; an EPC that fails R164 is a
fault while privileged. -/
def State.returnFromTrap (s : State) : Res State :=
  let len := s.launchCodeLength
  if s.core.epc.toNat % 4 ≠ 0 ∨ len < s.core.epc.toNat + 4 then .error (.trap 2 0, s)
  else
    s.between (fun s => .ok (s.upCore (fun c =>
      { c with priv := false, pc := BitVec.ofNat 48 c.epc.toNat })))

/-! ## Ordering (R352 to R356, R380) -/

/-- The acknowledgements of posted writes awaited, and the first held status raised (R356, R408). -/
def State.awaitPosted (s : State) (info : Word) : Res State :=
  if s.core.posted ≠ [] then .error (.wait .busy, s)
  else
    match s.core.held with
    | [] => .ok s
    | (_, st) :: l => .error (.trap st.toNat info, s.upCore (fun c => { c with held := l }))

/-- FENCE: every line written back and dropped, posted writes acknowledged (R320, R355, R408). -/
def State.fenceLines (s : State) (info : Word) : Res State :=
  match s.dropLines (fun _ => true) info with
  | .error e => .error e
  | .ok s => s.awaitPosted info

/-- A release at a scope: at system scope the FENCE before it (R356); at a narrower one dirty lines written back,
and the posted writes it may cover acknowledged, whose statuses stay held (R354, R408). -/
def State.release (s : State) (scope : Nat) (info : Word) : Res State :=
  if scope = 4 then s.fenceLines info
  else
    match s.flushLines info with
    | .error e => .error e
    | .ok s => if s.core.posted ≠ [] then .error (.wait .busy, s) else .ok s

/-- An acquire of a guard: at system scope the FENCE after it (R356); at a narrower one every dirty line is written
back, so that engine commands issued later read it (R353), and the lines that carry the guard are dropped
(R320). -/
def State.acquire (s : State) (guard scope : Nat) (info : Word) : Res State :=
  if scope = 4 then s.fenceLines info
  else
    match s.flushLines info with
    | .error e => .error e
    | .ok s => s.dropLines (fun l => l.guard == guard) info

/-! ## Tokens and queues -/

/-- Every command the strand's engines still hold. -/
def Core.queued (c : Core) : List Cmd := c.vq ++ c.mq ++ c.pq ++ c.cq

/-- Whether every engine command the strand has issued is complete (R171), those of a rolled-back region that run on
among them (R330), whose writes are acknowledged before its end (R407). -/
def Core.drained (c : Core) : Bool := c.queued.isEmpty

/-- The wait of R171 for the tokens of every engine command. -/
def State.waitOwn (s : State) : Res State := if s.core.drained then .ok s else .error (.wait .busy, s)

/-- The end of a strand by HALT (R424): every token and every acknowledgement awaited, no status of R408
raised, the line buffer written back and dropped, no release. -/
def State.haltNow (s : State) (status : Nat) : Res State :=
  match s.waitOwn with
  | .error e => .error e
  | .ok s =>
    if s.core.posted ≠ [] then .error (.wait .busy, s)
    else
      match s.dropLines (fun _ => true) 0 with
      | .error e => .error e
      | .ok s => .ok (s.endStrand status)

end Sys2Proof.Machine
end

