-- ==== Sys2Proof/Machine/Flags.lean ====
section
/-! DEFINITION. Flag computations (03 R70 to R72): the flags an instruction sets, and the results that
set them. -/

namespace Sys2Proof.Machine

/-- DivRem of R157: quotient, remainder and the flags set. -/
def divRem (x y : Word) (signed : Bool) : Word × Word × BitVec 5 :=
  if y = 0 then (BitVec.allOnes 64, x, if x = 0 then fINV else fDZ)
  else if signed then
    -- the one overflow, -2^63 / -1, wraps to -2^63 with remainder 0
    (BitVec.ofInt 64 (x.toInt.tdiv y.toInt), BitVec.ofInt 64 (x.toInt.tmod y.toInt), 0)
  else (BitVec.ofNat 64 (x.toNat / y.toNat), BitVec.ofNat 64 (x.toNat % y.toNat), 0)

/-- Flags of a floating-point compare by condition: 0 eq, 1 lt, 2 le, 3 un (R161). -/
def fcmpFlags (c : Nat) (a b : Val) : BitVec 5 :=
  if c = 1 ∨ c = 2 then (if a.isNaN || b.isNaN then fINV else 0) else nanFlags [a, b]

/-- The result of a floating-point compare (R161). -/
def fcmpHolds (c : Nat) (a b : Val) : Bool :=
  if a.isNaN || b.isNaN then c == 3
  else
    match c with
    | 0 => cmpV a b == 0
    | 1 => decide (cmpV a b < 0)
    | 2 => decide (cmpV a b ≤ 0)
    | _ => false

/-- The defined bits of FLAGS and FLAGEN (R70, R7). -/
def flagMask : Word := 0x1F

/-- FLAGS AND FLAGEN as TRAPF reads them (R180). -/
def State.enabledFlags (s : State) : Word := s.core.live.flags &&& s.core.live.flagen &&& flagMask

end Sys2Proof.Machine
end

