-- ==== Sys2Proof/Machine/Operands.lean ====
section
/-! DEFINITION. Operand forms (07 R137 to R144): literals, scalar operands, memory offsets, branch
targets, and the operand words of engine commands. -/

namespace Sys2Proof

/-- The literal words a literal-capable field announces (R138). -/
def litLen (code : BitVec 6) : Nat := if code = 62 then 1 else if code = 63 then 2 else 0

/-- Words of a format A instruction whose field b is literal-capable. -/
def OpA.len (o : OpA) : Nat := 1 + litLen o.b

/-- The sign-extended immediate of format I (R140). -/
def OpI.value (o : OpI) : Word := BitVec.signExtend 64 o.imm

/-- Bytes of an access by its size field (R142). -/
def OpM.bytes (o : OpM) : Nat := 2 ^ o.size.toNat

end Sys2Proof

namespace Sys2Proof.Machine

/-- A literal read as a 64-bit integer, address index or count (R138). -/
def litInt (code : BitVec 6) (l : Word) : Word :=
  if code = 62 then BitVec.signExtend 64 (l.extractLsb' 0 32) else l

/-- A literal-capable field read as an integer (R138). -/
def State.intOp (s : State) (code : BitVec 6) (l : Word) : Word :=
  if code = 62 ∨ code = 63 then litInt code l else s.getS code.toNat

/-- Operand a of format A (R139). -/
def State.opA (s : State) (o : OpA) : Word := s.getS o.a.toNat

/-- Operand b of format A read as an integer (R139, R156). -/
def State.opB (s : State) (o : OpA) : Word := s.intOp o.b o.lit

/-- An FP32 operand: bits 31 to 0 of a register (R160). -/
def f32 (w : Word) : Val := decodeVal .fp32 (w.toNat % 2 ^ 32)

/-- An FP64 operand. -/
def f64 (w : Word) : Val := decodeVal .fp64 w.toNat

/-- Whether the operand format is FP64. -/
def fpOf (dbl : Bool) : Fmt := if dbl then .fp64 else .fp32

/-- A register's value in a scalar floating-point format (R160). -/
def fpVal (dbl : Bool) (w : Word) : Val := if dbl then f64 w else f32 w

/-- Operand b of a scalar floating-point instruction: an FP64 operand of code 62 is an FP32 literal
(R138). -/
def State.fpB (s : State) (dbl : Bool) (o : OpA) : Val :=
  if o.b = 62 then f32 o.lit else if o.b = 63 then f64 o.lit else fpVal dbl (s.getS o.b.toNat)

/-- The offset a memory operand passes to ReadHandle: (index << scale) mod 2^64 (R142). -/
def State.memOff (s : State) (o : OpM) : Nat := (s.intOp o.x o.lit <<< o.scale.toNat).toNat

/-- The target of a format B transfer at a program counter (R141). It lies below zero where the
displacement takes it there. -/
def branchTarget (pc : BitVec 48) (disp : BitVec 16) : Int := (pc.toNat : Int) + 4 * disp.toInt

/-- A target as R164 checks it; one below zero fails as its value modulo 2^64 does. -/
def targetNat (t : Int) : Nat := wrapTo 64 t

/-- An operand word field of an engine command. -/
def wbits (w : W32) (hi lo : Nat) : Nat := bits w.toNat hi lo

/-- The literal-capable field of an engine command read as an integer (R138). -/
def State.opX (s : State) (o : OpE) : Word := s.intOp o.x o.lit

/-- A scalar register named by a field of an operand word. -/
def State.wordS (s : State) (w : W32) (hi lo : Nat) : Word := s.getS (wbits w hi lo)

end Sys2Proof.Machine
end

