-- ==== Sys2Proof/Machine/ScalarInt.lean ====
section
/-! DEFINITION. Scalar integer instructions (08 R156 to R159). -/

namespace Sys2Proof.Machine

/-- A format A instruction that writes one value and sets no flag (R156). -/
def State.alu (s : State) (o : OpA) (v : Word) : Outcome := .next ((s.setS o.d.toNat v).advance o.len)

/-- A format A instruction that writes one value and ORs flags (R72, R157). -/
def State.aluFlags (s : State) (o : OpA) (v : Word) (f : BitVec 5) : Outcome :=
  .next (((s.setS o.d.toNat v).orFlags f).advance o.len)

/-- A format I instruction (R159). -/
def State.aluI (s : State) (d : BitVec 6) (v : Word) : Outcome := .next ((s.setS d.toNat v).advance 1)

/-- A shift count: the operand modulo 64 (R156). -/
def shiftOf (b : Word) : Nat := b.toNat % 64

/-- Leading zero bits of a value; 64 for zero (R156). -/
def clz64 (a : Word) : Nat := if a = 0 then 64 else 63 - Nat.log2 a.toNat

/-- The lowest set bit's number, looked for in the `n` bits from bit `i` on. -/
def lowBit (a : Word) : Nat → Nat → Nat
  | 0, i => i
  | n + 1, i => if a.getLsbD i then i else lowBit a n (i + 1)

/-- Trailing zero bits of a value; 64 for zero (R156). -/
def ctz64 (a : Word) : Nat := lowBit a 64 0

/-- Bits set among the lowest `n` bits of a value (R156). -/
def popTo {w : Nat} (a : BitVec w) : Nat → Nat
  | 0 => 0
  | n + 1 => popTo a n + b2n (a.getLsbD n)

/-- Position and length of a field control (R158). -/
def fieldControl (b : Word) : Nat × Nat :=
  let p := bits b.toNat 5 0
  let n := bits b.toNat 14 8
  (p, if n = 0 ∨ n > 64 then 0 else if p + n > 64 then 64 - p else n)

/-- BEXT (R158). -/
def bitExtract (a b : Word) : Word :=
  let (p, n) := fieldControl b
  (a >>> p) &&& BitVec.ofNat 64 (2 ^ n - 1)

/-- BINS (R158). -/
def bitInsert (d a b : Word) : Word :=
  let (p, n) := fieldControl b
  let m : Word := BitVec.ofNat 64 (2 ^ n - 1) <<< p
  (d &&& ~~~m) ||| ((a <<< p) &&& m)

/-- ADD (R156). -/
def execAdd (o : OpA) (s : State) : Outcome := s.alu o (s.opA o + s.opB o)

/-- SUB (R156). -/
def execSub (o : OpA) (s : State) : Outcome := s.alu o (s.opA o - s.opB o)

/-- MUL (R156): bits 63 to 0 of the product. -/
def execMul (o : OpA) (s : State) : Outcome := s.alu o (s.opA o * s.opB o)

/-- MULHS (R156): bits 127 to 64 of the signed product. -/
def execMulhs (o : OpA) (s : State) : Outcome := s.alu o ((((s.opA o).signExtend 128 * (s.opB o).signExtend 128).extractLsb' 64 64))

/-- MULHU (R156): bits 127 to 64 of the unsigned product. -/
def execMulhu (o : OpA) (s : State) : Outcome := s.alu o ((((s.opA o).zeroExtend 128 * (s.opB o).zeroExtend 128).extractLsb' 64 64))

/-- DIVS (R157). -/
def execDivs (o : OpA) (s : State) : Outcome := 
  s.aluFlags o (divRem (s.opA o) (s.opB o) true).1 (divRem (s.opA o) (s.opB o) true).2.2

/-- DIVU (R157). -/
def execDivu (o : OpA) (s : State) : Outcome := 
  s.aluFlags o (divRem (s.opA o) (s.opB o) false).1 (divRem (s.opA o) (s.opB o) false).2.2

/-- REMS (R157). -/
def execRems (o : OpA) (s : State) : Outcome := 
  s.aluFlags o (divRem (s.opA o) (s.opB o) true).2.1 (divRem (s.opA o) (s.opB o) true).2.2

/-- REMU (R157). -/
def execRemu (o : OpA) (s : State) : Outcome := 
  s.aluFlags o (divRem (s.opA o) (s.opB o) false).2.1 (divRem (s.opA o) (s.opB o) false).2.2

/-- AND (R156). -/
def execAnd (o : OpA) (s : State) : Outcome := s.alu o (s.opA o &&& s.opB o)

/-- OR (R156). -/
def execOr (o : OpA) (s : State) : Outcome := s.alu o (s.opA o ||| s.opB o)

/-- XOR (R156). -/
def execXor (o : OpA) (s : State) : Outcome := s.alu o (s.opA o ^^^ s.opB o)

/-- ANDN (R156). -/
def execAndn (o : OpA) (s : State) : Outcome := s.alu o (s.opA o &&& ~~~(s.opB o))

/-- SHL (R156). -/
def execShl (o : OpA) (s : State) : Outcome := s.alu o (s.opA o <<< shiftOf (s.opB o))

/-- SHRL (R156). -/
def execShrl (o : OpA) (s : State) : Outcome := s.alu o (s.opA o >>> shiftOf (s.opB o))

/-- SHRA (R156). -/
def execShra (o : OpA) (s : State) : Outcome := s.alu o ((s.opA o).sshiftRight (shiftOf (s.opB o)))

/-- ROTL (R156). -/
def execRotl (o : OpA) (s : State) : Outcome := s.alu o ((s.opA o).rotateLeft (shiftOf (s.opB o)))

/-- MIN (R156). -/
def execMin (o : OpA) (s : State) : Outcome := s.alu o (if (s.opA o).slt (s.opB o) then s.opA o else s.opB o)

/-- MAX (R156). -/
def execMax (o : OpA) (s : State) : Outcome := s.alu o (if (s.opA o).slt (s.opB o) then s.opB o else s.opA o)

/-- MINU (R156). -/
def execMinu (o : OpA) (s : State) : Outcome := s.alu o (if (s.opA o).ult (s.opB o) then s.opA o else s.opB o)

/-- MAXU (R156). -/
def execMaxu (o : OpA) (s : State) : Outcome := s.alu o (if (s.opA o).ult (s.opB o) then s.opB o else s.opA o)

/-- CMPEQ (R156). -/
def execCmpeq (o : OpA) (s : State) : Outcome := s.alu o (b2w (s.opA o == s.opB o))

/-- CMPLT (R156). -/
def execCmplt (o : OpA) (s : State) : Outcome := s.alu o (b2w ((s.opA o).slt (s.opB o)))

/-- CMPLTU (R156). -/
def execCmpltu (o : OpA) (s : State) : Outcome := s.alu o (b2w ((s.opA o).ult (s.opB o)))

/-- CLZ (R156). -/
def execClz (o : OpA) (s : State) : Outcome := s.alu o (BitVec.ofNat 64 (clz64 (s.opA o)))

/-- CTZ (R156). -/
def execCtz (o : OpA) (s : State) : Outcome := s.alu o (BitVec.ofNat 64 (ctz64 (s.opA o)))

/-- POPC (R156). -/
def execPopc (o : OpA) (s : State) : Outcome := s.alu o (BitVec.ofNat 64 (popTo (s.opA o) 64))

/-- BEXT (R158). -/
def execBext (o : OpA) (s : State) : Outcome := s.alu o (bitExtract (s.opA o) (s.opB o))

/-- BINS (R158): d is read and written. -/
def execBins (o : OpA) (s : State) : Outcome := s.alu o (bitInsert (s.getS o.d.toNat) (s.opA o) (s.opB o))

/-- SEL (R156). -/
def execSel (q : BitVec 3) (o : OpA) (s : State) : Outcome :=
  s.alu o (if s.getQ q.toNat then s.opA o else s.opB o)

/-- ADDI (R159). -/
def execAddi (o : OpI) (s : State) : Outcome := s.aluI o.d (s.getS o.a.toNat + o.value)

/-- ANDI (R159). -/
def execAndi (o : OpI) (s : State) : Outcome := s.aluI o.d (s.getS o.a.toNat &&& o.value)

/-- ORI (R159). -/
def execOri (o : OpI) (s : State) : Outcome := s.aluI o.d (s.getS o.a.toNat ||| o.value)

/-- XORI (R159). -/
def execXori (o : OpI) (s : State) : Outcome := s.aluI o.d (s.getS o.a.toNat ^^^ o.value)

/-- CMPEQI (R159). -/
def execCmpeqi (o : OpI) (s : State) : Outcome := s.aluI o.d (b2w (s.getS o.a.toNat == o.value))

/-- CMPLTI (R159). -/
def execCmplti (o : OpI) (s : State) : Outcome := s.aluI o.d (b2w ((s.getS o.a.toNat).slt o.value))

/-- SHLI (R159). -/
def execShli (o : OpJ) (s : State) : Outcome := s.aluI o.d (s.getS o.a.toNat <<< (bits o.n.toNat 5 0))

/-- SHRLI (R159). -/
def execShrli (o : OpJ) (s : State) : Outcome := s.aluI o.d (s.getS o.a.toNat >>> (bits o.n.toNat 5 0))

/-- SHRAI (R159). -/
def execShrai (o : OpJ) (s : State) : Outcome := s.aluI o.d ((s.getS o.a.toNat).sshiftRight (bits o.n.toNat 5 0))

end Sys2Proof.Machine
end

