-- ==== Sys2Proof/Machine/Control.lean ====
section
/-! DEFINITION. Stage predicates, branches, calls, hardware loops, traps and region boundaries
(08 R163 to R168, R178, R180). -/

namespace Sys2Proof.Machine

/-! ## Shared operations -/

/-- A transfer with an effect: HANDLE_BOUNDS where the target fails R164, and then no effect; no handle is named
(R422). -/
def State.goto (s : State) (target : Nat) (f : State → State) : Res State :=
  if targetOk s.codeLength target then .ok ((f s).jump target)
  else .error (.trap 2 0, s)

/-- The target of a format B instruction at the program counter. -/
def State.target (s : State) (o : OpB) : Nat := targetNat (branchTarget s.core.pc o.disp)

/-- BR (R165). -/
def State.branch (s : State) (c : Bool) (o : OpB) : Outcome :=
  if c then retire (s.goto (s.target o) (fun s => s)) else .next (s.advance 1)

/-- A stage predicate instruction's result (R163). -/
def State.predicate (s : State) (o : OpA) (b : Bool) : Outcome := .next ((s.setQ o.d.toNat b).advance 1)

/-- A loop counter. -/
def State.getLc (s : State) (n : Nat) : W32 := s.core.live.lc.getD n 0

/-- The form of the loop that a counter counts (R464). -/
def State.setForm (s : State) (n : Nat) (pipe : Bool) : State :=
  s.upRegs (fun g => { g with lsp := upd false g.lsp n pipe })

/-- A loop counter and its iteration count written (R167, R463). -/
def State.setLoop (s : State) (n : Nat) (lc itc : W32) : State :=
  s.upRegs (fun g => { g with lc := upd 0 g.lc n lc, itc := upd 0 g.itc n itc })

/-- The value a count gives a loop counter, and the flags set (R167). -/
def loopCount (n : Word) : W32 × BitVec 5 :=
  if n.toInt ≤ 0 then (0, 0)
  else if n.toNat < 2 ^ 32 then (n.setWidth 32, 0)
  else (0xFFFFFFFF, fOVF)

/-- The registers a LOOPSP.init with n > 0 starts (R168). -/
def State.startPipe (s : State) : State := s.upRegs (fun g => { g with q := 1, rbs := 0, rbv := 0, rbk := 0 })

/-- All stage predicates cleared. -/
def State.clearQ (s : State) : State := s.upRegs (fun g => { g with q := 0 })

/-- The init forms (R167). -/
def State.loopStart (s : State) (n : Nat) (o : OpB) (pipe : Bool) : Outcome :=
  let c := s.getS o.a.toNat
  let (lc, f) := loopCount c
  if c.toInt ≤ 0 then
    retire (s.goto (s.target o) (fun s =>
      let s := (s.setLoop n 0 0).setForm n pipe
      if pipe then s.clearQ else s))
  else
    let s := ((s.setLoop n lc 0).setForm n pipe).orFlags f
    .next ((if pipe then s.startPipe else s).advance 1)

/-- A stop point (R460): a strand marked stop pending stops there in unprivileged mode. -/
def State.stopPoint (s : State) : State :=
  if s.core.stopPending && !s.core.priv then
    (s.traceLoop 1 s.core.pc).upCore (fun c => { c with stopPending := false, stopped := true })
  else s

/-- A counter lowered by one unless it is zero. -/
def decLc (x : W32) : W32 := if x = 0 then 0 else x - 1

/-- What follows a back-edge: its trace record and the stop point (R460, R464). -/
def State.afterBackEdge (s : State) (n : Nat) (pipe : Bool) (pc : BitVec 48) : State :=
  (s.trace 0 n (b2n pipe) (s.core.live.itc.getD n 0).toNat pc).stopPoint

/-- LOOP's back-edge (R167). -/
def State.backEdge (s : State) (n : Nat) (o : OpB) : Res State :=
  let lc := decLc (s.getLc n)
  let eff (s : State) := s.setLoop n lc (s.core.live.itc.getD n 0 + 1)
  let r : Res State := if lc ≠ 0 then s.goto (s.target o) eff else .ok ((eff s).advance 1)
  match r with
  | .ok t => .ok (t.afterBackEdge n false s.core.pc)
  | e => e

/-- A rotation base after a back-edge (R168). -/
def rotated (rb size : Nat) : Nat := if size = 0 then rb else (rb + size - 1) % size

/-- LOOPSP's back-edge with S stages (R168). -/
def State.backEdgePipe (s : State) (n stages : Nat) (o : OpB) : Res State :=
  let lc := decLc (s.getLc n)
  let l := s.core.lim
  let q : BitVec 8 := (s.core.live.q <<< 1) ||| (if lc ≠ 0 then 1 else 0)
  let taken := q.toNat % 2 ^ stages ≠ 0
  let eff (s : State) := (s.setLoop n lc (s.core.live.itc.getD n 0 + 1)).upRegs (fun g => { g with
    q := q
    rbs := rotated g.rbs l.rots
    rbv := rotated g.rbv l.rotv
    rbk := rotated g.rbk l.rotk })
  let r : Res State := if taken then s.goto (s.target o) eff else .ok ((eff s).advance 1)
  match r with
  | .ok t => .ok (t.afterBackEdge n true s.core.pc)
  | e => e

/-- A trap that resumes at the next instruction, of `len` words (R135). -/
def State.trapNext (s : State) (cause : Nat) (info : Word) (len : Nat) : State :=
  s.trapEntry cause info (s.core.pc + BitVec.ofNat 48 (4 * len)) false false

/-! ## Stage predicates -/

/-- QSET (R163). -/
def execQset (o : OpA) (s : State) : Outcome := s.predicate o (s.opA o != 0)

/-- QAND (R163). -/
def execQand (o : OpA) (s : State) : Outcome := s.predicate o (s.getQ o.a.toNat && s.getQ o.b.toNat)

/-- QOR (R163). -/
def execQor (o : OpA) (s : State) : Outcome := s.predicate o (s.getQ o.a.toNat || s.getQ o.b.toNat)

/-- QNOT (R163). -/
def execQnot (o : OpA) (s : State) : Outcome := s.predicate o (!s.getQ o.a.toNat)

/-! ## Branches and calls -/

/-- BR (R165). -/
def execBr (o : OpB) (s : State) : Outcome := s.branch true o

/-- BR.eqz (R165). -/
def execBrEqz (o : OpB) (s : State) : Outcome := s.branch (s.getS o.a.toNat == 0) o

/-- BR.nez (R165). -/
def execBrNez (o : OpB) (s : State) : Outcome := s.branch (s.getS o.a.toNat != 0) o

/-- BR.ltz (R165). -/
def execBrLtz (o : OpB) (s : State) : Outcome := s.branch (decide ((s.getS o.a.toNat).toInt < 0)) o

/-- BR.gez (R165). -/
def execBrGez (o : OpB) (s : State) : Outcome := s.branch (decide (0 ≤ (s.getS o.a.toNat).toInt)) o

/-- BR.gtz (R165). -/
def execBrGtz (o : OpB) (s : State) : Outcome := s.branch (decide (0 < (s.getS o.a.toNat).toInt)) o

/-- BR.lez (R165). -/
def execBrLez (o : OpB) (s : State) : Outcome := s.branch (decide ((s.getS o.a.toNat).toInt ≤ 0)) o

/-- BR.q (R165). -/
def execBrQ (o : OpB) (s : State) : Outcome := s.branch (s.getQ (bits o.a.toNat 2 0)) o

/-- BR.nq (R165). -/
def execBrNq (o : OpB) (s : State) : Outcome := s.branch (!s.getQ (bits o.a.toNat 2 0)) o

/-- JMP (R166). -/
def execJmp (o : OpA) (s : State) : Outcome := retire (s.goto (s.opB o).toNat (fun s => s))

/-- CALL (R166). -/
def execCall (o : OpA) (s : State) : Outcome :=
  retire (s.goto (s.opB o).toNat (fun s =>
    s.setS o.d.toNat (BitVec.zeroExtend 64 (s.core.pc + BitVec.ofNat 48 (4 * o.len)))))

/-- RET (R166). -/
def execRet (o : OpA) (s : State) : Outcome := retire (s.goto (s.opA o).toNat (fun s => s))

/-! ## Hardware loops -/

/-- LOOP.init (R167). -/
def execLoopInit (n : BitVec 2) (o : OpB) (s : State) : Outcome := s.loopStart n.toNat o false

/-- LOOP (R167). -/
def execLoop (n : BitVec 2) (o : OpB) (s : State) : Outcome := retire (s.backEdge n.toNat o)

/-- LOOPSP.init (R167, R168). -/
def execLoopspInit (n : BitVec 2) (o : OpB) (s : State) : Outcome := s.loopStart n.toNat o true

/-- LOOPSP (R168): S − 1 in a[2:0]. -/
def execLoopsp (n : BitVec 2) (o : OpB) (s : State) : Outcome :=
  retire (s.backEdgePipe n.toNat (bits o.a.toNat 2 0 + 1) o)

/-! ## Regions and traps -/

/-- NOP (R178). -/
def execNop (_o : OpA) (s : State) : Outcome := .next (s.advance 1)

/-- BRK (R178). -/
def execBrk (_o : OpA) (s : State) : Outcome := .next (s.trapEntry 0x15 0 s.core.pc false false)

/-- SYSCALL (R178). -/
def execSyscall (o : OpA) (s : State) : Outcome := .next (s.trapNext 0x16 (s.opB o) o.len)

/-- TRAPF (R180). -/
def execTrapf (_o : OpA) (s : State) : Outcome :=
  if s.enabledFlags ≠ 0 then .next (s.trapNext 0x14 s.enabledFlags 1) else .next (s.advance 1)

/-- RGN (R178). -/
def execRgn (_o : OpA) (s : State) : Outcome := retire (s.between (fun s => .ok (s.advance 1)))

end Sys2Proof.Machine
end

