-- ==== Sys2Proof/Machine/Fn.lean ====
section
/-! DEFINITION. The special functions of R218, R219 and R224 as exact values.
An irrational result is given as the midpoint of a cell of a grid of 2^-1200, which rounds as
the true number does unless that number lies within about 2^-1190 of a rounding boundary
(UNVERIFIED that no FP32 input does, log 22). -/

namespace Sys2Proof.Machine

/-- Scale of the fixed-point numbers below. -/
def fxOne : Nat := 2 ^ gridBits

/-- Sum of z^(2k+1)/(2k+1) for z = zn/zd, as fixed point; `t` is the running power. -/
def atanhSum : Nat → Nat → Nat → Nat → Nat → Nat → Nat
  | 0, _, _, _, _, acc => acc
  | fuel + 1, zn, zd, t, k, acc =>
    if t = 0 then acc
    else atanhSum fuel zn zd (t * (zn * zn) / (zd * zd)) (k + 2) (acc + t / k)

/-- Sum of (-1)^k / ((2k+1) n^(2k+1)), as fixed point: atan(1/n). -/
def atanSum : Nat → Nat → Nat → Nat → Bool → Int → Int
  | 0, _, _, _, _, acc => acc
  | fuel + 1, n, t, k, neg, acc =>
    if t = 0 then acc
    else atanSum fuel n (t / (n * n)) (k + 2) (!neg) (acc + signed neg (t / k))

/-- ln 2 in fixed point. -/
def fxLn2 : Nat := 2 * atanhSum 500 1 3 (fxOne / 3) 1 0

/-- pi in fixed point (Machin). -/
def fxPi : Nat :=
  (16 * atanSum 700 5 (fxOne / 5) 1 false 0 - 4 * atanSum 200 239 (fxOne / 239) 1 false 0).toNat

/-- Sum of t^k/k! in fixed point: e^t for 0 ≤ t < 1 or so. -/
def expSum : Nat → Nat → Nat → Nat → Nat → Nat
  | 0, _, _, _, acc => acc
  | fuel + 1, t, term, k, acc =>
    if term = 0 then acc else expSum fuel t (term * t / fxOne / k) (k + 1) (acc + term)

def fxExp (t : Nat) : Nat := expSum 400 t fxOne 1 0

/-- Alternating sum of t^k/k! over k, k+2, ...: sine from k = 1, cosine from k = 0. -/
def altSum : Nat → Nat → Nat → Nat → Bool → Int → Int
  | 0, _, _, _, _, acc => acc
  | fuel + 1, t, term, k, neg, acc =>
    if term = 0 then acc
    else altSum fuel t (term * t / fxOne * t / fxOne / ((k + 1) * (k + 2))) (k + 2) (!neg)
      (acc + signed neg term)

def fxSin (t : Nat) : Nat := (altSum 300 t t 1 false 0).toNat
def fxCos (t : Nat) : Nat := (altSum 300 t fxOne 0 false 0).toNat

/-- The midpoint of the grid cell of a fixed-point number. -/
def fxVal (s : Bool) (x : Nat) : Val := .fin s (2 * x + 1) (2 * fxOne)

/-- e^(n/d) for n/d < 840, in fixed point. -/
def fxExpQ (n d : Nat) : Nat :=
  let y := n * fxOne / d
  fxExp (y % fxLn2) * 2 ^ (y / fxLn2)

/-- 2^x (R219). -/
def exp2V (a : Val) : Val × BitVec 5 :=
  match a with
  | .nan _ => (.nan false, nanFlags [a])
  | .inf s => (if s then Val.zero else .inf false, 0)
  | .fin s n d =>
    if n ≥ 4096 * d then (if s then .fin false 1 (2 ^ 4096) else .fin false (2 ^ 4096) 1, 0)
    else
      let fl : Int := if s then -((n + d - 1) / d : Nat) else (n / d : Nat)
      let r := if s then (d - n % d) % d else n % d
      if r = 0 then (Val.scaled false 1 fl, 0)
      else
        let m := fxExp (r * fxLn2 / d)
        (Val.scaled false (2 * m + 1) (fl - (gridBits : Int) - 1), 0)

/-- log2 x (R219). -/
def log2V (a : Val) : Val × BitVec 5 :=
  match a with
  | .nan _ => (.nan false, nanFlags [a])
  | .inf s => if s then (.nan false, fINV) else (.inf false, 0)
  | .fin s n d =>
    if n = 0 then (.inf true, fDZ)
    else if s then (.nan false, fINV)
    else
      let e := floorLog2 n d
      let (p, q) := scalePair n d (-e)
      if p = q then (Val.ofInt e, 0)
      else
        let l := 2 * atanhSum 1000 (p - q) (p + q) ((p - q) * fxOne / (p + q)) 1 0
        let x : Int := e * (fxOne : Int) + (l * fxOne / fxLn2 : Nat)
        (.fin (decide (2 * x + 1 < 0)) (2 * x + 1).natAbs (2 * fxOne), 0)

/-- 1/x (R219). -/
def rcpV (a : Val) : Val × BitVec 5 := divV Val.one a

/-- 1/sqrt x (R219). -/
def rsqrtV (a : Val) : Val × BitVec 5 :=
  match a with
  | .nan _ => (.nan false, nanFlags [a])
  | .inf s => if s then (.nan false, fINV) else (Val.zero, 0)
  | .fin s n d =>
    if n = 0 then (.inf s, fDZ)
    else if s then (.nan false, fINV)
    else let r := sqrtPair d n; (.fin false r.1 r.2, 0)

/-- The quadrant and the remainder below a quarter turn of n/d turns. -/
def quadrant (n d : Nat) : Nat × Nat × Nat :=
  let m := n % d
  (4 * m / d, 4 * m % d, 4 * d)

/-- sin 2 pi x, x in turns (R219). -/
def sinV (a : Val) : Val × BitVec 5 :=
  match a with
  | .nan _ => (.nan false, nanFlags [a])
  | .inf _ => (.nan false, fINV)
  | .fin s n d =>
    if n = 0 then (.fin s 0 1, 0)
    else if 2 * n % d = 0 then (Val.zero, 0)
    else
      let (q, r, e) := quadrant n d
      if r = 0 then (.fin (s != (q == 3)) 1 1, 0)
      else
        let t := 2 * fxPi * r / e
        let v := if q % 2 = 0 then fxSin t else fxCos t
        (fxVal (s != decide (q ≥ 2)) v, 0)

/-- cos 2 pi x, x in turns (R219). -/
def cosV (a : Val) : Val × BitVec 5 :=
  match a with
  | .nan _ => (.nan false, nanFlags [a])
  | .inf _ => (.nan false, fINV)
  | .fin _ n d =>
    let (q, r, e) := quadrant n d
    if r = 0 then
      (if q = 0 then Val.one else if q = 2 then .fin true 1 1 else Val.zero, 0)
    else
      let t := 2 * fxPi * r / e
      let v := if q % 2 = 0 then fxCos t else fxSin t
      (fxVal (q == 1 || q == 2) v, 0)

/-- tanh x (R219). -/
def tanhV (a : Val) : Val × BitVec 5 :=
  match a with
  | .nan _ => (.nan false, nanFlags [a])
  | .inf s => (.fin s 1 1, 0)
  | .fin s n d =>
    if n = 0 then (.fin s 0 1, 0)
    else if n ≥ 416 * d then (.fin s (2 * fxOne - 1) (2 * fxOne), 0)
    else
      let e := fxExpQ (2 * n) d
      (.fin s (2 * (e - fxOne) + 1) (2 * (e + fxOne)), 0)

/-- 1/(1 + e^-x) (R219). -/
def sigV (a : Val) : Val × BitVec 5 :=
  match a with
  | .nan _ => (.nan false, nanFlags [a])
  | .inf s => (if s then Val.zero else Val.one, 0)
  | .fin s n d =>
    if n = 0 then (.fin false 1 2, 0)
    else if n ≥ 832 * d then (if s then .fin false 1 (2 * fxOne) else .fin false (2 * fxOne - 1) (2 * fxOne), 0)
    else
      let e := fxExpQ n d
      (.fin false (2 * (if s then fxOne else e) + 1) (2 * (e + fxOne)), 0)

end Sys2Proof.Machine
end

