-- ==== Sys2Proof/Machine/ScalarFp.lean ====
section
/-! DEFINITION. Scalar floating-point instructions (08 R160 to R162). `dbl` selects FP64. -/

namespace Sys2Proof.Machine

/-- A rounding of the sequencer: substream 0 advances, the flags are ORed in (R65, R70, R160). -/
def State.rounded (s : State) (f : Rnd → Nat × Rnd) : Nat × State :=
  let r := f ⟨s.core.sub.getD 0 0, 0⟩
  (r.1, (s.upCore (fun c => { c with sub := upd 0 c.sub 0 r.2.st })).orFlags r.2.fl)

/-- An operation that rounds its result into a format and writes it (R160). -/
def State.fpWrite (s : State) (f : Fmt) (m : Nat) (r : Val × BitVec 5) (o : OpA) : Outcome :=
  let x := s.rounded (finish f m (.reg false) r)
  .next ((x.2.setS o.d.toNat (BitVec.ofNat 64 x.1)).advance o.len)

/-- Operand a as a value. -/
def State.fpA (s : State) (dbl : Bool) (o : OpA) : Val := fpVal dbl (s.opA o)

/-- Operand d as a value (FFMA). -/
def State.fpD (s : State) (dbl : Bool) (o : OpA) : Val := fpVal dbl (s.getS o.d.toNat)

/-- The comparison of FCMP (R161). -/
def State.fpCompare (s : State) (dbl : Bool) (c : Nat) (o : OpA) : Outcome :=
  let a := s.fpA dbl o
  let b := s.fpB dbl o
  s.aluFlags o (b2w (fcmpHolds c a b)) (fcmpFlags c a b)

/-- The conversions of FCVT by the code in field b (R162). -/
def State.fpConvert (s : State) (dbl : Bool) (m : Nat) (o : OpA) : Outcome :=
  let f := fpOf dbl
  match o.b.toNat with
  | 0 => s.fpWrite f m (fpVal (!dbl) (s.opA o), 0) o
  | 1 => s.fpWrite f m (Val.ofInt (s.opA o).toInt, 0) o
  | 2 => s.fpWrite f m (Val.ofInt (s.opA o).toNat, 0) o
  | 3 => s.fpWrite (.int 64) m (s.fpA dbl o, 0) o
  | _ => s.fpWrite (.uint 64) m (s.fpA dbl o, 0) o

/-- FADD, FP32 (R160). -/
def execFadd (m : BitVec 3) (o : OpA) (s : State) : Outcome :=
  s.fpWrite (fpOf false) m.toNat (addV m.toNat (s.fpA false o) (s.fpB false o)) o

/-- FSUB, FP32 (R160). -/
def execFsub (m : BitVec 3) (o : OpA) (s : State) : Outcome :=
  s.fpWrite (fpOf false) m.toNat (addV m.toNat (s.fpA false o) (s.fpB false o).neg) o

/-- FMUL, FP32 (R160). -/
def execFmul (m : BitVec 3) (o : OpA) (s : State) : Outcome :=
  s.fpWrite (fpOf false) m.toNat (mulV (s.fpA false o) (s.fpB false o)) o

/-- FFMA, FP32 (R160). -/
def execFfma (m : BitVec 3) (o : OpA) (s : State) : Outcome :=
  s.fpWrite (fpOf false) m.toNat (fmaV m.toNat (s.fpA false o) (s.fpB false o) (s.fpD false o)) o

/-- FDIV, FP32 (R160). -/
def execFdiv (m : BitVec 3) (o : OpA) (s : State) : Outcome :=
  s.fpWrite (fpOf false) m.toNat (divV (s.fpA false o) (s.fpB false o)) o

/-- FSQRT, FP32 (R160). -/
def execFsqrt (m : BitVec 3) (o : OpA) (s : State) : Outcome :=
  s.fpWrite (fpOf false) m.toNat (sqrtV (s.fpA false o)) o

/-- FMIN, FP32 (R161). -/
def execFmin (_m : BitVec 3) (o : OpA) (s : State) : Outcome :=
  s.fpWrite (fpOf false) 0 (minV (s.fpA false o) (s.fpB false o)) o

/-- FMAX, FP32 (R161). -/
def execFmax (_m : BitVec 3) (o : OpA) (s : State) : Outcome :=
  s.fpWrite (fpOf false) 0 (maxV (s.fpA false o) (s.fpB false o)) o

/-- FCMP, FP32; m holds the condition (R161). -/
def execFcmp (m : BitVec 3) (o : OpA) (s : State) : Outcome := s.fpCompare false m.toNat o

/-- FCVT, FP32 (R162). -/
def execFcvt (m : BitVec 3) (o : OpA) (s : State) : Outcome := s.fpConvert false m.toNat o

/-- FADD, FP64 (R160). -/
def execFaddFp64 (m : BitVec 3) (o : OpA) (s : State) : Outcome :=
  s.fpWrite (fpOf true) m.toNat (addV m.toNat (s.fpA true o) (s.fpB true o)) o

/-- FSUB, FP64 (R160). -/
def execFsubFp64 (m : BitVec 3) (o : OpA) (s : State) : Outcome :=
  s.fpWrite (fpOf true) m.toNat (addV m.toNat (s.fpA true o) (s.fpB true o).neg) o

/-- FMUL, FP64 (R160). -/
def execFmulFp64 (m : BitVec 3) (o : OpA) (s : State) : Outcome :=
  s.fpWrite (fpOf true) m.toNat (mulV (s.fpA true o) (s.fpB true o)) o

/-- FFMA, FP64 (R160). -/
def execFfmaFp64 (m : BitVec 3) (o : OpA) (s : State) : Outcome :=
  s.fpWrite (fpOf true) m.toNat (fmaV m.toNat (s.fpA true o) (s.fpB true o) (s.fpD true o)) o

/-- FDIV, FP64 (R160). -/
def execFdivFp64 (m : BitVec 3) (o : OpA) (s : State) : Outcome :=
  s.fpWrite (fpOf true) m.toNat (divV (s.fpA true o) (s.fpB true o)) o

/-- FSQRT, FP64 (R160). -/
def execFsqrtFp64 (m : BitVec 3) (o : OpA) (s : State) : Outcome :=
  s.fpWrite (fpOf true) m.toNat (sqrtV (s.fpA true o)) o

/-- FMIN, FP64 (R161). -/
def execFminFp64 (_m : BitVec 3) (o : OpA) (s : State) : Outcome :=
  s.fpWrite (fpOf true) 0 (minV (s.fpA true o) (s.fpB true o)) o

/-- FMAX, FP64 (R161). -/
def execFmaxFp64 (_m : BitVec 3) (o : OpA) (s : State) : Outcome :=
  s.fpWrite (fpOf true) 0 (maxV (s.fpA true o) (s.fpB true o)) o

/-- FCMP, FP64; m holds the condition (R161). -/
def execFcmpFp64 (m : BitVec 3) (o : OpA) (s : State) : Outcome := s.fpCompare true m.toNat o

/-- FCVT, FP64 (R162). -/
def execFcvtFp64 (m : BitVec 3) (o : OpA) (s : State) : Outcome := s.fpConvert true m.toNat o

end Sys2Proof.Machine
end

