-- ==== Sys2Proof/Machine/ScalarMem.lean ====
section
/-! DEFINITION. Scalar memory: LD, ST, the handle instructions and the atomics
(13 R316 to R323, 15 R381 to R383, 04 R83). -/

namespace Sys2Proof.Machine

/-! ## Buffered stores (R317, R319) -/

/-- Whether a buffered store lies in the same memory as a view: this package by place, another by rank and
tenant address. -/
def SEntry.sameAs (e : SEntry) (v : View) : Bool :=
  e.view.local_ == v.local_ && (v.local_ || e.view.rank == v.rank)

/-- The newest buffered byte at a place, if any. -/
def bufferedByte (v : View) (a : Nat) : List SEntry → Option Byte → Option Byte
  | [], r => r
  | e :: l, r =>
    bufferedByte v a l (if e.sameAs v && decide (e.place ≤ a) && decide (a < e.place + e.bytes.length)
      then some (e.bytes.getD (a - e.place) 0) else r)

/-- The buffered bytes of an access. -/
def State.buffered (s : State) (v : View) (a n : Nat) : List (Option Byte) :=
  (List.range n).map (fun i => bufferedByte v (a + i) s.core.sbuf none)

/-- Buffered bytes laid over bytes from memory. -/
def overlay : List (Option Byte) → List Byte → List Byte
  | some b :: l, _ :: m => b :: overlay l m
  | none :: l, x :: m => x :: overlay l m
  | _, m => m

/-- The exact fault of an instruction of the sequencer that names a rank: TOKEN_ERROR through a rank that is not
VALID (R391), HANDLE_RIGHTS through one of scale-out (R399). -/
def State.rankStops (s : State) (rank : Nat) : Option Nat :=
  let e := (s.links.rank rank).toNat
  if !bit e 63 then some 1 else if bit e 62 then some 3 else none

/-- Where a view's offset lies as the store buffer names it: the place, or for another package the tenant
address there, once its rank may be reached. -/
def State.accessPlace (s : State) (v : View) (need : PageNeed) (info : Word) : Res (Nat × State) :=
  if v.local_ then s.viewPlace v v.off need info
  else
    match s.rankStops v.rank with
    | some c => .error (.trap c info, s.upCore (fun k => { k with remote := none }))
    | none => .ok (v.base + v.off, s)

/-- The same for a store: a rank that is not VALID does not stop it, for its status is held once it is posted (R318,
R408). -/
def State.storePlace (s : State) (v : View) (info : Word) : Res (Nat × State) :=
  if !v.local_ && s.rankStops v.rank == some 1 then .ok (v.base + v.off, s) else s.accessPlace v 2 info

/-- A plain load (R317). -/
def State.loadPlain (s : State) (v : View) (n : Nat) (info : Word) : Res (List Byte × State) :=
  match s.accessPlace v 1 info with
  | .error e => .error e
  | .ok (a, s) =>
    let b := s.buffered v a n
    let got : Res (List Byte × State) :=
      if b.all (fun x => x.isSome) then .ok (List.replicate n 0, s)
      else if !v.local_ then s.remoteGet .read v.rank a [] n info
      else if v.kind ≤ 1 then
        match s.ordRead s.domain a n info with
        | .error e => .error e
        | .ok bs => .ok (bs, s)
      else s.lineLoad a n v.guard info
    match got with
    | .error e => .error e
    | .ok (bs, s) => .ok (overlay b bs, s)

/-- The lines of another or this package the store buffer holds (R319). -/
def bufferLines : List SEntry → List (Bool × Nat × Nat)
  | [] => []
  | e :: l =>
    let k := (e.view.local_, if e.view.local_ then 0 else e.view.rank, e.place / 64)
    if (bufferLines l).contains k then bufferLines l else k :: bufferLines l

/-- A plain store (R317, R319): local memory at once, anything else into the store buffer. A poisoned line of this
package is consumed at the ST (R318). -/
def State.storePlain (s : State) (v : View) (bs : List Byte) (info : Word) : Res State :=
  match s.storePlace v info with
  | .error e => .error e
  | .ok (a, s) =>
    if v.kind = 0 then s.ordWrite s.domain a bs info
    else if v.local_ && s.bad s.domain (a / 64) then
      .error (.poison (a / 64) info, { s with mem := s.mem.mark (a / 64) })
    else
      let rsb := match s.core.job with
        | some j => min j.rsb 1024
        | none => 0
      let q := s.core.sbuf ++ [⟨v, a, bs⟩]
      if rsb < (bufferLines q).length then
        .error (.trap 0x13 (BitVec.ofNat 64 (bufferLines s.core.sbuf).length), s)
      else .ok (s.upCore (fun c => { c with sbuf := q }))

/-- The guard value of an accessed word (R352): its kind and 8-byte tenant address. -/
def wordGuard (v : View) : Nat := v.kind * 2 ^ 48 + (v.base + v.off) / 8 * 8

/-- The line buffer's line of a place written back and dropped. -/
def State.dropTarget (s : State) (v : View) (a : Nat) (info : Word) : Res State :=
  if v.local_ && decide (2 ≤ v.kind) then s.dropLines (fun l => l.line == a / 64) info else .ok s

/-- An acquire load's read at the point of order, the acquire with it (R317, R352). -/
def State.loadAcquire (s : State) (v : View) (n scope : Nat) (info : Word) : Res (List Byte × State) :=
  match s.accessPlace v 1 info with
  | .error e => .error e
  | .ok (a, s) =>
    match s.dropTarget v a info with
    | .error e => .error e
    | .ok s =>
      match s.acquire (wordGuard v) scope info with
      | .error e => .error e
      | .ok s =>
        if !v.local_ then s.remoteGet .read v.rank a [] n info
        else
          match s.ordRead s.domain a n info with
          | .error e => .error e
          | .ok bs => .ok (bs, s)

/-- A write at the point of order of a view: this package's memory, or posted to another. -/
def State.writeAt (s : State) (v : View) (a : Nat) (bs : List Byte) (info : Word) : Res State :=
  if v.local_ then s.ordWrite s.domain a bs info
  else if s.requestsFull then .error (.wait .room, s)
  else .ok (s.post v.rank a bs)

/-- A release store (R317, R352, R406). -/
def State.storeRelease (s : State) (v : View) (bs : List Byte) (scope : Nat) (info : Word) : Res State :=
  match s.storePlace v info with
  | .error e => .error e
  | .ok (a, s) =>
    match s.release scope info with
    | .error e => .error e
    | .ok s =>
      match s.dropTarget v a info with
      | .error e => .error e
      | .ok s => s.writeAt v a bs info

/-- The view of a scalar access: ReadHandle, then alignment (R316). -/
def State.scalarView (s : State) (h off n : Nat) (need : Right) : Res (View × State) :=
  match s.readHandle h off n need 0 with
  | .error e => .error e
  | .ok (v, s) => if off % n ≠ 0 then .error (.trap 2 (accessInfo off 0 h), s) else .ok (v, s)

/-- LD (R316). -/
def State.load (s : State) (o : OpM) : Res State :=
  let n := o.bytes
  let off := s.memOff o
  let info := accessInfo off 0 o.h.toNat
  match s.scalarView o.h.toNat off n .rd with
  | .error e => .error e
  | .ok (v, s) =>
    let put (r : Res (List Byte × State)) : Res State :=
      match r with
      | .error e => .error e
      | .ok (bs, s) => .ok ((s.setS o.t.toNat (BitVec.ofNat 64 (leNat bs))).advance (1 + litLen o.x))
    if o.order = 0 then put (s.loadPlain v n info)
    else s.between (fun s => put (s.loadAcquire v n o.scope.toNat info))

/-- ST (R316). -/
def State.store (s : State) (o : OpM) : Res State :=
  let n := o.bytes
  let off := s.memOff o
  let info := accessInfo off 0 o.h.toNat
  let bs := leBytes n (s.getS o.t.toNat).toNat
  match s.scalarView o.h.toNat off n .w with
  | .error e => .error e
  | .ok (v, s) =>
    let fin (r : Res State) : Res State :=
      match r with
      | .error e => .error e
      | .ok s => .ok (s.advance (1 + litLen o.x))
    if o.order = 0 then fin (s.storePlain v bs info)
    else s.between (fun s => fin (s.storeRelease v bs o.scope.toNat info))

/-- LD (R316). -/
def execLd (o : OpM) (s : State) : Outcome := retire (s.load o)

/-- ST (R316). -/
def execSt (o : OpM) (s : State) : Outcome := retire (s.store o)

/-! ## Handle instructions -/

/-- A handle register written. -/
def State.setH (s : State) (h : Nat) (r : HReg) : State := s.upRegs (fun g => { g with h := upd .empty g.h h r })

/-- HLoad (R83). -/
def State.handleLoad (s : State) (hd idx : Nat) : Res State :=
  let info := accessInfo 0 0 hd
  match s.core.job with
  | none => .error (.trap 2 info, s)
  | some j =>
    if j.admitted.length ≤ idx then .error (.trap 2 info, s)
    else
      let e := j.hlStart + idx
      let g := j.admitted.getD idx 0
      match s.ctx? j.ctx with
      | none => .error (.trap 4 info, s)
      | some c => if (c.entry e).gen ≠ g then .error (.trap 4 info, s) else .ok (s.setH hd (.valid e g))

/-- HLOAD (R321). -/
def execHload (o : OpA) (s : State) : Outcome :=
  retire (match s.handleLoad o.d.toNat (s.opB o).toNat with
    | .error e => .error e
    | .ok s => .ok (s.advance o.len))

/-- The word HQUERY returns for a selector (R322). -/
def queryWord (v : View) (sel : Nat) : Word :=
  match v.param with
  | some p =>
    if sel = 0 then
      BitVec.ofNat 64 (p.tag * 2 ^ 60 + 2 ^ 59 + b2n (v.guard != unguarded) * 2 ^ 58 + b2n v.local_ * 2 ^ 57 +
        v.kind % 4 * 2 ^ 55 + v.rights.toNat % 128 * 2 ^ 48 + v.length % 2 ^ 48)
    else BitVec.ofNat 64 (p.dim 0 + p.dim 1 * 2 ^ 16 + p.dim 2 * 2 ^ 32 + p.dim 3 * 2 ^ 48)
  | none =>
    if sel = 0 then
      BitVec.ofNat 64 (b2n (v.guard != unguarded) * 2 ^ 58 + b2n v.local_ * 2 ^ 57 +
        v.kind % 4 * 2 ^ 55 + v.rights.toNat % 128 * 2 ^ 48 + v.length % 2 ^ 48)
    else 0

/-- HQUERY (R322). -/
def execHquery (o : OpA) (s : State) : Outcome :=
  retire (match s.checkHandle o.a.toNat 0 0 true with
    | .error e => .error e
    | .ok (v, s) => .ok ((s.setS o.d.toNat (queryWord v o.b.toNat)).advance 1))

/-- The entry a handle register names. -/
def HReg.entry? : HReg → Option Nat
  | .empty => none
  | .built => none
  | .valid e _ => some e
  | .revoked e _ => some e

/-- A handle register emptied; the cached record leaves with its last register (R83, R321). -/
def State.dropHandle (s : State) (h : Nat) : State :=
  let r := s.core.live.h.getD h .empty
  let s := s.setH h .empty
  match r.entry? with
  | none => s
  | some e =>
    if s.core.live.h.any (fun r => r.entry? == some e) then s
    else s.upCore (fun c => { c with hcache := c.hcache.filter (fun x => x.entry != e) })

/-- HDROP (R321). -/
def execHdrop (o : OpA) (s : State) : Outcome := .next ((s.dropHandle o.a.toNat).advance 1)

/-! ## Atomics -/

/-- The new value an atomic writes, the flags it sets, and whether it writes (R381). `n` bytes. -/
def atomNew (aop n o v w : Nat) : Nat × BitVec 5 × Bool :=
  let m := 2 ^ (8 * n)
  let so := sext (8 * n) o
  let sv := sext (8 * n) v
  match aop with
  | 0 => ((o + v) % m, 0, true)
  | 1 => (o &&& v, 0, true)
  | 2 => (o ||| v, 0, true)
  | 3 => (o ^^^ v, 0, true)
  | 4 => (if so ≤ sv then o else v, 0, true)
  | 5 => (if so ≤ sv then v else o, 0, true)
  | 6 => (min o v, 0, true)
  | 7 => (max o v, 0, true)
  | 8 => (v, 0, true)
  | 9 => if o = v then (w, 0, true) else (o, 0, false)
  | _ =>
    let f := if n = 4 then Fmt.fp32 else Fmt.fp64
    let r := finish f 0 (.reg false) (addV 0 (decodeVal f o) (decodeVal f v)) ⟨0, 0⟩
    (r.1, r.2.fl, true)

/-- An operand of `n` bytes: the low bits of a register, or for 16 bytes an even pair, where register 0
reads as zero (R381, R382). -/
def State.atomOperand (s : State) (r n : Nat) : Nat :=
  if n = 16 then if r = 0 then 0 else (s.getS r).toNat + (s.getS (r + 1)).toNat * 2 ^ 64
  else (s.getS r).toNat % 2 ^ (8 * n)

/-- The old value written to the destination (R382, R383). -/
def State.atomResult (s : State) (t n v : Nat) : State :=
  if n = 16 then
    if t = 0 then s else (s.setS t (BitVec.ofNat 64 v)).setS (t + 1) (BitVec.ofNat 64 (v / 2 ^ 64))
  else s.setS t (BitVec.ofNat 64 v)

/-- ReadModifyWrite at the point of order (R383): the old value. -/
def State.modify (s : State) (v : View) (a aop n x w : Nat) (info : Word) : Res (Nat × State) :=
  if !v.local_ then
    match s.remoteGet .atomic v.rank a ([BitVec.ofNat 8 aop] ++ leBytes n x ++ leBytes n w) n info with
    | .error e => .error e
    | .ok (bs, s) => .ok (leNat bs, s)
  else
    match s.ordRead s.domain a n info with
    | .error e => .error e
    | .ok bs =>
      let o := leNat bs
      let (new, _, wr) := atomNew aop n o x w
      if wr then
        match s.ordWrite s.domain a (leBytes n new) info with
        | .error e => .error e
        | .ok s => .ok (o, s)
      else .ok (o, s)

/-- What follows the read-modify-write: the old value and the flags (R381, R383). -/
def State.atomDone (s : State) (o : OpM) (aop n x w len old : Nat) : State :=
  ((s.atomResult o.t.toNat n old).orFlags (atomNew aop n old x w).2.1).advance len

/-- What an atomic does between its two regions (R383). Its acquire is carried out with its release, before
the indivisible read-modify-write, so that nothing after that write can fail. -/
def State.atomAct (s : State) (o : OpM) (view : View) (aop n x w len : Nat) (info : Word) : Res State :=
  match s.accessPlace view 8 info with
  | .error e => .error e
  | .ok (a, s) =>
    match s.dropTarget view a info with
    | .error e => .error e
    | .ok s =>
      let rel : Res State := if o.order.getLsbD 1 then s.release o.scope.toNat info else .ok s
      match rel with
      | .error e => .error e
      | .ok s =>
        let acq : Res State :=
          if o.order.getLsbD 0 then s.acquire (wordGuard view) o.scope.toNat info else .ok s
        match acq with
        | .error e => .error e
        | .ok s =>
          match s.modify view a aop n x w info with
          | .error e => .error e
          | .ok (old, s) => .ok (s.atomDone o aop n x w len old)

/-- Atomic (R383). One that has been sent to another package only waits for its response: no check of its handle
follows its read-modify-write. -/
def State.atomic (s : State) (o : OpM) (v w : BitVec 6) (aop n : Nat) : Res State :=
  let off := s.memOff o
  let info := accessInfo off 0 o.h.toNat
  let x := s.atomOperand v.toNat n
  let y := s.atomOperand w.toNat n
  let len := 2 + litLen o.x
  match s.sentAtomic with
  | some r => s.between (fun s =>
    match s.remoteGet .atomic r.rank r.addr [] n info with
    | .error e => .error e
    | .ok (bs, s) => .ok (s.atomDone o aop n x y len (leNat bs)))
  | none =>
    match s.scalarView o.h.toNat off n .at with
    | .error e => .error e
    | .ok (view, s) => s.between (fun s => s.atomAct o view aop n x y len info)

/-- ATOM.add (R381, R383). -/
def execAtomAdd (o : OpM) (v w : BitVec 6) (s : State) : Outcome := retire (s.atomic o v w 0 o.bytes)

/-- ATOM.and (R381, R383). -/
def execAtomAnd (o : OpM) (v w : BitVec 6) (s : State) : Outcome := retire (s.atomic o v w 1 o.bytes)

/-- ATOM.or (R381, R383). -/
def execAtomOr (o : OpM) (v w : BitVec 6) (s : State) : Outcome := retire (s.atomic o v w 2 o.bytes)

/-- ATOM.xor (R381, R383). -/
def execAtomXor (o : OpM) (v w : BitVec 6) (s : State) : Outcome := retire (s.atomic o v w 3 o.bytes)

/-- ATOM.min (R381, R383). -/
def execAtomMin (o : OpM) (v w : BitVec 6) (s : State) : Outcome := retire (s.atomic o v w 4 o.bytes)

/-- ATOM.max (R381, R383). -/
def execAtomMax (o : OpM) (v w : BitVec 6) (s : State) : Outcome := retire (s.atomic o v w 5 o.bytes)

/-- ATOM.minu (R381, R383). -/
def execAtomMinu (o : OpM) (v w : BitVec 6) (s : State) : Outcome := retire (s.atomic o v w 6 o.bytes)

/-- ATOM.maxu (R381, R383). -/
def execAtomMaxu (o : OpM) (v w : BitVec 6) (s : State) : Outcome := retire (s.atomic o v w 7 o.bytes)

/-- ATOM.swap (R381, R383). -/
def execAtomSwap (o : OpM) (v w : BitVec 6) (s : State) : Outcome := retire (s.atomic o v w 8 o.bytes)

/-- ATOM.cas (R381, R383). -/
def execAtomCas (o : OpM) (v w : BitVec 6) (s : State) : Outcome := retire (s.atomic o v w 9 o.bytes)

/-- ATOM.fadd (R381, R383). -/
def execAtomFadd (o : OpM) (v w : BitVec 6) (s : State) : Outcome := retire (s.atomic o v w 10 o.bytes)

/-- ATOM2.swap (R382, R383). -/
def execAtom2Swap (o : OpM) (v w : BitVec 6) (s : State) : Outcome := retire (s.atomic o v w 8 16)

/-- ATOM2.cas (R382, R383). -/
def execAtom2Cas (o : OpM) (v w : BitVec 6) (s : State) : Outcome := retire (s.atomic o v w 9 16)

end Sys2Proof.Machine
end

