-- ==== Sys2Proof/Machine/Sync.lean ====
section
/-! DEFINITION. Tokens, groups, arrival barriers, guards and fences (15 R366 to R380). -/

namespace Sys2Proof.Machine

/-! ## Tokens -/

/-- The lowest token of a list, in rising order, that does not hold OK. -/
def State.firstError (s : State) (ks : List Nat) : Option Nat := ks.find? (fun k => (s.getK k).status != 0)

/-- KWait (R370): `ks` in rising order. -/
def State.tokenWait (s : State) (ks : List Nat) (len : Nat) : Res State :=
  if ks.any (fun k => (s.getK k).pend) then .error (.wait .busy, s)
  else
    match s.firstError ks with
    | some k => .error (.trapTok (s.getK k).status.toNat (statusWord k (s.getK k) false), s)
    | none => .ok (s.advance len)

/-- Three numbers in rising order. -/
def sort3 (a b c : Nat) : List Nat := insertNum (insertNum (insertNum [] a) b) c

/-- KWAIT (R370). -/
def execKwait (o : OpA) (s : State) : Outcome := retire (s.tokenWait (sort3 o.d.toNat o.a.toNat o.b.toNat) 1)

/-- KWAIT.all (R370). -/
def execKwaitAll (_o : OpA) (s : State) : Outcome := retire (s.tokenWait (List.range 32) 1)

/-- KTEST (R371). -/
def execKtest (o : OpA) (s : State) : Outcome := s.alu o (b2w (!(s.getK o.a.toNat).pend))

/-- KSTAT (R372). -/
def execKstat (o : OpA) (s : State) : Outcome := s.alu o (statusWord o.a.toNat (s.getK o.a.toNat) false)

/-- A completed token's status cleared (R372). -/
def State.clearTok (s : State) (k : Nat) : State :=
  let t := s.getK k
  if t.pend then s else s.upRegs (fun g => g.setTok (s.core.physK k) { t with status := 0, detail := 0 })

/-- KSTAT.clr (R372). -/
def execKstatClr (o : OpA) (s : State) : Outcome :=
  (s.clearTok o.a.toNat).alu o (statusWord o.a.toNat (s.getK o.a.toNat) false)

/-! ## Groups -/

/-- The productions of a list that a queue still holds. -/
def outstanding (q : List Cmd) (ps : List Nat) : List Nat := ps.filter (fun p => q.any (fun c => c.prod == p))

/-- The open group closed if it has a member (R373). -/
def State.closeGroup (s : State) : Res State :=
  let g := s.core.live
  if g.openGroup = [] then .ok s
  else if 32 ≤ g.closedGroups.length then .error (.wait .busy, s)
  else
    let ms := outstanding s.core.cq g.openGroup
    .ok (s.upRegs (fun g => { g with
      openGroup := []
      closedGroups := if ms = [] then g.closedGroups else g.closedGroups ++ [(g.nextGroup.toNat, ms)]
      nextGroup := g.nextGroup + 1 }))

/-- COMMIT (R373): the number of the last group closed. -/
def execCommit (o : OpA) (s : State) : Outcome :=
  retire (match s.closeGroup with
    | .error e => .error e
    | .ok s => .ok ((s.setS o.d.toNat (BitVec.zeroExtend 64 (s.core.live.nextGroup - 1))).advance 1))

/-- Group `g` lies at or before ticket `n` (R373). -/
def atOrBefore (g : Nat) (n : W32) : Bool := (n - BitVec.ofNat 32 g).toNat < 2 ^ 31

/-- WAITG (R373) for the closed groups that meet a condition. -/
def State.groupWait (s : State) (p : Nat → Bool) (len : Nat) : Res State :=
  match s.closeGroup with
  | .error e => .error e
  | .ok s =>
    if s.core.live.closedGroups.any (fun g => p g.1) then .error (.wait .busy, s) else .ok (s.advance len)

/-- WAITG (R373). -/
def execWaitg (o : OpA) (s : State) : Outcome :=
  retire (s.groupWait (fun g => atOrBefore g ((s.opB o).setWidth 32)) o.len)

/-- WAITG.all (R373). -/
def execWaitgAll (_o : OpA) (s : State) : Outcome := retire (s.groupWait (fun _ => true) 1)

/-! ## Arrival barriers -/

/-- A barrier's 16 bytes (R374). -/
structure Barrier where
  exp : Nat
  arr : Nat
  ph : Nat
  arm : Bool
  early : Bool
deriving DecidableEq, Repr

/-- A barrier as its bytes give it. -/
def Barrier.read (bs : List Byte) : Barrier where
  exp := field bs 0 4
  arr := field bs 4 4
  ph := field bs 8 1
  arm := bit (field bs 9 1) 0
  early := bit (field bs 10 1) 0

/-- A barrier's bytes. -/
def Barrier.bytes (b : Barrier) : List Byte :=
  leBytes 4 b.exp ++ leBytes 4 b.arr ++ leBytes 1 b.ph ++ leBytes 1 (b2n b.arm) ++ leBytes 1 (b2n b.early) ++
    List.replicate 5 0

/-- A barrier's fields put into its bytes, the reserved bits as they were (R374, R375). -/
def Barrier.into (b : Barrier) (bs : List Byte) : List Byte :=
  leBytes 4 b.exp ++ leBytes 4 b.arr ++ leBytes 1 b.ph ++ leBytes 1 (field bs 9 1 / 2 * 2 + b2n b.arm) ++
    leBytes 1 (field bs 10 1 / 2 * 2 + b2n b.early) ++ bs.drop 11

/-- The reserved bits of a barrier's bytes are zero (R374). -/
def barrierClean (bs : List Byte) : Bool :=
  field bs 9 1 / 2 == 0 && field bs 10 1 / 2 == 0 && field bs 11 5 == 0

/-- Complete (R375). -/
def Barrier.complete (b : Barrier) : Barrier :=
  let arr := b.arr - b.exp
  { b with ph := (b.ph + 1) % 256, arm := false, arr := arr, early := arr != 0 }

/-- Arrive (R375). -/
def Barrier.arrive (b : Barrier) (m : Nat) : Barrier :=
  let b := { b with arr := satAdd 0xFFFFFFFF b.arr m }
  if !b.arm then { b with early := true } else if b.exp ≤ b.arr then b.complete else b

/-- An arrival of `m` bytes on the barrier at a place. One in a poisoned line stays unchanged, and the consumption is
logged (R314, R432). -/
def State.arriveAt (s : State) (place m : Nat) : State :=
  if s.bad s.domain (place / 64) then ({ s with mem := s.mem.mark (place / 64) } : State).logConsumed (place / 64)
  else
    let bs := memRead s.mem.cells place 16
    { s with mem := { s.mem with cells := memWrite s.mem.cells place (((Barrier.read bs).arrive m).into bs) } }

/-- Whether a barrier offset keeps the rule of R374 within `len` bytes. -/
def barrierOffOk (off len : Nat) : Bool := off % 16 == 0 && decide (off + 16 ≤ len)

/-- LMBYTES of the strand. -/
def State.lmBytes (s : State) : Nat :=
  match s.core.job with
  | some j => j.lmBytes
  | none => 0

/-- The place of an offset of the strand's own local memory. -/
def State.lmAt (s : State) (off : Nat) : Nat :=
  match s.core.job with
  | some j => lmPlace s.coreId (j.lmBase + off)
  | none => lmPlace s.coreId off

/-- A barrier of the strand read, with the faults of R374; no handle is named (R422). -/
def State.readBarrier (s : State) (off : Nat) : Res (Barrier × State) :=
  if !barrierOffOk off s.lmBytes then .error (.trap 2 0, s)
  else
    match s.ordRead s.domain (s.lmAt off) 16 0 with
    | .error e => .error e
    | .ok bs => if barrierClean bs then .ok (Barrier.read bs, s) else .error (.trap 6 0, s)

/-- A barrier of the strand written. -/
def State.writeBarrier (s : State) (off : Nat) (b : Barrier) : State :=
  { s with mem := { s.mem with cells := memWrite s.mem.cells (s.lmAt off) b.bytes } }

/-- TRAPINFO of BARRIER_OVERRUN (R422). -/
def overrunInfo (count off : Nat) : Word := BitVec.ofNat 64 (count % 2 ^ 32 * 2 ^ 32 + off % 2 ^ 32)

/-- The value BINIT returns (R376). -/
def Barrier.ticket (b : Barrier) : Word := BitVec.ofNat 64 (b.arr * 2 ^ 32 + b2n b.early * 2 ^ 8 + b.ph)

/-- BInit (R376), with the destination register. -/
def State.armBarrier (s : State) (off n d : Nat) : Res State :=
  match s.readBarrier off with
  | .error e => .error e
  | .ok (b, s) =>
    if n = 0 ∨ 0xFFFFFFFF < n ∨ b.arm = true ∨ n < b.arr then .error (.trap 0x12 (overrunInfo n off), s)
    else
      let b' := { b with exp := n, arm := true, early := false }
      .ok ((s.setS d b.ticket).writeBarrier off (if b.arr = n then b'.complete else b'))

/-- BINIT (R376): a region boundary. -/
def execBinit (o : OpA) (s : State) : Outcome :=
  retire (s.between (fun s =>
    match s.armBarrier (s.opA o).toNat (s.opB o).toNat o.d.toNat with
    | .error e => .error e
    | .ok s => .ok (s.advance o.len)))

/-- The core groups of one cluster group (R94). -/
def Header.coreGroupsPer (h : Header) : Nat := ((h.ext.take h.kl).drop h.cl).foldl (· * ·) 1

/-- The LM share on a core that receives for the strand's cluster group: the one bound earliest (R335). -/
def State.receiver (s : State) (core : Nat) : Option Share :=
  match s.core.job with
  | none => none
  | some j =>
    let per := match s.launch? j.launch with
      | some l => l.hdr.coreGroupsPer
      | none => 1
    s.work.shares.find? (fun h => h.core == core && h.launch == j.launch && h.alone.isNone &&
      match h.coreGroup with
      | some g => g / max per 1 == j.group
      | none => false)

/-- The cores of the strand's cluster that a mask names. -/
def State.maskCores (s : State) (mask : Nat) : List Nat :=
  ((List.range 4).filter (fun j => bit mask j)).map (fun j => clusterOf s.coreId * 4 + j)

/-- The places of a barrier offset on the cores a mask names; none where a core holds no matching share. -/
def State.barrierPlaces (s : State) (off : Nat) : List Nat → Option (List Nat)
  | [] => some []
  | c :: l =>
    match s.receiver c, s.barrierPlaces off l with
    | some h, some ps => some (lmPlace c (h.off + off) :: ps)
    | _, _ => none

/-- BARRIVE (R377). -/
def State.arriveAll (s : State) (mask off n : Nat) : Res State :=
  if !barrierOffOk off s.lmBytes then .error (.trap 2 0, s)
  else if 0xFFFFFFFF < n then .error (.trap 0x12 (overrunInfo n off), s)
  else
    match s.fenceLines 0 with
    | .error e => .error e
    | .ok s =>
      match s.barrierPlaces off (s.maskCores mask) with
      | none => .error (.trap 1 0, s)
      | some ps =>
        match ps.find? (fun p => s.bad s.domain (p / 64)) with
        | some p => .error (.poison (p / 64) 0, { s with mem := s.mem.mark (p / 64) })
        | none =>
          if ps.any (fun p => !barrierClean (memRead s.mem.cells p 16)) then .error (.trap 6 0, s)
          else .ok (if n = 0 then s else ps.foldl (fun s p => s.arriveAt p n) s)

/-- BARRIVE (R377): a region boundary. -/
def execBarrive (o : OpA) (s : State) : Outcome :=
  retire (s.between (fun s =>
    match s.arriveAll (bits o.d.toNat 3 0) (s.opA o).toNat (s.opB o).toNat with
    | .error e => .error e
    | .ok s => .ok (s.advance o.len)))

/-- A phase count has passed a ticket (R378). -/
def phasePassed (ph t : Nat) : Bool :=
  let d := (ph + 256 - t) % 256
  decide (1 ≤ d) && decide (d ≤ 127)

/-- The ticket of BWAIT and BTEST: bits 7 to 0 of operand b (R378). -/
def State.ticketOf (s : State) (o : OpA) : Nat := (s.opB o).toNat % 256

/-- BWAIT (R378). -/
def execBwait (o : OpA) (s : State) : Outcome :=
  retire (match s.readBarrier (s.opA o).toNat with
    | .error e => .error e
    | .ok (b, s) => if phasePassed b.ph (s.ticketOf o) then .ok (s.advance o.len) else .error (.wait .busy, s))

/-- BTEST (R378). -/
def execBtest (o : OpA) (s : State) : Outcome :=
  retire (match s.readBarrier (s.opA o).toNat with
    | .error e => .error e
    | .ok (b, s) => .ok ((s.setS o.d.toNat (b2w (phasePassed b.ph (s.ticketOf o)))).advance o.len))

/-! ## Guards and fences -/

/-- The checks ACQ and REL make of their handle (R380): the guard, or none for an unguarded handle. The guard lies in
the package that minted the handle, which is this one, wherever the range lies (R352, R78); a range of scale-out is
refused (R399). -/
def State.guardOf (s : State) (h : Nat) : Res (Option Nat × State) :=
  let info := accessInfo 0 0 h
  match s.checkHandle h 0 0 with
  | .error e => .error e
  | .ok (v, s) =>
    if !v.local_ && !v.rights.getLsbD 5 then .error (.trap 3 info, s)
    else if !v.local_ && s.rankStops v.rank == some 3 then .error (.trap 3 info, s)
    else if v.guard = unguarded then .ok (none, s)
    else
      let t := match s.core.job with
        | some j => j.tenant
        | none => 0
      match s.translate t (v.guard % 2 ^ 48) (v.guard / 2 ^ 48 % 256) 0 info with
      | .error e => .error e
      | .ok (_, s) => .ok (some v.guard, s)

/-- ACQ between its regions (R380). -/
def State.acquireHandle (s : State) (h scope : Nat) : Res State :=
  match s.guardOf h with
  | .error e => .error e
  | .ok (some g, s) => s.acquire g scope (accessInfo 0 0 h)
  | .ok (none, s) => s.fenceLines (accessInfo 0 0 h)

/-- REL between its regions (R380). -/
def State.releaseHandle (s : State) (h scope : Nat) : Res State :=
  match s.guardOf h with
  | .error e => .error e
  | .ok (some _, s) => s.release scope (accessInfo 0 0 h)
  | .ok (none, s) => s.fenceLines (accessInfo 0 0 h)

/-- The program counter moved past a one-word instruction that succeeded. -/
def thenNext (r : Res State) : Res State :=
  match r with
  | .error e => .error e
  | .ok s => .ok (s.advance 1)

/-- ACQ (R380). -/
def execAcq (sc : BitVec 3) (o : OpA) (s : State) : Outcome :=
  retire (s.between (fun s => thenNext (s.acquireHandle o.a.toNat sc.toNat)))

/-- REL (R380). -/
def execRel (sc : BitVec 3) (o : OpA) (s : State) : Outcome :=
  retire (s.between (fun s => thenNext (s.releaseHandle o.a.toNat sc.toNat)))

/-- REL.k (R380): the listed tokens are awaited, not consumed. -/
def execRelK (sc : BitVec 3) (o : OpA) (s : State) : Outcome :=
  if (s.getK o.d.toNat).pend || (s.getK o.b.toNat).pend then retire (.error (.wait .busy, s))
  else retire (s.between (fun s => thenNext (s.releaseHandle o.a.toNat sc.toNat)))

/-- FENCE (R380). -/
def execFence (_sc : BitVec 3) (_o : OpA) (s : State) : Outcome :=
  retire (s.between (fun s => thenNext (s.fenceLines 0)))

end Sys2Proof.Machine
end

