-- ==== Sys2Proof/Machine/Strand.lean ====
section
/-! DEFINITION. Strand instructions and the end of a strand (06 R115 to R125, 08 R170 to R179). -/

namespace Sys2Proof.Machine

/-! ## Shared operations -/

/-- A strand marked stop pending stops before the instruction acts (R460); one whose region it has closed already
acts. -/
def State.stopsBefore (s : State) : Bool :=
  s.core.stopPending && !s.core.priv && !s.core.stopPassed && !s.core.closed

/-- The stop before an instruction (R460). -/
def State.stopHere (s : State) : State :=
  (s.traceLoop 1 s.core.pc).upCore (fun c => { c with stopPending := false, stopped := true, stopPassed := true })

/-- An instruction that has a stop point before it. -/
def State.atStopPoint (s : State) (r : Res State) : Outcome :=
  if s.stopsBefore then .next s.stopHere else retire r

/-- The stop point has been left behind. -/
def State.passStop (s : State) : State := s.upCore (fun c => { c with stopPassed := false })

/-- The region closes for an instruction after which this core holds no region of the strand, or which
opens the next one itself. -/
def State.closing (s : State) (act : State → Res State) : Res State :=
  match s.closeRegion with
  | .error e => .error e
  | .ok s => act (s.upCore Core.shut)

/-- The implied release of an instruction of R171: it acts as FENCE (R352), so every line is written back and
dropped and every posted write acknowledged, whatever its scope. -/
def State.impliedRelease (s : State) : Res State := s.fenceLines 0

/-- The record of the acting core's strand (R115, R169): it resumes at `pc` in the next region. -/
def State.record (s : State) (j : Job) (pc : BitVec 48) (scope : Nat) (y : Bool) (st : RecState) : Rec :=
  let g := s.core.live
  { strand := j.strand, launch := j.launch, group := j.group, coreGroup := j.coreGroup,
    cluster := clusterOf s.coreId, first := false, pc := pc, flags := g.flags.setWidth 5, state := st,
    workid := j.workid, s1 := s.getS 1, s2 := s.getS 2, s3 := s.getS 3, s4 := s.getS 4,
    lc0 := g.lc.getD 0 0, pipe0 := g.lsp.getD 0 false, qs := g.q, rot := BitVec.ofNat 5 g.rbv, rseq := s.core.rseq + 1, scope := scope,
    y := y, core := some s.coreId, readyAt := if y then s.stepNo else j.readyAt, save := none }

/-- The record enters the pool and the core falls idle. A share the strand holds alone is freed unless it
resumes with it (R116). The record says nothing of privilege: a strand that suspends while privileged resumes
unprivileged, at its PC in the launch's code (log 61). -/
def State.park (s : State) (j : Job) (r : Rec) : State :=
  let s := { s with work := { s.work with pool := s.work.pool ++ [r] } }
  let s := (s.upCore Core.idle).gangLeft j.launch
  if r.scope = 0 then s else s.freeShares (fun h => h.launch == j.launch && h.alone == some j.strand)

/-! ## SUSPEND and WATCH -/

/-- SUSPEND (R172). -/
def State.suspend (s : State) (sc : Nat) (y : Bool) : Res State :=
  match s.core.job with
  | none => .ok s
  | some j =>
    match s.waitOwn with
    | .error e => .error e
    | .ok s => s.closing (fun s =>
      match s.impliedRelease with
      | .error e => .error e
      | .ok s => .ok (s.park j (s.record j (s.core.pc + 4) sc y .ready)))

/-- SUSPEND (R172). -/
def execSuspend (sc : BitVec 2) (_o : OpA) (s : State) : Outcome := s.atStopPoint (s.suspend sc.toNat false)

/-- SUSPEND.yield (R172). -/
def execSuspendYield (sc : BitVec 2) (_o : OpA) (s : State) : Outcome := s.atStopPoint (s.suspend sc.toNat true)

/-- The physical bank of a BM place (R12, R291). -/
def bankOf (pa : Nat) : Nat := (pa - bmBase) / 2 ^ 23

/-- CompareAndJoin (R119, R173): whether the strand joins the watch list of the word. -/
def State.joins (s : State) (pa : Nat) (expected : Word) : Bool :=
  leNat (memRead s.mem.cells pa 8) == expected.toNat &&
    decide ((s.mem.watchers.filter (fun w => bankOf w.word == bankOf pa && !w.hit)).length < 64)

/-- Watch between its regions (R173). -/
def State.watchAct (s : State) (j : Job) (v : View) (expected : Word) (sc len : Nat) (info : Word) : Res State :=
  match s.impliedRelease with
  | .error e => .error e
  | .ok s =>
    match s.viewPlace v v.off 1 info with
    | .error e => .error e
    | .ok (pa, s) =>
      match s.ordRead s.domain pa 8 info with
      | .error e => .error e
      | .ok _ =>
        if s.joins pa expected then
          let r := s.record j (s.core.pc + BitVec.ofNat 48 (4 * len)) sc false .watching
          let w : Watcher := ⟨pa, j.strand, v.entry.getD 0, false⟩
          let s := s.park j r
          .ok { s with mem := { s.mem with watchers := s.mem.watchers ++ [w] } }
        else .ok ((s.passStop.advance len).upCore Core.openRegion)

/-- Watch (R173). -/
def State.watch (s : State) (sc : Nat) (o : OpA) : Res State :=
  let h := o.d.toNat
  let off := (s.opB o).toNat
  let info := accessInfo off 0 h
  match s.readHandle h off 8 .rd 0 with
  | .error e => .error e
  | .ok (v, s) =>
    if v.kind ≠ 2 ∨ v.local_ = false then .error (.trap 3 info, s)
    else if off % 8 ≠ 0 then .error (.trap 2 info, s)
    else
      match s.core.job with
      | none => .ok s
      | some j =>
        match s.waitOwn with
        | .error e => .error e
        | .ok s => s.closing (fun s => s.watchAct j v (s.opA o) sc o.len info)

/-- WATCH (R173). -/
def execWatch (sc : BitVec 2) (o : OpA) (s : State) : Outcome := s.atStopPoint (s.watch sc.toNat o)

/-! ## SPAWN and LAUNCH -/

/-- Records a cluster's pool holds, and strands of the cluster that run (R121). -/
def State.poolCount (s : State) (cl : Nat) : Nat := (s.work.pool.filter (fun r => r.cluster == cl)).length

/-- Strands that run on the cores of a cluster. -/
def State.runningIn (s : State) (cl : Nat) : Nat :=
  ((List.range 4).filter (fun i => (s.coreAt (cl * 4 + i)).job.isSome)).length

/-- Places of a strand pool (R121). -/
def poolPlaces : Nat := 512

/-- Whether the pool has room for a spawned record (R121). -/
def State.spawnRoom (s : State) : Bool :=
  decide (s.runningIn (clusterOf s.coreId) + s.poolCount (clusterOf s.coreId) + 1 ≤ poolPlaces)

/-- A counter of an association list raised by one. -/
def countUp (l : List (Nat × Nat)) (k : Nat) : List (Nat × Nat) := insertKey l k ((lookup l k).getD 0 + 1)

/-- The record of a spawned strand (R121, R174). -/
def State.spawned (s : State) (j : Job) (entry a : Nat) : Rec :=
  { strand := s.work.nextStrand, launch := j.launch, group := j.group, coreGroup := none,
    cluster := clusterOf s.coreId, first := false, pc := BitVec.ofNat 48 entry, flags := 0, state := .ready,
    workid := j.workid, s1 := s.getS a, s2 := s.getS (a + 1), s3 := s.getS (a + 2), s4 := s.getS (a + 3),
    lc0 := 0, qs := 0, rot := 0, rseq := s.core.rseq + 1, scope := 1, y := false, core := some s.coreId,
    readyAt := s.stepNo, save := none }

/-- SPAWN between its regions (R174). -/
def State.spawnAct (s : State) (j : Job) (entry a d : Nat) : Res State :=
  match s.impliedRelease with
  | .error e => .error e
  | .ok s =>
    if s.spawnRoom then
      let r := s.spawned j entry a
      let s := { s with work := { s.work with pool := s.work.pool ++ [r], nextStrand := s.work.nextStrand + 1 } }
      let s := s.upLaunch j.launch (fun l => { l with
        live := l.live + 1, groupLeft := countUp l.groupLeft j.group, spawned := l.spawned ++ [r.strand] })
      .ok (s.setS d 1)
    else .ok (s.setS d 0)

/-- SPAWN (R174): its entry is one of the launch's code, through whose handle the spawned strand fetches (R129). -/
def execSpawn (o : OpA) (s : State) : Outcome :=
  let entry := (s.opB o).toNat
  if !targetOk s.launchCodeLength entry then retire (.error (.trap 2 0, s))
  else
    retire (s.between (fun s =>
      match s.core.job with
      | none => .ok (s.advance o.len)
      | some j =>
        match s.spawnAct j entry o.a.toNat o.d.toNat with
        | .error e => .error e
        | .ok s => .ok (s.advance o.len)))

/-! ## Reads the device makes for a context -/

/-- The outcome of such a read: bytes, a translation miss, or a failure for good, with the line found poisoned if
that was the cause. -/
inductive DevRead where
  | ok (bs : List Byte)
  | miss (m : Miss)
  | bad (line : Option Nat)
deriving DecidableEq, Repr

/-- A failure of any cause. -/
def DevRead.isBad : DevRead → Bool
  | .bad _ => true
  | _ => false

/-- A line that such a read found poisoned is marked in place (R313). -/
def State.marked (s : State) (line : Option Nat) : State :=
  match line with
  | some l => { s with mem := s.mem.mark l }
  | none => s

/-- Bytes of a context's memory read by the launch unit as one unit within one page (R97, R105, R126): the page grants
what is needed and lies within CAPACITY (R291, R297); the unit stalls at a granule in transit (R442). -/
def State.devRead (s : State) (c : Ctx) (ta kind n : Nat) (need : PageNeed := 1) : DevRead :=
  match s.walk c.tenant ta kind with
  | .miss why => .miss ⟨ta, c.tenant, kind == 2, need, why, 0⟩
  | .at f z r _ =>
    let pa := pagePlace f z ta
    if (pageFault s.xl.capacity kind f z ta r need).isSome then .bad none
    else
      match (linesOf pa n).find? (s.bad (s.keyFor c)) with
      | some l => .bad (some l)
      | none =>
        match s.transit? pa n with
        | some g => .miss ⟨ta, c.tenant, kind == 2, need, 7, BitVec.ofNat 64 g⟩
        | none => .ok (memRead s.mem.cells pa n)

/-- PRIO of the header at a place of a context's memory, 0 when its CTL byte cannot be read at once (R104); a line or
a walk line that the read finds poisoned is marked or logged (R313, R444). -/
def State.readPrio (s : State) (place : Option (Ctx × Nat × Nat)) : Nat × State :=
  match place with
  | none => (0, s)
  | some (c, kind, ta) =>
    match s.devRead c (ta + 3) kind 1 with
    | .ok bs => (bits (field bs 0 1) 5 4, s)
    | .bad l => (0, s.marked l)
    | .miss m => (0, if m.reason = 6 then s.logRec .walkPoison c.tenant (ta + 3) s.cycle.toNat else s)

/-- Entries of a function's queue (R101). -/
def queueSize : Nat := 64

/-- The generation of an entry of a context's table (R76). -/
def State.entryGen (s : State) (ctx e : Nat) : Nat :=
  match s.ctx? ctx with
  | some c => (c.entry e).gen
  | none => 0

/-- A device-side launch placed in the function's queue, and the result of LAUNCH (R102, R175). -/
def State.enqueueDevice (s : State) (j : Job) (v : View) : Word × State :=
  let q := (lookup s.work.queues j.fn).getD []
  if queueSize ≤ q.length then (0x47, s)
  else
    let (prio, depth) := match s.launch? j.launch with
      | some l => (l.prio, l.depth)
      | none => (0, 0)
    let (p, s) := s.readPrio (if v.local_ ∧ 2 ≤ v.kind then (s.ctx? j.ctx).map (fun c => (c, v.kind, v.base + v.off))
      else none)
    let e : Queued := {
      ctx := j.ctx, kind := 0, hentry := v.entry.getD 0, hoff := v.off, nodes := 0,
      prio := min p prio, depth := depth + 1, device := true, enteredAt := s.stepNo, bad := false,
      replay := none, view := some v, waitsFor := none, refused := false, gen := s.entryGen j.ctx (v.entry.getD 0),
      held := none, seen := none, root := none }
    (0, { s with work := { s.work with queues := insertKey s.work.queues j.fn (q ++ [e]) } })

/-- LAUNCH between its regions (R175). -/
def State.launchAct (s : State) (j : Job) (v : View) (d : Nat) : Res State :=
  match s.impliedRelease with
  | .error e => .error e
  | .ok s =>
    let (r, s) := s.enqueueDevice j v
    .ok (s.setS d r)

/-- LAUNCH (R175). -/
def execLaunch (o : OpA) (s : State) : Outcome :=
  retire (match s.readHandle o.a.toNat (s.opB o).toNat 256 .rd 0 with
    | .error e => .error e
    | .ok (v, s) =>
      match s.waitOwn with
      | .error e => .error e
      | .ok s => s.between (fun s =>
        match s.core.job with
        | none => .ok (s.advance o.len)
        | some j =>
          match s.launchAct j v o.d.toNat with
          | .error e => .error e
          | .ok s => .ok (s.advance o.len)))

/-! ## SPLITCHK -/

/-- The clusters of a partition (R107). -/
def State.partClusters (s : State) (p : Nat) : List Nat :=
  let m := leNat ((s.part.iDescr.drop (64 * p)).take 24)
  (List.range 192).filter (fun c => bit m c)

/-- The route of a steal request (R124): the other cores of the thief's cluster, the other clusters of its
die from the next one on, the other dies from the next one on. -/
def stealRoute (core : Nat) (clusters : List Nat) : List Nat :=
  let cl := clusterOf core
  let d := dieOf core
  let own := (List.range 3).map (fun i => cl * 4 + (core + 1 + i) % 4)
  let near := (List.range 23).map (fun i => d * 24 + (cl + 1 + i) % 24)
  let far := (List.range 7).flatMap (fun i => (List.range 24).map (fun c => (d + 1 + i) % 8 * 24 + c))
  own ++ ((near ++ far).filter (fun c => clusters.contains c)).flatMap
    (fun c => (List.range 4).map (fun j => c * 4 + j))

/-- SendSteal (R123). -/
def State.sendSteal (s : State) (j : Job) : State :=
  let part := match s.launch? j.launch with
    | some l => l.part
    | none => 0
  let t : Steal := {
    id := s.links.nextReq, launch := j.launch, thief := j.strand,
    route := stealRoute s.coreId (s.partClusters part), granted := none, back := false }
  ({ s with steals := s.steals ++ [t], links := { s.links with nextReq := s.links.nextReq + 1 } } : State).upCore
    (fun c => { c with thief := true })

/-- A held steal request served (R123): the upper half of the range granted, or the request passed on. -/
def State.serveSteal (s : State) (id : Nat) : State :=
  let s := s.upCore (fun c => { c with heldSteals := c.heldSteals.filter (fun i => i != id) })
  let c := (s.core.live.rnghi - s.core.live.rnglo).toNat
  if 2 ≤ c then
    let m := s.core.live.rnghi - BitVec.ofNat 64 (c / 2)
    let hi := s.core.live.rnghi
    ({ s with steals := s.steals.map (fun (t : Steal) =>
        if t.id = id then { t with granted := some (m, hi), back := true } else t) } : State).upRegs
      (fun g => { g with rnghi := m })
  else s

/-- A thief whose request has come back (R123): the granted range becomes its own. -/
def State.thiefBack (s : State) : State :=
  let s := s.upCore (fun c => { c with thief := false, stealReturned := false, grant := none })
  s

/-- SplitChk between its regions (R123). -/
def State.splitAct (s : State) (j : Job) : Res State :=
  if s.core.thief then
    if s.core.stealReturned then
      match s.core.grant with
      | some (lo, hi) => .ok (s.thiefBack.upRegs (fun g => { g with rnglo := lo, rnghi := hi }))
      | none => .ok s.thiefBack
    else .error (.wait .steal, s)
  else if s.core.live.rnghi ≤ s.core.live.rnglo then .error (.wait .steal, s.sendSteal j)
  else
    match s.core.heldSteals with
    | [] => .ok s
    | id :: _ => .ok (s.serveSteal id)

/-- SPLITCHK (R123, R176). -/
def execSplitchk (_o : OpA) (s : State) : Outcome :=
  retire (s.between (fun s =>
    match s.core.job with
    | none => .ok (s.advance 1)
    | some j =>
      if j.mode ≠ 2 then .ok (s.advance 1)
      else thenNext (s.splitAct j)))

/-! ## SSTEP -/

/-- Arrival at the barrier of a stepped launch (R125). -/
def State.arriveStep (s : State) (j : Job) : Res State :=
  match s.impliedRelease with
  | .error e => .error e
  | .ok s =>
    let s := s.upLaunch j.launch (fun l => { l with
      arrived := insertNum l.arrived j.strand, arrivedAt := s.cycle.toNat })
    .error (.wait .barrier, s.upCore (fun c => { c with atBarrier := true }))

/-- SSTEP in a stepped launch, between its regions (R125). -/
def State.stepAct (s : State) (j : Job) : Res State :=
  if s.core.atBarrier then
    let waits := match s.launch? j.launch with
      | some l => l.arrived.contains j.strand
      | none => false
    if waits then .error (.wait .barrier, s)
    else
      match s.dropLines (fun _ => true) 0 with
      | .error e => .error e
      | .ok s => .ok (s.upCore (fun c => { c with atBarrier := false }))
  else s.arriveStep j

/-- SSTEP (R125, R177). -/
def State.superstep (s : State) : Res State :=
  match s.waitOwn with
  | .error e => .error e
  | .ok s => s.between (fun s =>
    match s.core.job with
    | none => .ok (s.advance 1)
    | some j =>
      let r := if j.mode = 1 then s.stepAct j else s.impliedRelease
      match r with
      | .error e => .error e
      | .ok s => .ok (s.passStop.advance 1))

/-- SSTEP (R125, R177). -/
def execSstep (_o : OpA) (s : State) : Outcome := s.atStopPoint s.superstep

/-! ## The end of a strand -/

/-- A strand's status at EXIT (R474): that of the lowest logical token holding an error. -/
def State.exitStatus (s : State) : Nat :=
  match s.firstError (List.range 32) with
  | some k => (s.getK k).status.toNat
  | none => 0

/-- EXIT (R179, R407, R408). -/
def State.exit (s : State) : Res State :=
  match s.waitOwn with
  | .error e => .error e
  | .ok s => s.closing (fun s =>
    match s.impliedRelease with
    | .error e => .error e
    | .ok s => .ok (s.endStrand s.exitStatus))

/-- EXIT (R179). -/
def execExit (_o : OpA) (s : State) : Outcome := s.atStopPoint s.exit

end Sys2Proof.Machine
end

