-- ==== Sys2Proof/Machine/Priv.lean ====
section
/-! DEFINITION. The privileged instructions of major 0x3E (20 R424, 23 R462, R466, R467). -/

namespace Sys2Proof.Machine

/-- TRAPINFO of PRIV (R422). -/
def privInfo (w : W32) (csr : Nat) : Word := w ++ BitVec.ofNat 32 (csr % 4096)

/-- An operation only the supervisor may carry out: PRIV for a strand (R134). -/
def State.privOnly (s : State) (w : W32) (csr : Nat) (r : Res State) : Outcome :=
  if s.core.priv then retire r else retire (.error (.trap 0x11 (privInfo w csr), s))

/-- The first word of an instruction. -/
def firstWord (i : Instr) : W32 := (encode i).headD 0

/-- ERET (R424). -/
def execEret (o : OpA) (s : State) : Outcome := s.privOnly (firstWord (.eret o)) 0 s.returnFromTrap

/-- HALT: the tokens awaited before it acts (R432), its region closed, and the strand ended (R424). -/
def State.halt (s : State) : Res State :=
  match s.waitOwn with
  | .error e => .error e
  | .ok s => s.closing (fun s => s.haltNow (s.core.trapCause.toNat % 256))

/-- HALT (R424). -/
def execHalt (o : OpA) (s : State) : Outcome := s.privOnly (firstWord (.halt o)) 0 s.halt

/-- Whether core `n` lies within a scope of the acting core: 0 core, 1 cluster, 2 die, 3 device (R466). -/
def State.within (s : State) (sc n : Nat) : Bool :=
  match sc with
  | 0 => n == s.coreId
  | 1 => clusterOf n == clusterOf s.coreId
  | 2 => dieOf n == dieOf s.coreId
  | _ => true

/-- Instruction-cache lines of a tenant that hold a tenant address invalidated (R467). -/
def Core.dropCode (c : Core) (tenant a : Nat) : Core :=
  { c with icache := c.icache.filter (fun l => !(l.tenant == tenant && l.line == a / 64 * 64)) }

/-- The invalidation of ICINV and CODEPATCH on every core within a scope (R467). -/
def State.dropCodeIn (s : State) (sc tenant a : Nat) : State :=
  { s with
    core := s.core.dropCode tenant a
    parked := s.parked.map (fun p => if s.within sc p.1 then (p.1, p.2.dropCode tenant a) else p) }

/-- The tenant of the acting core's strand. -/
def State.tenant (s : State) : Nat :=
  match s.core.job with
  | some j => j.tenant
  | none => 0

/-- CodePatch and, without a word, ICINV (R467). -/
def State.codePatch (s : State) (o : OpA) (word : Option W32) : Res State :=
  let b := (s.opB o).toNat
  let sc := b % 4
  let off := b - sc
  let h := o.a.toNat
  let info := accessInfo off 0 h
  match s.readHandle h off 4 (if word.isSome then .cwx else .rdx) 0 with
  | .error e => .error e
  | .ok (v, s) => s.between (fun s =>
    let written : Res State :=
      match word with
      | none => .ok s
      | some w =>
        match s.accessPlace v 2 info with
        | .error e => .error e
        | .ok (a, s) =>
          match s.dropTarget v a info with
          | .error e => .error e
          | .ok s =>
            if v.local_ then s.ordWrite s.domain a (leBytes 4 w.toNat) info
            else
              match s.remoteGet .write v.rank a (leBytes 4 w.toNat) 4 info with
              | .error e => .error e
              | .ok (_, s) => .ok s
    match written with
    | .error e => .error e
    | .ok s => .ok ((s.dropCodeIn sc s.tenant (v.base + off)).advance o.len))

/-- ICINV (R467). -/
def execIcinv (o : OpA) (s : State) : Outcome := s.privOnly (firstWord (.icinv o)) 0 (s.codePatch o none)

/-- CODEPATCH (R467). -/
def execCodepatch (o : OpA) (s : State) : Outcome :=
  s.privOnly (firstWord (.codepatch o)) 0 (s.codePatch o (some ((s.getS o.d.toNat).setWidth 32)))

/-- DBGSTOP (R462): outside DEBUG it has no effect. -/
def execDbgstop (o : OpA) (s : State) : Outcome :=
  s.privOnly (firstWord (.dbgstop o)) 0
    (.ok ((if s.trust.lcNow = .debug then s.upCore (fun c => { c with stopPending := true }) else s).advance 1))

end Sys2Proof.Machine
end

