-- ==== Sys2Proof/Machine/Engine.lean ====
section
/-! DEFINITION. What the four engines share: issue, queues, tokens, completion, the roll of a command's
units, and packed elements in local memory (03 R53, R54, R66; 13 R324; 15 R366). -/

namespace Sys2Proof

/-- The code of an engine, and its place among the table runs (R251). -/
def Eng.code : Eng → Nat
  | .matrix => 0
  | .plait => 1
  | .vector => 2
  | .copy => 3

/-- The engine of a code (R251). -/
def Eng.ofCode (n : Nat) : Eng :=
  match n with
  | 0 => .matrix
  | 1 => .plait
  | 2 => .vector
  | _ => .copy

/-- The substream of an engine (R65). -/
def Eng.stream : Eng → Nat
  | .vector => 1
  | .matrix => 2
  | .plait => 3
  | .copy => 4

/-- The consumed tokens of an engine command. -/
def OpE.cons (o : OpE) : List Nat := [o.ka.toNat, o.kb.toNat, o.kc.toNat]

end Sys2Proof

namespace Sys2Proof.Machine

/-! ## Queues -/

/-- An engine's queue. -/
def Core.queue (c : Core) : Eng → List Cmd
  | .matrix => c.mq
  | .plait => c.pq
  | .vector => c.vq
  | .copy => c.cq

/-- An engine's queue changed. -/
def Core.setQueue (c : Core) (e : Eng) (q : List Cmd) : Core :=
  match e with
  | .matrix => { c with mq := q }
  | .plait => { c with pq := q }
  | .vector => { c with vq := q }
  | .copy => { c with cq := q }

/-- Entries of an engine's queue (R154). -/
def queueEntries : Nat := 32

/-- One command of a queue changed, by its production. -/
def State.upCmd (s : State) (e : Eng) (prod : Nat) (f : Cmd → Cmd) : State :=
  s.upCore (fun c => c.setQueue e ((c.queue e).map (fun x => if x.prod = prod then f x else x)))

/-- A command as the queue now holds it. -/
def State.cmd? (s : State) (e : Eng) (prod : Nat) : Option Cmd := (s.core.queue e).find? (fun c => c.prod == prod)

/-! ## Issue -/

/-- What a command waits for on one consumed token: nothing for k0, the pending production, or the status
already there (R457). -/
def State.bind (s : State) (k : Nat) : List Wait :=
  if k = 0 then []
  else
    let t := s.getK k
    if t.pend then [.on t.prod (s.core.physK k)] else [.done t.status]

/-- A scalar operand field of the first operand word of an engine command (R239, R274): x, y, z, u. -/
def State.opField (s : State) (o : OpE) (k : Nat) : Word :=
  if k = 0 then s.opX o else s.getS (bits o.w1.toNat (27 - 6 * k) (22 - 6 * k))

/-- The values of the scalar operands of a vector, matrix or plait command, in field order (R468); a run of registers in
the order of their numbers. -/
def State.operandsOf (s : State) (i : Instr) : List Word :=
  let run (r n : Nat) : List Word := (List.range n).map (fun k => s.getS (r + k))
  match i with
  | .vld o | .vst o | .vextr o | .vslideUp o | .vslideDn o => run o.b.toNat 1
  | .vlds o | .vsts o => run o.b.toNat 2
  | .vchain o => run o.b.toNat 5
  | .vbcast o | .viota o => run o.a.toNat 1
  | .vins o => run o.a.toNat 1 ++ run o.b.toNat 1
  | .mldw o | .mmul o | .mmulc o => (List.range 3).map (s.opField o)
  | .mlda o | .mret o | .plload o | .plsolve o | .pldrain o => (List.range 2).map (s.opField o)
  | .pldrainLm o => [2, 3].map (s.opField o)
  | .plqr o | .plapply o | .plapplySw o | .plrot o | .plvec o => (List.range 4).map (s.opField o)
  | .tblstart _ o | .tblbase _ o => [s.opA o, s.opB o]
  | _ => []

/-- Issue into a queue (R154, R366, R457): it stalls while the queue is full or kd is pending. `tags`: those its
result gives; `snap`: the handle registers a copy run takes. -/
def State.issue (s : State) (e : Eng) (i : Instr) (kd : Nat) (cons : List Nat) (scal : List Word)
    (views : List View) (len : Nat) (tags : List (Nat × Nat)) (snap : List HReg) : Res State :=
  if queueEntries ≤ (s.core.queue e).length then .error (.wait (.full e), s)
  else if (s.getK kd).pend = true then .error (.wait .busy, s)
  else
    let p := s.core.prod
    let ph := s.core.physK kd
    let c : Cmd := {
      instr := i, prod := p, rseq := s.core.rseq, tok := if kd = 0 then none else some (ph, kd),
      waits := cons.flatMap s.bind, scal := scal, operands := s.operandsOf i, views := views, rbv := s.core.live.rbv, rbs := s.core.live.rbs,
      started := false, cursor := 0, fl := 0, fail := none, paused := none, orphan := false, pieces := [],
      tags := tags, snap := snap, wrote := [], part := 0 }
    let s := s.upCore (fun k => ({ k with prod := p + 1 } : Core).setQueue e (k.queue e ++ [c]))
    let s := if kd = 0 then s else s.upRegs (fun g => g.setTok ph ⟨true, 0, 0, p⟩)
    .ok (s.advance len)

/-- The words of an engine command with `n` operand words. -/
def cmdLen (n : Nat) (lit : Bool) (o : OpE) : Nat := 1 + n + if lit then litLen o.x else 0

/-! ## Completion -/

/-- A production's token completed in a register copy, if it still waits for it. -/
def Regs.finish (g : Regs) (p : Nat) (tok : Option (Nat × Nat)) (st : BitVec 8) (det : BitVec 40) : Regs :=
  let g := match tok with
    | some (ph, _) =>
      let t := g.k.getD ph Tok.reset
      if t.pend ∧ t.prod = p then g.setTok ph ⟨false, st, det, 0⟩ else g
    | none => g
  let gs := g.closedGroups.map (fun x => (x.1, x.2.filter (fun m => m != p)))
  { g with closedGroups := gs.filter (fun x => !x.2.isEmpty) }

/-- Flags merged into a register copy (R72). -/
def Regs.orFlags (g : Regs) (fl : BitVec 5) : Regs := { g with flags := g.flags ||| BitVec.zeroExtend 64 fl }

/-- A wait that a production's completion settles. -/
def Wait.settle (p : Nat) (st : BitVec 8) : Wait → Wait
  | .on q ph => if q = p then .done st else .on q ph
  | w => w

/-- Every queued command's waits on a production settled. -/
def Core.settle (c : Core) (p : Nat) (st : BitVec 8) : Core :=
  let f (x : Cmd) : Cmd := { x with waits := x.waits.map (Wait.settle p st) }
  { c with vq := c.vq.map f, mq := c.mq.map f, pq := c.pq.map f, cq := c.cq.map f }

/-- A command leaves its queue (R366, R72, R373): token, waits, group and flags. One of a region already
closed also completes in the region's checkpoint; one whose region was rolled back changes no register
(R330). -/
def Core.complete (c : Core) (e : Eng) (x : Cmd) (st : BitVec 8) (det : BitVec 40) (fl : BitVec 5) : Core :=
  let c := (c.setQueue e ((c.queue e).filter (fun y => y.prod != x.prod))).settle x.prod st
  if x.orphan then c
  else
    let f (g : Regs) : Regs := (g.finish x.prod x.tok st det).orFlags fl
    { c with
      live := f c.live
      ckpt := if c.inRegion x.rseq then c.ckpt else f c.ckpt }

/-- The status word of a containment trap (R372, R432). -/
def poisonWord (knum : Nat) (old : Bool) : Word :=
  BitVec.ofNat 64 (9 * 2 ^ 16 + b2n old * 2 ^ 9 + knum)

/-- Valid clean bytes of a line within a range of places are dropped (R320). -/
def LineBuf.dropClean (l : LineBuf) (a n : Nat) : LineBuf :=
  let hit (i : Nat) : Bool := decide (a ≤ l.line * 64 + i) && decide (l.line * 64 + i < a + n)
  let m := BitVec.ofNat 64 ((List.range 64).foldl (fun t i => if hit i then t + 2 ^ i else t) 0)
  { l with valid := l.valid &&& (~~~m ||| l.dirty) }

/-- The line buffer after a copy command that wrote the given places completed (R320). -/
def Core.dropWritten (c : Core) (w : List (Nat × Nat)) : Core :=
  { c with lines := (w.foldl (fun ls p => ls.map (fun l => l.dropClean p.1 p.2)) c.lines).filter (fun l =>
      l.valid != 0) }

/-- The end of a command with a status. -/
def State.finishCmd (s : State) (e : Eng) (x : Cmd) (st : Nat) (det : BitVec 40) : State :=
  let y := (s.cmd? e x.prod).getD x
  let s := if e = .vector then s.countFor s.core.job 0x30 1 else s
  s.upCore (fun c => (c.complete e x (BitVec.ofNat 8 st) det y.fl).dropWritten y.wrote)

/-- The end of a command that consumed poison: completion, then containment unless its region was already
rolled back (R368, R432). -/
def State.poisonCmd (s : State) (e : Eng) (x : Cmd) (line : Nat) : State :=
  let t := s.finishCmd e x 9 0
  if x.orphan then t.logConsumed line
  else
    let knum := match x.tok with
      | some (_, k) => k
      | none => 0
    t.contain line (poisonWord knum (!s.core.inRegion x.rseq)) true

/-- A command ends or rests at unit `i` for a reason: an error status, poison, a translation miss on which
it pauses (R328, R415), or a wait. -/
def State.restCmd (s : State) (e : Eng) (x : Cmd) (i : Nat) (r : Stop) : State :=
  match r with
  | .trap c info => s.finishCmd e x c (info.setWidth 40)
  | .trapTok c info => s.finishCmd e x c (info.setWidth 40)
  | .poison l _ => s.poisonCmd e x l
  | .miss m =>
    let (w, s) := (s.countFor s.core.job 0x50 1).pageRequest m (some x.prod)
    s.upCmd e x.prod (fun y => { y with cursor := i, paused := w, full := if w.isNone then some m else none, part := 0 })
  | .wait w => (s.upCmd e x.prod (fun y => { y with cursor := i, part := 0 })).noteHeld s.coreId (x.prod + 1) w

/-- A command whose miss found no free entry asks again (R416). -/
def State.askCmd (s : State) (e : Eng) (x : Cmd) : Option State :=
  match x.full with
  | none => none
  | some m =>
    match s.pageRequest m (some x.prod) with
    | (some i, s) => some (s.upCmd e x.prod (fun y => { y with paused := some i, full := none }))
    | (none, _) => none

/-- What a unit ends with: one that waits for the memory has done nothing (R363). -/
def unitRest (s : State) (r : Stop × State) : Stop × State :=
  match r.1 with
  | .wait w => if w.held then (.wait w, s) else r
  | _ => r

/-- What one unit of a command does. -/
abbrev UnitFn := Cmd → Nat → State → Res State

/-- The requests of the `n` units of a command that stands at unit `i` wait with it, each counted where it meets a granule
in transit (R458); 4096 of them at most are made (R324). -/
def State.unitsWait (s : State) (f : UnitFn) (x : Cmd) (i n : Nat) : State :=
  if s.sweep.retiringNow then
    (List.range (min 4096 (n - i))).foldl (fun t k =>
      match f x (i + k) s with
      | .error (.wait w, _) => t.noteHeld s.coreId (x.prod + 1) w
      | _ => t) s
  else s

/-- A unit that could not end leaves its command at unit `i` of `n`. -/
def State.unitRests (s : State) (f : UnitFn) (e : Eng) (x : Cmd) (i n : Nat) (r : Stop × State) : State :=
  let q := unitRest s r
  let t := q.2.restCmd e x i q.1
  match q.1 with
  | .wait (.transit _) => t.unitsWait f x i n
  | _ => t

/-- Units `i` onwards of a command, `k` of them, and then its completion. -/
def State.runUnits (f : UnitFn) (e : Eng) (x : Cmd) : Nat → Nat → State → State
  | 0, _, s => s.finishCmd e x 0 0
  | k + 1, i, s =>
    match f x i s with
    | .ok s => State.runUnits f e x k (i + 1) (s.upCmd e x.prod (fun y => { y with part := 0 }))
    | .error r => s.unitRests f e x i (i + k + 1) r

/-- One unit of a command of `n` units, and its completion if it was the last. -/
def State.runUnit (f : UnitFn) (e : Eng) (x : Cmd) (n i : Nat) (s : State) : State :=
  if n ≤ i then s.finishCmd e x 0 0
  else
    match f x i s with
    | .ok s =>
      if n ≤ i + 1 then s.finishCmd e x 0 0 else s.upCmd e x.prod (fun y => { y with cursor := i + 1, part := 0 })
    | .error r => s.unitRests f e x i n r

/-- Whether every token a command consumes is complete. -/
def Cmd.ready (c : Cmd) : Bool :=
  c.paused.isNone && c.full.isNone && c.waits.all (fun w => match w with
    | .on _ _ => false
    | .done _ => true)

/-- Whether a consumed token completed with an error (R368). -/
def Cmd.broken (c : Cmd) : Bool := c.waits.any (fun w => w != .done 0)

/-- Flags added to a command. -/
def State.cmdFlags (s : State) (e : Eng) (prod : Nat) (fl : BitVec 5) : State :=
  s.upCmd e prod (fun c => { c with fl := c.fl ||| fl })

/-- The substream an engine rounds with. -/
def State.stream (s : State) (e : Eng) : Word := s.core.sub.getD e.stream 0

/-- A copy command draws from the copy engine's substream, or, if the engine has since reached a later region,
from the state that its own region left (R66). -/
def Core.drawsOld (c : Core) (x : Cmd) : Bool :=
  c.subSeq.getD Eng.copy.stream 0 != x.rseq && (lookup c.oldSubs x.rseq.toNat).isSome

/-- The substream state a copy command draws from. -/
def State.copyStream (s : State) (x : Cmd) : Word :=
  if s.core.drawsOld x then (lookup s.core.oldSubs x.rseq.toNat).getD 0 else s.stream .copy

/-- What a unit's roundings leave: the substream advanced, the flags in the command. -/
def State.rounding (s : State) (e : Eng) (prod : Nat) (c : Rnd) : State :=
  (s.upCore (fun k => { k with sub := upd 0 k.sub e.stream c.st })).cmdFlags e prod c.fl

/-- What a rounding of a copy command leaves: its substream advanced, the flags in the command. -/
def State.copyRounding (s : State) (x : Cmd) (c : Rnd) : State :=
  if s.core.drawsOld x then
    (s.upCore (fun k => { k with oldSubs := insertKey k.oldSubs x.rseq.toNat c.st })).cmdFlags .copy x.prod c.fl
  else s.rounding .copy x.prod c

/-- The states that the copy engine keeps for commands of regions it has passed (R66). -/
def Core.keepSub (c : Core) : List (Nat × Word) :=
  let q := (c.subSeq.getD Eng.copy.stream 0).toNat
  (insertKey c.oldSubs q (c.sub.getD Eng.copy.stream 0)).filter (fun p =>
    c.cq.any (fun x => x.started && x.rseq.toNat == p.1))

/-- The engine reaches a command of a region (R66, R247, R284): its substream is seeded for the region, and
the checkpoints of the matrix and plait arrays and of their table runs are taken. -/
def Core.reach (c : Core) (e : Eng) (rseq : BitVec 48) : Core :=
  let j := e.stream
  let w := match c.job with
    | some j => j.workid
    | none => 0
  let c := if c.subSeq.getD j 0 = rseq then c
    else { c with
      oldSubs := if e = .copy then c.keepSub else c.oldSubs
      sub := upd 0 c.sub j (seedOf w (BitVec.zeroExtend 64 rseq) j)
      subSeq := upd 0 c.subSeq j rseq }
  let i := e.code
  let t := upd TableRun.reset c.tablesCkpt i (c.tables.getD i TableRun.reset)
  match e with
  | .matrix =>
    if c.matSeq = rseq then c
    else { c with matSeq := rseq, arraysCkpt := c.arraysCkpt.restoreMatrix c.arrays, tablesCkpt := t }
  | .plait =>
    if c.plaitSeq = rseq then c
    else { c with plaitSeq := rseq, arraysCkpt := c.arraysCkpt.restorePlait c.arrays, tablesCkpt := t }
  | _ => c

/-! ## Command logs (R468) -/

/-- The words of a logged command: six words, zero beyond its length. -/
def logWords (i : Instr) : List Byte :=
  (List.range 6).flatMap (fun k => leBytes 4 ((encode i).getD k 0).toNat)

/-- The log entry an engine writes when a command starts, while its log runs. -/
def State.logStart (s : State) (e : Eng) (x : Cmd) : State :=
  if !(s.trust.debugOpen && s.core.cmdLog.getD e.code false) then s
  else
    let log := s.dbg.log.toNat
    let size := bits log 34 24 * 65536
    if size < s.dbg.logPos + 64 then
      ({ s with dbg := { s.dbg with err := true } } : State).upCore (fun c =>
        { c with cmdLog := upd false c.cmdLog e.code false })
    else
      let scal := (List.range 4).flatMap (fun k => leBytes 8 (x.operands.getD k 0).toNat)
      let bs := logWords x.instr ++ leBytes 8 (s.stream e).toNat ++ scal
      let s := s.platformWrite (bmBase + bits log 8 0 * 2 ^ 25 + s.dbg.logPos) bs
      { s with dbg := { s.dbg with
          logPos := s.dbg.logPos + 64
          logged := s.dbg.logged ++ [(e.code, s.stream e, x)] } }

/-! ## Local memory of the engines -/

/-- A replay runs on the acting core (R468). -/
def State.replaysHere (s : State) : Bool :=
  match s.dbg.replaying with
  | some (c, _) => c == s.coreId
  | none => false

/-- Whether an access of a replayed command leaves the LM share (R468). -/
def State.leavesLm (s : State) (off n : Nat) : Bool :=
  s.replaysHere && match s.core.job with
    | some j => decide (j.lmBytes < off + n)
    | none => true

/-- A command broke its bounds: in a replay ERR is set, which ends it (R468). -/
def State.broken (s : State) : State :=
  if s.replaysHere then { s with dbg := { s.dbg with err := true } } else s

/-- Bytes of the strand's local memory read by an engine: poison ends the command (R238). -/
def State.lmRead (s : State) (off n : Nat) : Res (List Byte) :=
  if s.leavesLm off n then .error (.trap 2 0, s.broken) else s.ordRead s.domain (s.lmAt off) n 0

/-- Bytes of the strand's local memory written by an engine. -/
def State.lmWrite (s : State) (off : Nat) (bs : List Byte) : Res State :=
  if s.leavesLm off bs.length then .error (.trap 2 0, s.broken)
  else s.ordWrite s.domain (s.lmAt off) bs 0

/-- Codes of `w` bits from the least significant end of a number (R53, R54). -/
def unpackNat (w : Nat) : Nat → Nat → List Nat
  | 0, _ => []
  | n + 1, v => v % 2 ^ w :: unpackNat w n (v / 2 ^ w)

/-- Codes of `w` bits packed into a number. -/
def packNat (w : Nat) : List Nat → Nat
  | [] => 0
  | c :: l => c % 2 ^ w + 2 ^ w * packNat w l

/-- `n` elements of a tag from their bytes in memory (R53, R54). -/
def unpack (tag n : Nat) (bs : List Byte) : List Nat := unpackNat (memBits tag) n (leNat bs)

/-- The bytes of elements of a tag in memory (R53, R54). -/
def pack (tag : Nat) (cs : List Nat) : List Byte := leBytes (memBytes tag cs.length) (packNat (memBits tag) cs)

/-- The value of a code of a tag. -/
def tagVal (tag code : Nat) : Val :=
  match Fmt.ofTag tag with
  | some f => decodeVal f code
  | none => Val.zero

/-- An E8M0 scale (R61). -/
def scaleVal (e : Nat) : Val := if e = 255 then .nan false else Val.scaled false 1 ((e : Int) - 127)

/-- The footprint's length of `n` rows of `l` bytes at stride `y`; zero where it is empty (R236, R326). -/
def spanOf (n y l : Nat) : Nat := if n = 0 ∨ l = 0 then 0 else (n - 1) * y + l

/-- A check of an array command's local memory range (R236): ReadHandle, then KIND LM. -/
def State.lmView (s : State) (h off len : Nat) (r : Right) (opw : Nat) : Res (View × State) :=
  match s.readHandle h off len r opw with
  | .error e => .error e
  | .ok (v, s) => if v.kind ≠ 0 then .error (.trap 3 (accessInfo off opw h), s) else .ok (v, s)

/-- The same of an access whose bytes are known only as it runs (R187, R197). -/
def State.lmOpen (s : State) (h : Nat) (r : Right) : Res (View × State) :=
  match s.openHandle h 0 r 0 with
  | .error e => .error e
  | .ok (v, s) => if v.kind ≠ 0 then .error (.trap 3 (accessInfo 0 0 h), s) else .ok (v, s)

/-- Checks made one after the other. -/
def State.checks (s : State) : List (State → Res State) → Res State
  | [] => .ok s
  | f :: l =>
    match f s with
    | .error e => .error e
    | .ok s => s.checks l

/-- A range check as one of a list. -/
def chkLm (h off len : Nat) (r : Right) (opw : Nat) (s : State) : Res State :=
  match s.lmView h off len r opw with
  | .error e => .error e
  | .ok (_, s) => .ok s

/-- The same of an access whose bytes are known only as it runs. -/
def chkOpen (h : Nat) (r : Right) (s : State) : Res State :=
  match s.lmOpen h r with
  | .error e => .error e
  | .ok (_, s) => .ok s

/-- A condition as one of a list: a fault of a cause with its TRAPINFO where it fails. -/
def chk (b : Bool) (cause : Nat) (info : Word) (s : State) : Res State :=
  if b then .ok s else .error (.trap cause info, s)

end Sys2Proof.Machine
end

