-- ==== Sys2Proof/Machine/Matrix.lean ====
section
/-! DEFINITION. The matrix array (10 R228 to R250): issue checks, and what a unit of each command does. -/

namespace Sys2Proof.Machine

/-! ## Formats -/

/-- A format of R228. -/
def matrixTag (t : Nat) : Bool := decide (1 ≤ t) && decide (t ≤ 0xB)

/-- Products per cell and pass (R228). -/
def rho (t : Nat) : Nat := if t ≤ 3 then 1 else if t = 8 ∨ t = 0xB then 4 else 2

/-- Plane depth KP (R228). -/
def depthKP (t : Nat) : Nat := 64 * rho t

/-- Bytes of a weight row of 64 elements (R228). -/
def rowBytesW (t : Nat) : Nat := memBytes t 64

/-- Bytes of an activation row of KP elements (R228). -/
def rowBytesA (t : Nat) : Nat := memBytes t (depthKP t)

/-- The group of formats a weight and an activation format must share (R229). -/
def mixGroup (t : Nat) : Nat :=
  if t = 1 then 1 else if t = 2 ∨ t = 3 then 2
  else if t = 4 ∨ t = 5 ∨ t = 6 ∨ t = 7 ∨ t = 9 then 3
  else if t = 0xA then 4 else if t = 0xB then 5 else if t = 8 then 6 else 0

/-- R229. -/
def compatible (w a : Nat) : Bool := mixGroup w != 0 && mixGroup w == mixGroup a

/-- A plane MMUL takes under an activation format (R244). -/
def planeOk (p : Plane) (atag : Nat) : Bool := p.valid && !p.c && compatible p.tag atag

/-- A plane MMULC takes (R244). -/
def planeOkC (p : Plane) (atag : Nat) (ab : Bool) : Bool :=
  p.valid && p.c && decide (1 ≤ atag) && decide (atag ≤ 3) && compatible p.tag atag && !ab

/-! ## The state the sequencer foresees (R236, R248) -/

/-- Tile `t` changed. -/
def Arrays.setTile (a : Arrays) (t : Nat) (x : Tile) : Arrays := { a with a := upd Tile.reset a.a t x }

/-- Tile `t`. -/
def Arrays.tile (a : Arrays) (t : Nat) : Tile := a.a.getD t Tile.reset

/-- A tile made LIVE, as the foreseen state needs it. -/
def Arrays.livened (a : Arrays) (t : Nat) : Arrays := a.setTile t { a.tile t with live := true }

/-- Configuration fields of MCFG (R239). -/
def Arrays.config (a : Arrays) (w1 : W32) : Arrays :=
  { a with
    wtag := wbits w1 31 28
    atag := wbits w1 27 24
    rnd := wbits w1 23 21
    wbs := bit w1.toNat 20
    abs_ := bit w1.toNat 19 }

/-- What a queued command will do to tags, valid bits, configuration and tile states. -/
def Arrays.foresee (a : Arrays) (c : Cmd) : Arrays :=
  match c.instr with
  | .mcfg o => a.config o.w1
  | .mldw o => { a with w1 := { a.w1 with tag := a.wtag, valid := true, c := bit o.w1.toNat 9, s := a.wbs } }
  | .mswap _ => { a with w0 := a.w1, w1 := a.w0 }
  | .mzero o => a.livened (wbits o.w1 31 30)
  | .mmul o => a.livened (wbits o.w2 31 30)
  | .mmulc o => a.livened (wbits o.w2 31 30)
  | .mlda o => a.livened (wbits o.w1 11 10)
  | .mret o => a.setTile (wbits o.w1 11 10) Tile.reset
  | .mretFree o => a.setTile (wbits o.w1 11 10) Tile.reset
  | _ => a

/-- The arrays as they will stand once the queued commands have run, table runs aside (R236). -/
def Core.foreseen (c : Core) : Arrays := c.mq.foldl Arrays.foresee c.arrays

/-- The arrays that the earlier regions leave to the commands of theirs that are still queued (R247). -/
def Core.regionArrays (c : Core) : Arrays := if c.inRegion c.matSeq then c.arraysCkpt else c.arrays

/-- Whether a queue holds an unfinished table run. -/
def hasRun (q : List Cmd) : Bool :=
  q.any (fun c => match c.instr with
    | .tblstart _ _ => true
    | _ => false)

/-! ## Issue -/

/-- TRAPINFO of FORMAT_TAG_MISMATCH (R422). -/
def tagInfo (reg tag : Nat) : Word := BitVec.ofNat 64 (reg * 2 ^ 8 + tag)

/-- The stride a field names: s0 gives `dflt` (R236). -/
def State.strideOf (s : State) (w : W32) (dflt : Nat) : Nat :=
  if wbits w 21 16 = 0 then dflt else (s.wordS w 21 16).toNat

/-- Issue of a matrix command. -/
def State.issueMatrix (s : State) (i : Instr) (o : OpE) (n : Nat) (lit : Bool) (scal : List Word) : Res State :=
  s.issue .matrix i o.kd.toNat o.cons scal [] (cmdLen n lit o) [] []

/-- MCFG at issue (R240). -/
def execMcfg (o : OpE) (s : State) : Outcome :=
  let a := s.core.foreseen.config o.w1
  let ok := matrixTag a.wtag && matrixTag a.atag && compatible a.wtag a.atag &&
    (!a.wbs || scalable a.wtag) && (!a.abs_ || scalable a.atag)
  retire (if ok then s.issueMatrix (.mcfg o) o 1 false [] else .error (.trap 6 0, s))

/-- MLDW at issue (R241). Its checks need the configuration alone, which no table run changes. -/
def execMldw (o : OpE) (s : State) : Outcome :=
  let a := s.core.foreseen
  let h := wbits o.w1 31 28
  let x := (s.opX o).toNat
  let z := (s.wordS o.w1 15 10).toNat
  let st := s.strideOf o.w1 (rowBytesW a.wtag)
  let cplx := bit o.w1.toNat 9
  let rows := if cplx then 32 else depthKP a.wtag
  retire (match s.checks [chkLm h x (spanOf rows st (rowBytesW a.wtag)) .rd 1,
        if a.wbs then chkLm h z (2 * depthKP a.wtag) .rd 1 else .ok,
        chk (!cplx || decide (a.wtag ≤ 3)) 7 (tagInfo 0 a.wtag)] with
    | .error e => .error e
    | .ok s => s.issueMatrix (.mldw o) o 1 true [BitVec.ofNat 64 x, BitVec.ofNat 64 st, BitVec.ofNat 64 z])

/-- MSWAP at issue (R242). -/
def execMswap (o : OpE) (s : State) : Outcome := retire (s.issueMatrix (.mswap o) o 1 false [])

/-- MZERO at issue (R243). -/
def execMzero (o : OpE) (s : State) : Outcome := retire (s.issueMatrix (.mzero o) o 1 false [])

/-- MLDA at issue (R245). -/
def execMlda (o : OpE) (s : State) : Outcome :=
  let h := wbits o.w1 31 28
  let x := (s.opX o).toNat
  let rb := memBytes (wbits o.w1 15 12) 64
  let st := s.strideOf o.w1 rb
  retire (match chkLm h x (spanOf 64 st rb) .rd 1 s with
    | .error e => .error e
    | .ok s => s.issueMatrix (.mlda o) o 1 true [BitVec.ofNat 64 x, BitVec.ofNat 64 st])

/-- MRET at issue (R246): the record follows the rows when EXC is set. -/
def execMret (o : OpE) (s : State) : Outcome :=
  let h := wbits o.w1 31 28
  let x := (s.opX o).toNat
  let rb := memBytes (wbits o.w1 15 12) 64
  let st := s.strideOf o.w1 rb
  let len := max (spanOf 64 st rb) (if bit o.w1.toNat 4 then 64 * st + 8 else 0)
  retire (match chkLm h x len .w 1 s with
    | .error e => .error e
    | .ok s => s.issueMatrix (.mret o) o 1 true [BitVec.ofNat 64 x, BitVec.ofNat 64 st])

/-- MRET.free at issue (R246). -/
def execMretFree (o : OpE) (s : State) : Outcome := retire (s.issueMatrix (.mretFree o) o 1 false [])

/-! ## Arithmetic -/

/-- What the roundings of a row thread: the substream and flags, and the counters of the tile (R234). -/
structure Acc where
  c : Rnd
  invc : Nat
  ovfc : Nat
deriving DecidableEq, Repr

/-- Overflow in an array is inexact too, at 2^128 itself as well (R231, R259). -/
def overflowInexact (fl : BitVec 5) : BitVec 5 := if fl &&& fOVF = 0 then fl else fl ||| fINX

/-- One rounding into a tile (R231, R234): the counters rise by at most one each. -/
def Acc.round (a : Acc) (mode : Nat) (r : Val × BitVec 5) : Nat × Acc :=
  let x := finish .fp32 mode (.reg false) r ⟨a.c.st, 0⟩
  let fl := overflowInexact x.2.fl
  (x.1, { c := ⟨x.2.st, a.c.fl ||| fl⟩
          invc := if fl &&& fINV ≠ 0 then satAdd 0xFFFF a.invc 1 else a.invc
          ovfc := if fl &&& fOVF ≠ 0 then satAdd 0xFFFF a.ovfc 1 else a.ovfc })

/-- A scaled element: its exact value, and the flags its forming sets (R233). -/
def scaled (scale : Option Nat) (v : Val) : Val × BitVec 5 :=
  match scale with
  | some e => mulV (scaleVal e) v
  | none => (v, 0)

/-- An exact sum of exact products (R231). -/
def sumProducts (mode : Nat) : List ((Val × BitVec 5) × (Val × BitVec 5)) → Val × BitVec 5 → Val × BitVec 5
  | [], c => c
  | (a, w) :: l, c =>
    let p := mulV a.1 w.1
    let r := addV mode c.1 p.1
    sumProducts mode l (r.1, c.2 ||| a.2 ||| w.2 ||| p.2 ||| r.2)

/-- The cells of one column, ρ products each, in increasing order (R231): the code of s. -/
def columnSum (mode rh : Nat) : Nat → List ((Val × BitVec 5) × (Val × BitVec 5)) → Nat → Acc → Nat × Acc
  | 0, _, s, acc => (s, acc)
  | k + 1, l, s, acc =>
    let c := sumProducts mode (l.take rh) (Val.zero, 0)
    let r := addV mode (decodeVal .fp32 s) c.1
    let x := acc.round mode (r.1, c.2 ||| r.2)
    columnSum mode rh k (l.drop rh) x.1 x.2

/-- MatMulRow (R231): the new codes of the tile row, column by column. -/
def matRow (mode rh : Nat) (a : List (Val × BitVec 5)) : List (List (Val × BitVec 5)) → List Nat → Acc →
    List Nat × Acc
  | [], _, acc => ([], acc)
  | w :: ws, old, acc =>
    let s := columnSum mode rh 64 (a.zip w) 0 acc
    let r := addV mode (decodeVal .fp32 (old.headD 0)) (decodeVal .fp32 s.1)
    let x := s.2.round mode r
    let rest := matRow mode rh a ws old.tail x.2
    (x.1 :: rest.1, rest.2)

/-- Column `n` of a plane as scaled elements (R233). -/
def Plane.column (p : Plane) (n : Nat) : List (Val × BitVec 5) :=
  (List.range (depthKP p.tag)).map (fun k =>
    scaled (if p.s then some (p.scales.getD (64 * (k / 32) + n) 0) else none)
      (tagVal p.tag ((p.rows.getD k []).getD n 0)))

/-- An activation row as scaled elements (R233). -/
def activations (tag : Nat) (scales : Option (List Nat)) (codes : List Nat) : List (Val × BitVec 5) :=
  (codes.zip (List.range codes.length)).map (fun p =>
    scaled (scales.map (fun l => l.getD (p.2 / 32) 0)) (tagVal tag p.1))

/-- The 64 codes of a tile row. -/
def Tile.row (t : Tile) (m : Nat) : List Nat := (List.range 64).map (fun n => (t.rows.getD m []).getD n 0)

/-- One activation row multiplied into tile row `m` (R231, R244). -/
def Arrays.mulRow (a : Arrays) (t m : Nat) (row : List (Val × BitVec 5)) (st : Word) : Arrays × Rnd :=
  let x := a.tile t
  let x := if x.live then x else { Tile.reset with live := true }
  let cols := (List.range 64).map a.w0.column
  let r := matRow a.rnd (rho a.w0.tag) row cols (x.row m) ⟨⟨st, 0⟩, x.invc, x.ovfc⟩
  (a.setTile t { x with
    rows := upd [] x.rows m r.1
    invc := r.2.invc
    ovfc := r.2.ovfc
    count := satAdd 0xFFFF x.count 1 }, r.2.c)

/-- The complex products of one complex column over k (R232). -/
def complexColumn (mode : Nat) (a : Nat → Val) (w : Nat → Val × Val) : Nat → Nat → Nat × Nat → Acc → (Nat × Nat) × Acc
  | 0, _, x, acc => (x, acc)
  | n + 1, k, x, acc =>
    let ar := a (2 * k)
    let ai := a (2 * k + 1)
    let (wr, wi) := w k
    let p1 := mulV ar wr
    let p2 := mulV ai wi
    let zr := addV mode p1.1 p2.1.neg
    let r := acc.round mode (zr.1, p1.2 ||| p2.2 ||| zr.2)
    let p3 := mulV ar wi
    let p4 := mulV ai wr
    let zi := addV mode p3.1 p4.1
    let i := r.2.round mode (zi.1, p3.2 ||| p4.2 ||| zi.2)
    let sr := i.2.round mode (addV mode (decodeVal .fp32 x.1) (decodeVal .fp32 r.1))
    let si := sr.2.round mode (addV mode (decodeVal .fp32 x.2) (decodeVal .fp32 i.1))
    complexColumn mode a w n (k + 1) (sr.1, si.1) si.2

/-- MatMulRowC (R232). -/
def matRowC (mode : Nat) (a : Nat → Val) (w : Nat → Nat → Val × Val) (old : List Nat) : List Nat → Acc →
    List Nat × Acc
  | [], acc => ([], acc)
  | c :: cs, acc =>
    let r := complexColumn mode a (w c) 32 0 (old.getD (2 * c) 0, old.getD (2 * c + 1) 0) acc
    let rest := matRowC mode a w old cs r.2
    (r.1.1 :: r.1.2 :: rest.1, rest.2)

/-- One complex activation row multiplied into tile row `m` (R232, R244). -/
def Arrays.mulRowC (a : Arrays) (t m : Nat) (row : List Val) (st : Word) : Arrays × Rnd :=
  let x := a.tile t
  let x := if x.live then x else { Tile.reset with live := true }
  let w (c k : Nat) : Val × Val :=
    let r := a.w0.rows.getD k []
    (tagVal a.w0.tag (r.getD (2 * c) 0), tagVal a.w0.tag (r.getD (2 * c + 1) 0))
  let r := matRowC a.rnd (fun i => row.getD i Val.zero) w (x.row m) (List.range 32) ⟨⟨st, 0⟩, x.invc, x.ovfc⟩
  (a.setTile t { x with
    rows := upd [] x.rows m r.1
    invc := r.2.invc
    ovfc := r.2.ovfc
    count := satAdd 0xFFFF x.count 1 }, r.2.c)

/-! ## Units of the commands -/

/-- The arrays of the acting core changed. -/
def State.upArrays (s : State) (f : Arrays → Arrays) : State :=
  s.upCore (fun c => { c with arrays := f c.arrays })

/-- A scalar operand of a command, by its place. -/
def Cmd.arg (c : Cmd) (i : Nat) : Nat := (c.scal.getD i 0).toNat

/-- A weight row loaded into w1 (R241). -/
def Arrays.loadRow (a : Arrays) (k : Nat) (cplx : Bool) (codes : List Nat) : Arrays :=
  { a with w1 := { a.w1 with
      rows := upd [] a.w1.rows k codes
      tag := a.wtag
      c := cplx
      s := a.wbs
      valid := true } }

/-- A unit of MLDW: one row, and after the rows the scales (R241). -/
def unitMldw (o : OpE) : UnitFn := fun x k s =>
  let a := s.core.arrays
  let cplx := bit o.w1.toNat 9
  let rows := if cplx then 32 else depthKP a.wtag
  let rb := rowBytesW a.wtag
  if k < rows then
    match s.lmRead (x.arg 0 + k * x.arg 1) rb with
    | .error e => .error e
    | .ok bs => .ok (s.upArrays (fun a => a.loadRow k cplx (unpack a.wtag 64 bs)))
  else
    let s := if cplx then s.upArrays (fun a => { a with w1 := { a.w1 with rows := a.w1.rows.take 32 } }) else s
    if a.wbs then
      match s.lmRead (x.arg 2) (2 * depthKP a.wtag) with
      | .error e => .error e
      | .ok bs => .ok (s.upArrays (fun a => { a with w1 := { a.w1 with scales := bs.map BitVec.toNat } }))
    else .ok s

/-- The plane checks of MMUL and MMULC when the command runs. They can fail there only where an earlier load
of the plane ended with an error (log 23). -/
def mulReady (a : Arrays) (cplx : Bool) : Bool :=
  if cplx then planeOkC a.w0 a.atag a.abs_ else planeOk a.w0 a.atag

/-- A unit of MMUL: one activation row (R244). -/
def unitMmul (o : OpE) : UnitFn := fun x r s =>
  let a := s.core.arrays
  let kp := depthKP a.atag
  if !mulReady a false then .error (.trap 7 0, s)
  else
    match s.lmRead (x.arg 0 + r * x.arg 1) (rowBytesA a.atag) with
    | .error e => .error e
    | .ok bs =>
      let sc : Res (Option (List Nat)) :=
        if a.abs_ then
          match s.lmRead (x.arg 2 + r * (kp / 32)) (kp / 32) with
          | .error e => .error e
          | .ok l => .ok (some (l.map BitVec.toNat))
        else .ok none
      match sc with
      | .error e => .error e
      | .ok sc =>
        let row := activations a.atag sc (unpack a.atag kp bs)
        let (a', c) := a.mulRow (wbits o.w2 31 30) (wbits o.w2 29 24 + r) row (s.stream .matrix)
        .ok (((s.countFor s.core.job 0x10 1).upArrays (fun _ => a')).rounding .matrix x.prod c)

/-- A unit of MMULC: one complex activation row (R244). -/
def unitMmulc (o : OpE) : UnitFn := fun x r s =>
  let a := s.core.arrays
  if !mulReady a true then .error (.trap 7 0, s)
  else
    match s.lmRead (x.arg 0 + r * x.arg 1) (rowBytesA a.atag) with
    | .error e => .error e
    | .ok bs =>
      let row := (unpack a.atag 64 bs).map (tagVal a.atag)
      let (a', c) := a.mulRowC (wbits o.w2 31 30) (wbits o.w2 29 24 + r) row (s.stream .matrix)
      .ok (((s.countFor s.core.job 0x10 1).upArrays (fun _ => a')).rounding .matrix x.prod c)

/-- Codes rounded one after the other into a format (R246, R66). -/
def roundAll (f : Fmt) (mode : Nat) (b : Bound) : List Val → Rnd → List Nat × Rnd
  | [], c => ([], c)
  | v :: l, c =>
    let r := roundTo f v mode b c
    let rest := roundAll f mode b l r.2
    (r.1 :: rest.1, rest.2)

/-- A unit of MLDA: one tile row (R245). -/
def unitMlda (o : OpE) : UnitFn := fun x m s =>
  let tag := wbits o.w1 15 12
  let t := wbits o.w1 11 10
  match s.lmRead (x.arg 0 + m * x.arg 1) (memBytes tag 64) with
  | .error e => .error e
  | .ok bs =>
    let r := roundAll .fp32 0 (.reg false) ((unpack tag 64 bs).map (tagVal tag)) ⟨s.stream .matrix, 0⟩
    let put (a : Arrays) : Arrays :=
      let y := a.tile t
      let y := if m = 0 then { y with live := true, invc := 0, ovfc := 0, count := 0 } else y
      a.setTile t { y with rows := upd [] y.rows m r.1 }
    .ok ((s.upArrays put).rounding .matrix x.prod r.2)

/-- The 8-byte exception record of a tile (R230). -/
def Tile.recordBytes (t : Tile) : List Byte := leBytes 2 t.invc ++ leBytes 2 t.ovfc ++ leBytes 2 t.count ++ leBytes 2 0

/-- A unit of MRET: one row, and after the rows the record and the freeing (R246). -/
def unitMret (o : OpE) : UnitFn := fun x m s =>
  let tag := wbits o.w1 15 12
  let t := wbits o.w1 11 10
  let y := s.core.arrays.tile t
  if m < 64 then
    let vals := (if y.live then y.row m else List.replicate 64 0).map (decodeVal .fp32)
    let f := (Fmt.ofTag tag).getD .fp32
    let r := roundAll f (wbits o.w1 9 7) (.reg (bit o.w1.toNat 6)) vals ⟨s.stream .matrix, 0⟩
    match s.lmWrite (x.arg 0 + m * x.arg 1) (pack tag r.1) with
    | .error e => .error e
    | .ok s => .ok (s.rounding .matrix x.prod r.2)
  else
    let done (s : State) : State := s.upArrays (fun a => a.setTile t Tile.reset)
    if bit o.w1.toNat 4 then
      match s.lmWrite (x.arg 0 + 64 * x.arg 1) (if y.live then y.recordBytes else List.replicate 8 0) with
      | .error e => .error e
      | .ok s => .ok (done s)
    else .ok (done s)

/-- Units of a matrix command, with what each does. -/
def matrixUnits (a : Arrays) (c : Cmd) : Nat × UnitFn :=
  match c.instr with
  | .mcfg o => (1, fun _ _ s => .ok (s.upArrays (fun a => a.config o.w1)))
  | .mldw o => ((if bit o.w1.toNat 9 then 32 else depthKP a.wtag) + 1, unitMldw o)
  | .mswap _ => (1, fun _ _ s => .ok (s.upArrays (fun a => { a with w0 := a.w1, w1 := a.w0 })))
  | .mzero o => (1, fun _ _ s => .ok (s.upArrays (fun a =>
      a.setTile (wbits o.w1 31 30) { Tile.reset with live := true })))
  | .mmul o => (wbits o.w2 23 18 + 1, unitMmul o)
  | .mmulc o => (wbits o.w2 23 18 + 1, unitMmulc o)
  | .mlda o => (64, unitMlda o)
  | .mret o => (65, unitMret o)
  | .mretFree o => (1, fun _ _ s => .ok (s.upArrays (fun a => a.setTile (wbits o.w1 11 10) Tile.reset)))
  | _ => (0, fun _ _ s => .ok s)

end Sys2Proof.Machine
end

