-- ==== Sys2Proof/Machine/PlaitCell.lean ====
section
/-! DEFINITION. The cells of the plait array (11 R257 to R264): arithmetic on FP32 codes. -/

namespace Sys2Proof.Machine

/-! ## FP32 codes -/

/-- Exponent field of an FP32 code. -/
def f32Exp (c : Nat) : Nat := bits c 30 23

/-- NaN or infinity. -/
def f32Special (c : Nat) : Bool := f32Exp c == 255

/-- NaN. -/
def f32Nan (c : Nat) : Bool := f32Special c && bits c 22 0 != 0

/-- Either zero. -/
def f32Zero (c : Nat) : Bool := bits c 30 0 == 0

/-- The canonical NaN (R45). -/
def nan32 : Nat := 0x7FC00000

/-- Unbiased exponent; −126 for a subnormal (R259). -/
def expOf (c : Nat) : Int := if f32Exp c = 0 then -126 else (f32Exp c : Int) - 127

/-- Signed significand of a finite code, in units of 2^(exponent − 23). -/
def mant (c : Nat) : Int :=
  let m : Nat := if f32Exp c = 0 then bits c 22 0 else 2 ^ 23 + bits c 22 0
  signed (bit c 31) m

/-- SetINV (R261): an infinite operand or a signalling NaN. -/
def setInv (p q : Nat) : BitVec 5 :=
  let bad (c : Nat) : Bool := f32Special c && (!f32Nan c || !bit c 22)
  if bad p || bad q then fINV else 0

/-- An element of FP32, BF16 or FP16 widened exactly to FP32. A NaN keeps its bits here, so that the cell
that meets it tells a signalling one (R261). -/
def widen (tag c : Nat) : Nat :=
  if tag = 1 then c % 2 ^ 32
  else if tag = 2 then c % 2 ^ 16 * 2 ^ 16
  else if bits c 14 10 = 31 then b2n (bit c 15) * 2 ^ 31 + 0x7F800000 + bits c 9 0 * 2 ^ 13
  else (roundTo .fp32 (decodeVal .fp16 c) 0 (.reg false) ⟨1, 0⟩).1

/-! ## Passes -/

/-- floor(m × 2^k). -/
def shiftInt (m k : Int) : Int := if k < 0 then m / (2 ^ k.natAbs : Nat) else m * (2 ^ k.toNat : Nat)

/-- Align (R259). -/
def alignPair (p q : Nat) : Int × Int × Int :=
  let e := if f32Zero p then expOf q else if f32Zero q then expOf p else max (expOf p) (expOf q)
  let f (c : Nat) : Int := if f32Zero c then 0 else shiftInt (mant c) (expOf c - 23 + 28 - e)
  (f p, f q, e)

/-- One micro-rotation: counter-clockwise when `d` (R259). -/
def microStep (i : Nat) (d : Bool) (x y : Int) : Int × Int :=
  let k : Int := (2 ^ i : Nat)
  if d then (x - y / k, y + x / k) else (x + y / k, y - x / k)

/-- Micro (R259): `n` steps from step `i`. -/
def microAll (w : Nat) : Nat → Nat → Int → Int → Int × Int
  | 0, _, x, y => (x, y)
  | n + 1, i, x, y =>
    let r := microStep i (bit w i) x y
    microAll w n (i + 1) r.1 r.2

/-- A whole number rounded to 24 significant bits, ties to even, with its inexact flag (R259). -/
def round24 (v : Int) : Int × Bool :=
  let n := v.natAbs
  let b := Nat.log2 n + 1
  if b ≤ 24 then (v, false)
  else
    let k := b - 24
    let r := rndInt (decide (v < 0)) 0 n (2 ^ k) ⟨1, 0⟩
    (signed (decide (v < 0)) (r.1 * 2 ^ k), r.2.1)

/-- KINV (R259). -/
def kinv : Val := decodeVal .fp32 0x3F1B74EE

/-- Out (R259): the code and the flags. `inl` selects inline compensation. A result of zero is +0. -/
def cellOut (inl : Bool) (v e : Int) : Nat × BitVec 5 :=
  if v = 0 then (0, 0)
  else
    let r := round24 v
    let x := Val.scaled (decide (r.1 < 0)) r.1.natAbs (e - 28)
    let y := if inl then (mulV x kinv).1 else x
    let z := roundTo .fp32 y 0 (.reg false) ⟨1, if r.2 then fINX else 0⟩
    (if f32Zero z.1 then 0 else z.1, overflowInexact z.2.fl)

/-- The words of R260. -/
def wordZ : Nat := 0x80000000
def wordNV : Nat := 0x40000000

/-- A direction word as it is replayed: one that breaks R260 counts as NV = 1. -/
def dirWord (w : Nat) : Nat :=
  if w = wordZ ∨ w = wordNV then w
  else if bit w 31 ∨ bit w 30 ∨ bits w 28 26 ≠ 0 then wordNV else w

/-- The vectoring steps: the result of X and the direction bits (R261), and the angle gathered (R280). -/
def vectorSteps : Nat → Nat → Int → Int → Nat → Int → List Int → Int × Nat × Int
  | 0, _, x, _, d, a, _ => (x, d, a)
  | n + 1, i, x, y, d, a, t =>
    let up := decide (y < 0)
    let r := microStep i up x y
    vectorSteps n (i + 1) r.1 r.2 (if up then d + 2 ^ i else d)
      (if up then a - t.headD 0 else a + t.headD 0) t.tail

/-- Vector (R261): the new stored value, the direction word, and the flags. -/
def vectorCell (p q : Nat) : Nat × Nat × BitVec 5 :=
  if f32Special p || f32Special q then (nan32, wordNV, setInv p q)
  else if f32Zero q then (p, wordZ, 0)
  else
    let (x, y, e) := alignPair p q
    let f := decide (x < 0)
    let r := vectorSteps 26 0 (if f then -x else x) (if f then -y else y) 0 0 []
    let o := cellOut true r.1 e
    (o.1, b2n f * 2 ^ 29 + r.2.1, o.2)

/-- Replay (R262): the new stored value, the outgoing value, and the flags. -/
def replayCell (inl : Bool) (p q w : Nat) : Nat × Nat × BitVec 5 :=
  let w := dirWord w
  if bit w 31 then (p, q, 0)
  else if bit w 30 || f32Special p || f32Special q then (nan32, nan32, setInv p q)
  else if f32Zero p && f32Zero q then (0, 0, 0)
  else
    let (x, y, e) := alignPair p q
    let r := if bit w 29 then microAll w 26 0 (-x) (-y) else microAll w 26 0 x y
    let a := cellOut inl r.1 e
    let b := cellOut inl r.2 e
    (a.1, b.1, a.2 ||| b.2)

/-! ## Angles (R263) -/

/-- atan(2^−i) in the fixed point of Fn.lean, with fuel. -/
def fxAtan (i : Nat) : Nat :=
  if i = 0 then fxPi / 4 else (atanSum 700 (2 ^ i) (fxOne / 2 ^ i) 1 false 0).toNat

/-- ATAB[i]: the integer nearest to 2^31 atan(2^−i) / π (R263). -/
def atab (i : Nat) : Nat := if i = 0 then 0x20000000 else (2 ^ 32 * fxAtan i + fxPi) / (2 * fxPi)

/-- ATAB[0] to ATAB[25]. -/
def atabList : List Int := (List.range 26).map (fun i => (atab i : Int))

/-- The direction bits of an angle. -/
def angleBits : List Int → Nat → Int → Nat → Nat
  | [], _, _, d => d
  | t :: l, i, a, d => if 0 ≤ a then angleBits l (i + 1) (a - t) (d + 2 ^ i) else angleBits l (i + 1) (a + t) d

/-- AngleWord (R263). -/
def angleWord (a : Nat) : Nat :=
  let x := sext 32 a
  let f := decide (x > 2 ^ 30) || decide (x < -(2 ^ 30))
  let x := if f then sext 32 (wrapTo 32 (x - 2 ^ 31)) else x
  b2n f * 2 ^ 29 + angleBits atabList 0 x 0

/-- VecPair (R280): magnitude, angle, direction word, flags. -/
def vecPair (inl : Bool) (x y : Nat) : Nat × Nat × Nat × BitVec 5 :=
  if f32Special x || f32Special y then (nan32, 0, wordNV, setInv x y)
  else if f32Zero x && f32Zero y then (0, 0, wordZ, 0)
  else
    let (p, q, e) := alignPair x y
    let f := decide (p < 0)
    let r := vectorSteps 26 0 (if f then -p else p) (if f then -q else q) 0 (if f then 2 ^ 31 else 0) atabList
    let o := cellOut inl r.1 e
    (o.1, wrapTo 32 r.2.2, b2n f * 2 ^ 29 + r.2.1, o.2)

/-! ## The linear mode (R264) -/

/-- A quotient truncated toward zero to 26 significant bits: numerator and denominator. -/
def trunc26 (n d : Nat) : Nat × Nat :=
  let (p, q) := scalePair n d (25 - floorLog2 n d)
  let m := p / q
  scalePair m 1 (floorLog2 n d - 25)

/-- Div (R264): the code and the flags. A zero divisor sets DZ under an infinite dividend too. -/
def cellDiv (t r : Nat) : Nat × BitVec 5 :=
  let a := decodeVal .fp32 t
  let b := decodeVal .fp32 r
  if a.isNaN || b.isNaN then (nan32, nanFlags [a, b])
  else
    match divV a b with
    | (.fin s n d, f) =>
      if n = 0 then (b2n s * 2 ^ 31, f)
      else
        let q := trunc26 n d
        let x := roundTo .fp32 (.fin s q.1 q.2) 0 (.reg false) ⟨1, 0⟩
        let exact := match decodeVal .fp32 x.1 with
          | .fin _ n' d' => n * d' == n' * d
          | _ => false
        (x.1, x.2.fl ||| (if exact then 0 else fINX))
    | (.inf s, f) => (b2n s * 2 ^ 31 + 0x7F800000, if b.isZero then f ||| fDZ else f)
    | (.nan _, f) => (nan32, f)

/-- t − a × b with one rounding in mode 0 (R281). -/
def mulSub (t a b : Nat) : Nat × BitVec 5 :=
  let r := fmaV 0 (decodeVal .fp32 a).neg (decodeVal .fp32 b) (decodeVal .fp32 t)
  let x := finish .fp32 0 (.reg false) r ⟨1, 0⟩
  (x.1, x.2.fl)

end Sys2Proof.Machine
end

