-- ==== Sys2Proof/Machine/Plait.lean ====
section
/-! DEFINITION. The plait array (11 R257 to R289): issue checks, and what a unit of each command does. -/

namespace Sys2Proof.Machine

/-! ## Fields of operand word 2 (R273) -/

/-- Input and output formats, final rounding, clamp, DEF and the form bit X1. -/
def plF (w : W32) : Nat := wbits w 31 28
def plO (w : W32) : Nat := wbits w 27 24
def plRnd (w : W32) : Nat := wbits w 23 21
def plClamp (w : W32) : Bool := bit w.toNat 20
def plDef (w : W32) : Bool := bit w.toNat 19
def plX1 (w : W32) : Bool := bit w.toNat 18
def plP (w : W32) : Bool := bit w.toNat 17

/-- The count and lane fields F1, F2, F3. -/
def plF1 (w : W32) : Nat := wbits w 16 12
def plF2 (w : W32) : Nat := wbits w 11 6
def plF3 (w : W32) : Nat := wbits w 5 0

/-- The width of an element of a format (R274). -/
def plWidth (tag : Nat) : Nat := memBytes tag 1

/-! ## Issue (R268) -/

/-- A range of a footprint: its first offset and length. -/
abbrev Span := Nat × Nat

/-- Whether two ranges share a byte. -/
def Span.meets (a b : Span) : Bool :=
  a.2 != 0 && b.2 != 0 && decide (a.1 < b.1 + b.2) && decide (b.1 < a.1 + a.2)

/-- ReadHandle on one range, then KIND LM; an empty range needs no handle (R85, R268). -/
def chkSpan (h : Nat) (a : Span) (r : Right) (s : State) : Res State :=
  if a.2 = 0 then .ok s else chkLm h a.1 a.2 r 1 s

/-- Issue of a plait command with the ranges it reads and writes. A written range that overlaps a read one
is marked, its bytes being undefined (R283), unless `inPlace` exempts it. -/
def State.issuePlait (s : State) (i : Instr) (o : OpE) (n : Nat) (lit : Bool) (scal : List Nat)
    (rd wr : List Span) (inPlace : Span → Span → Bool) : Res State :=
  let h := wbits o.w1 31 28
  let checks := rd.map (fun a => chkSpan h a .rd) ++ wr.map (fun a => chkSpan h a .w)
  let undef (w : Span) : Bool := rd.any (fun r => r.meets w && !inPlace r w)
  match s.checks checks with
  | .error e => .error e
  | .ok s => s.issue .plait i o.kd.toNat o.cons
      ((scal ++ wr.map (fun w => b2n (undef w))).map (BitVec.ofNat 64)) [] (cmdLen n lit o) [] []

/-- No overlap is exempt. -/
def noneInPlace (_ _ : Span) : Bool := false

/-- The four scalar operands: x, the stride or second offset, z and u (R272). -/
def State.plArgs (s : State) (o : OpE) (st : Nat) : List Nat :=
  [(s.opX o).toNat, st, (s.wordS o.w1 15 10).toNat, (s.wordS o.w1 9 4).toNat]

/-- PLCLR at issue (R275). -/
def execPlclr (o : OpE) (s : State) : Outcome :=
  retire (s.issue .plait (.plclr o) o.kd.toNat o.cons [] [] (cmdLen 1 false o) [] [])

/-- PLSWAP at issue (R275). -/
def execPlswap (o : OpE) (s : State) : Outcome :=
  retire (s.issue .plait (.plswap o) o.kd.toNat o.cons [] [] (cmdLen 1 false o) [] [])

/-- PLLOAD at issue (R276). -/
def execPlload (o : OpE) (s : State) : Outcome :=
  let rb := plF3 o.w2 * plWidth (plF o.w2)
  let st := s.strideOf o.w1 rb
  retire (s.issuePlait (.plload o) o 2 true (s.plArgs o st)
    [((s.opX o).toNat, spanOf (plF1 o.w2 + 1) st rb)] [] noneInPlace)

/-- PLQR at issue (R277). -/
def execPlqr (o : OpE) (s : State) : Outcome :=
  let rb := (plF1 o.w2 + 1 + plF3 o.w2) * plWidth (plF o.w2)
  let st := s.strideOf o.w1 rb
  let u := (s.wordS o.w1 9 4).toNat
  let log : List Span := if plX1 o.w2 then [((s.wordS o.w1 15 10).toNat, 128 * u)] else []
  retire (s.issuePlait (.plqr o) o 2 true (s.plArgs o st) [((s.opX o).toNat, spanOf u st rb)] log noneInPlace)

/-- PLSOLVE at issue (R281). -/
def execPlsolve (o : OpE) (s : State) : Outcome :=
  let rb := plF3 o.w2 * plWidth (plO o.w2)
  let st := s.strideOf o.w1 rb
  retire (s.issuePlait (.plsolve o) o 2 true (s.plArgs o st) []
    [((s.opX o).toNat, spanOf (plF1 o.w2 + 1) st rb)] noneInPlace)

/-- PLDRAIN at issue (R282). -/
def execPldrain (o : OpE) (s : State) : Outcome :=
  let rb := plF3 o.w2 * plWidth (plO o.w2)
  let st := s.strideOf o.w1 rb
  retire (s.issuePlait (.pldrain o) o 2 true (s.plArgs o st) []
    [((s.opX o).toNat, spanOf (plF1 o.w2 + 1) st rb)] noneInPlace)

/-- PLDRAIN.lm at issue (R282, R283). -/
def execPldrainLm (o : OpE) (s : State) : Outcome :=
  let u := (s.wordS o.w1 9 4).toNat
  retire (s.issuePlait (.pldrainLm o) o 2 true (s.plArgs o 0)
    [((s.wordS o.w1 15 10).toNat, 4 * u)] [((s.opX o).toNat, plWidth (plO o.w2) * u)]
    (fun r w => r.1 == w.1 && plO o.w2 == 1))

/-- PLAPPLY at issue (R278). -/
def execPlapply (o : OpE) (s : State) : Outcome :=
  let rb := plF3 o.w2 * plWidth (plF o.w2)
  let st := s.strideOf o.w1 rb
  let u := (s.wordS o.w1 9 4).toNat
  retire (s.issuePlait (.plapply o) o 2 true (s.plArgs o st)
    [((s.opX o).toNat, spanOf u st rb), ((s.wordS o.w1 15 10).toNat, 128 * u)] [] noneInPlace)

/-- Pairs are exempt from R283 where input and output offsets and widths are equal; the range of angles or
words is not. -/
def pairsInPlace (o : OpE) (x : Nat) (r w : Span) : Bool :=
  r.1 == x && r.1 == w.1 && r.2 == w.2 && plWidth (plF o.w2) == plWidth (plO o.w2)

/-- Issue of PLAPPLY.sw and PLROT: pairs in and out, and one third-operand element of `zw` bytes a pair. -/
def State.issuePairs (s : State) (i : Instr) (o : OpE) (zw : Nat) : Res State :=
  let x := (s.opX o).toNat
  let y := (s.wordS o.w1 21 16).toNat
  let z := (s.wordS o.w1 15 10).toNat
  let u := (s.wordS o.w1 9 4).toNat
  let undefZ : Bool := Span.meets (z, zw * u) (y, 2 * plWidth (plO o.w2) * u)
  s.issuePlait i o 2 true (s.plArgs o y)
    [(x, 2 * plWidth (plF o.w2) * u), (z, zw * u)] [(y, 2 * plWidth (plO o.w2) * u)]
    (fun r w => !undefZ && pairsInPlace o x r w)

/-- PLAPPLY.sw at issue (R278). -/
def execPlapplySw (o : OpE) (s : State) : Outcome := retire (s.issuePairs (.plapplySw o) o 4)

/-- PLROT at issue (R279). -/
def execPlrot (o : OpE) (s : State) : Outcome := retire (s.issuePairs (.plrot o) o (plWidth (plF2 o.w2)))

/-- PLVEC at issue (R280). -/
def execPlvec (o : OpE) (s : State) : Outcome :=
  let x := (s.opX o).toNat
  let y := (s.wordS o.w1 21 16).toNat
  let z := (s.wordS o.w1 15 10).toNat
  let u := (s.wordS o.w1 9 4).toNat
  retire (s.issuePlait (.plvec o) o 2 true (s.plArgs o y)
    [(x, 2 * plWidth (plF o.w2) * u)] [(y, plWidth (plO o.w2) * u), (z, 4 * u)] noneInPlace)

/-! ## Planes and rows -/

/-- A plane of the pair. -/
def Arrays.plane (a : Arrays) (p : Bool) : List (List Nat) := if p then a.tq1 else a.tq0

/-- A plane replaced. -/
def Arrays.setPlane (a : Arrays) (p : Bool) (t : List (List Nat)) : Arrays :=
  if p then { a with tq1 := t } else { a with tq0 := t }

/-- Row `i` of a plane, 41 lanes. -/
def planeRow (t : List (List Nat)) (i : Nat) : List Nat := (List.range 41).map (fun l => (t.getD i []).getD l 0)

/-- Replay along a row (R277): the new stored values, the outgoing values and the flags. -/
def replayLanes (w : Nat) : List Nat → List Nat → List Nat × List Nat × BitVec 5
  | p :: ps, q :: qs =>
    let r := replayCell true p q w
    let rest := replayLanes w ps qs
    (r.1 :: rest.1, r.2.1 :: rest.2.1, r.2.2 ||| rest.2.2)
  | _, _ => ([], [], 0)

/-- One row of PlaitQR from triangle row `i` on (R277): the plane rows, the log words and the flags. -/
def qrRows (nc : Nat) (t : List (List Nat)) : Nat → Nat → List Nat → List (List Nat) × List Nat × BitVec 5
  | 0, _, _ => ([], [], 0)
  | n + 1, i, v =>
    let row := planeRow t i
    if nc ≤ i then
      let rest := qrRows nc t n (i + 1) v
      (row :: rest.1, wordZ :: rest.2.1, rest.2.2)
    else
      let a := vectorCell (row.getD i 0) (v.getD i 0)
      let b := replayLanes a.2.1 (row.drop (i + 1)) (v.drop (i + 1))
      let rest := qrRows nc t n (i + 1) (v.take (i + 1) ++ b.2.1)
      ((row.take i ++ a.1 :: b.1) :: rest.1, a.2.1 :: rest.2.1, a.2.2 ||| b.2.2 ||| rest.2.2)

/-- One row of PlaitApply (R278) over the log words of the 32 triangle rows. -/
def applyRows (nb : Nat) (t : List (List Nat)) : List Nat → Nat → List Nat → List (List Nat) × BitVec 5
  | [], _, _ => ([], 0)
  | w :: ws, i, c =>
    let row := planeRow t i
    let b := replayLanes w ((row.drop 32).take nb) c
    let rest := applyRows nb t ws (i + 1) b.2.1
    ((row.take 32 ++ b.1 ++ row.drop (32 + nb)) :: rest.1, b.2.2 ||| rest.2)

/-- The input lanes of a PLQR row (R277). -/
def qrInput (nc : Nat) (cs : List Nat) : List Nat :=
  (List.range 41).map (fun l =>
    if l < 32 then (if l < nc then cs.getD l 0 else 0) else cs.getD (nc + (l - 32)) 0)

/-- PlaitSolve for one right-hand side (R281), from row `j` − 1 down: the components above it in `xs`. -/
def solveColumn (t : List (List Nat)) (lane : Nat) : Nat → List Nat → BitVec 5 → List Nat × BitVec 5
  | 0, xs, fl => (xs, fl)
  | j + 1, xs, fl =>
    let row := planeRow t j
    let start := (row.getD lane 0, fl)
    let acc := (xs.zip (row.drop (j + 1))).foldl (fun (a : Nat × BitVec 5) p =>
      let r := mulSub a.1 p.2 p.1
      (r.1, a.2 ||| r.2)) start
    let q := cellDiv acc.1 (row.getD j 0)
    solveColumn t lane j (q.1 :: xs) (acc.2 ||| q.2)

/-! ## Units -/

/-- Bytes written to local memory, or undefined bytes in their place (R283). -/
def State.lmWriteOr (s : State) (undef : Bool) (off : Nat) (bs : List Byte) : Res State :=
  if undef then
    let old := memRead s.mem.cells (s.lmAt off) bs.length
    let (l, s) := State.drawBytes ((bs.zip old).map (fun p => [p.1, p.2])) s
    s.lmWrite off l
  else s.lmWrite off bs

/-- A piece of work that leaves nothing but its poison marks when it fails (R270). -/
def State.whole (s : State) (r : Res State) : Res State :=
  match r with
  | .error (e, t) => .error (e, { s with mem := { s.mem with poison := t.mem.poison } })
  | .ok s => .ok s

/-- `n` elements of a floating format read from local memory and widened to FP32. -/
def State.lmWide (s : State) (tag off n : Nat) : Res (List Nat) :=
  match s.lmRead off (n * plWidth tag) with
  | .error e => .error e
  | .ok bs => .ok ((unpack tag n bs).map (widen tag))

/-- FP32 codes rounded into the output format (R266), in order. -/
def finalRound (w : W32) (cs : List Nat) (c : Rnd) : List Nat × Rnd :=
  roundAll ((Fmt.ofTag (plO w)).getD .fp32) (plRnd w) (.reg (plClamp w)) (cs.map (decodeVal .fp32)) c

/-- A unit of PLCLR (R275). -/
def clearPlane (w : W32) (a : Arrays) : Arrays :=
  let l0 := plF2 w
  let nl := plF3 w
  a.setPlane (plP w) ((List.range 32).map (fun i =>
    let row := planeRow (a.plane (plP w)) i
    (List.range 41).map (fun l => if l0 ≤ l ∧ l < l0 + nl ∧ i ≤ l then 0 else row.getD l 0)))

/-- A unit of PLLOAD: one plane row; elements left of the diagonal are ignored (R276). A NaN enters the
plane as the canonical NaN, and a signalling one sets INV (R45). -/
def unitPlload (o : OpE) : UnitFn := fun x i s =>
  let l0 := plF2 o.w2
  let nl := plF3 o.w2
  let k := i - l0
  let w := plWidth (plF o.w2)
  match s.lmWide (plF o.w2) (x.arg 0 + i * x.arg 1 + min k nl * w) (nl - k) with
  | .error e => .error e
  | .ok raw =>
    let cs := raw.map (fun c => if f32Nan c then nan32 else c)
    .ok ((s.upArrays (fun a =>
      let t := a.plane (plP o.w2)
      let row := planeRow t i
      let from_ := l0 + min k nl
      a.setPlane (plP o.w2) (upd [] t i (row.take from_ ++ cs ++ row.drop (from_ + cs.length))))).cmdFlags
        .plait x.prod (nanFlags (raw.map (decodeVal .fp32))))

/-- One row of PLQR (R277): elements at `off`, the log record at `log` if there is one. -/
def State.qrRow (s : State) (prod tag nc nb off : Nat) (log : Option Nat) (undef : Bool) : Res State :=
  match s.lmWide tag off (nc + nb) with
  | .error e => .error e
  | .ok cs =>
    let r := qrRows nc s.core.arrays.tq0 32 0 (qrInput nc cs)
    let logged : Res State := match log with
      | some p => s.lmWriteOr undef p (r.2.1.flatMap (leBytes 4))
      | none => .ok s
    match logged with
    | .error e => .error e
    | .ok s => .ok (((s.countFor s.core.job 0x20 1).upArrays (fun a => { a with tq0 := r.1 })).cmdFlags .plait prod r.2.2)

/-- One row of PLAPPLY (R278): elements at `off`, the log record at `log`. -/
def State.applyRow (s : State) (prod tag nb off log : Nat) : Res State :=
  match s.lmWide tag off nb with
  | .error e => .error e
  | .ok cs =>
    match s.lmRead log 128 with
    | .error e => .error e
    | .ok bs =>
      let r := applyRows nb s.core.arrays.tq0 (unpackNat 32 32 (leNat bs)) 0 cs
      .ok (((s.countFor s.core.job 0x20 1).upArrays (fun a => { a with tq0 := r.1 })).cmdFlags .plait prod r.2)

/-- A unit of PLQR: one streamed row. -/
def unitPlqr (o : OpE) : UnitFn := fun x r s =>
  s.qrRow x.prod (plF o.w2) (plF1 o.w2 + 1) (plF3 o.w2) (x.arg 0 + r * x.arg 1)
    (if plX1 o.w2 then some (x.arg 2 + 128 * r) else none) (x.arg 4 == 1)

/-- A unit of PLAPPLY: one streamed row. -/
def unitPlapply (o : OpE) : UnitFn := fun x r s =>
  s.applyRow x.prod (plF o.w2) (plF3 o.w2) (x.arg 0 + r * x.arg 1) (x.arg 2 + 128 * r)

/-- Rows written at a stride from a first offset, one element each. -/
def State.lmColumn (s : State) (undef : Bool) (tag off st : Nat) : List Nat → Res State
  | [] => .ok s
  | c :: l =>
    match s.lmWriteOr undef off (pack tag [c]) with
    | .error e => .error e
    | .ok s => s.lmColumn undef tag (off + st) st l

/-- A unit of PLSOLVE: one right-hand side (R281). -/
def unitPlsolve (o : OpE) : UnitFn := fun x b s =>
  let nc := plF1 o.w2 + 1
  let (xs, fl) := solveColumn s.core.arrays.tq0 (plF2 o.w2 + b) nc [] 0
  let r := finalRound o.w2 xs ⟨s.stream .plait, fl⟩
  s.whole (match s.lmColumn (x.arg 4 == 1) (plO o.w2) (x.arg 0 + b * plWidth (plO o.w2)) (x.arg 1) r.1 with
    | .error e => .error e
    | .ok s => .ok (s.rounding .plait x.prod r.2))

/-- A unit of PLDRAIN: one plane row; a place left of the diagonal is written +0 (R282). -/
def unitPldrain (o : OpE) : UnitFn := fun x i s =>
  let l0 := plF2 o.w2
  let nl := plF3 o.w2
  let k := min (i - l0) nl
  let cs := ((planeRow (s.core.arrays.plane (plP o.w2)) i).drop (l0 + k)).take (nl - k)
  let r := finalRound o.w2 cs ⟨s.stream .plait, 0⟩
  match s.lmWriteOr (x.arg 4 == 1) (x.arg 0 + i * x.arg 1) (pack (plO o.w2) (List.replicate k 0 ++ r.1)) with
  | .error e => .error e
  | .ok s => .ok (s.rounding .plait x.prod r.2)

/-- A gain count removed from an FP32 code (R282). -/
def ungain : Nat → Nat → BitVec 5 → Nat × BitVec 5
  | 0, v, fl => (v, fl)
  | g + 1, v, fl =>
    let m := mulV (decodeVal .fp32 v) kinv
    let r := finish .fp32 0 (.reg false) m ⟨1, 0⟩
    ungain g r.1 (fl ||| r.2.fl)

/-- `n` pieces of work from index `i`, each whole or without effect. -/
def State.pieces (f : Nat → State → Res State) : Nat → Nat → State → Res State
  | 0, _, s => .ok s
  | n + 1, i, s =>
    match s.whole (f i s) with
    | .error e => .error e
    | .ok s => State.pieces f n (i + 1) s

/-- Group `g` of `size` pieces of `count`; the finished ones are counted (R270). -/
def groupOf (size count : Nat) (f : Cmd → Nat → State → Res State) : UnitFn := fun x g s =>
  let one (i : Nat) (s : State) : Res State :=
    match f x i s with
    | .error e => .error e
    | .ok s => .ok (s.upCmd .plait x.prod (fun c => { c with part := c.part + 1 }))
  State.pieces one (min size (count - size * g)) (size * g) s

/-- One element of PLDRAIN.lm. -/
def drainElement (o : OpE) (x : Cmd) (e : Nat) (s : State) : Res State :=
  match s.lmWide 1 (x.arg 2 + 4 * e) 1 with
  | .error r => .error r
  | .ok cs =>
    let (v, fl) := ungain (plF1 o.w2 + 1) (cs.headD 0) 0
    let r := finalRound o.w2 [v] ⟨s.stream .plait, fl⟩
    match s.lmWriteOr (x.arg 4 == 1) (x.arg 0 + e * plWidth (plO o.w2)) (pack (plO o.w2) r.1) with
    | .error r => .error r
    | .ok s => .ok (s.rounding .plait x.prod r.2)

/-- One pair replayed against a word and written out (R278, R279). -/
def State.pairOut (s : State) (o : OpE) (x : Cmd) (p w : Nat) : Res State :=
  match s.lmWide (plF o.w2) (x.arg 0 + 2 * p * plWidth (plF o.w2)) 2 with
  | .error e => .error e
  | .ok cs =>
    let a := replayCell (!plDef o.w2) (cs.getD 0 0) (cs.getD 1 0) w
    let r := finalRound o.w2 [a.1, a.2.1] ⟨s.stream .plait, a.2.2⟩
    match s.lmWriteOr (x.arg 4 == 1) (x.arg 1 + 2 * p * plWidth (plO o.w2)) (pack (plO o.w2) r.1) with
    | .error e => .error e
    | .ok s => .ok (s.rounding .plait x.prod r.2)

/-- One pair of PLAPPLY.sw: under DEF a Z word is replayed as D0 (R278). -/
def applyPair (o : OpE) (x : Cmd) (p : Nat) (s : State) : Res State :=
  match s.lmRead (x.arg 2 + 4 * p) 4 with
  | .error e => .error e
  | .ok bs =>
    let w := leNat bs
    s.pairOut o x p (if plDef o.w2 ∧ w = wordZ then angleWord 0 else w)

/-- One pair of PLROT (R279). -/
def rotPair (o : OpE) (x : Cmd) (p : Nat) (s : State) : Res State :=
  let w := plWidth (plF2 o.w2)
  match s.lmRead (x.arg 2 + w * p) w with
  | .error e => .error e
  | .ok bs => s.pairOut o x p (angleWord (if w = 2 then leNat bs * 2 ^ 16 else leNat bs))

/-- One pair of PLVEC (R280). -/
def vecOut (o : OpE) (x : Cmd) (p : Nat) (s : State) : Res State :=
  match s.lmWide (plF o.w2) (x.arg 0 + 2 * p * plWidth (plF o.w2)) 2 with
  | .error e => .error e
  | .ok cs =>
    let v := vecPair (!plDef o.w2) (cs.getD 0 0) (cs.getD 1 0)
    let r := finalRound o.w2 [v.1] ⟨s.stream .plait, v.2.2.2⟩
    match s.lmWriteOr (x.arg 4 == 1) (x.arg 1 + p * plWidth (plO o.w2)) (pack (plO o.w2) r.1) with
    | .error e => .error e
    | .ok s =>
      match s.lmWriteOr (x.arg 5 == 1) (x.arg 2 + 4 * p) (leBytes 4 (if plX1 o.w2 then v.2.2.1 else v.2.1)) with
      | .error e => .error e
      | .ok s => .ok (s.rounding .plait x.prod r.2)

/-- Pieces in groups: their number, rounded up. -/
def groups (size count : Nat) : Nat := (count + size - 1) / size

/-- Units of a plait command, with what each does. -/
def plaitUnits (c : Cmd) : Nat × UnitFn :=
  match c.instr with
  | .plclr o => (1, fun _ _ s => .ok (s.upArrays (clearPlane o.w1)))
  | .plswap _ => (1, fun _ _ s => .ok (s.upArrays (fun a => { a with tq0 := a.tq1, tq1 := a.tq0 })))
  | .plload o => (plF1 o.w2 + 1, unitPlload o)
  | .plqr o => (c.arg 3, unitPlqr o)
  | .plsolve o => (plF3 o.w2, unitPlsolve o)
  | .pldrain o => (plF1 o.w2 + 1, unitPldrain o)
  | .pldrainLm o => (groups 128 (c.arg 3), groupOf 128 (c.arg 3) (drainElement o))
  | .plapply o => (c.arg 3, unitPlapply o)
  | .plapplySw o => (groups 32 (c.arg 3), groupOf 32 (c.arg 3) (applyPair o))
  | .plrot o => (groups 32 (c.arg 3), groupOf 32 (c.arg 3) (rotPair o))
  | .plvec o => (groups 32 (c.arg 3), groupOf 32 (c.arg 3) (vecOut o))
  | _ => (0, fun _ _ s => .ok s)

end Sys2Proof.Machine
end

