-- ==== Sys2Proof/Machine/VecIssue.lean ====
section
/-! DEFINITION. Issue of the vector instructions (09 R183 to R226): the tags the sequencer foresees, the
tag and handle checks, and the entry of the vector queue. -/

namespace Sys2Proof

/-- The size of the destination group, 2^w (R189). -/
def OpV.g (o : OpV) : Nat := 2 ^ o.w.toNat

/-- The destination tag field. -/
def OpV.t (o : OpV) : Nat := o.dtag.toNat

/-- The tag of a load: a dtag of 0 means raw bytes (R196). -/
def OpV.ldTag (o : OpV) : Nat := if o.dtag = 0 then 0xF else o.dtag.toNat

/-- The produced token, c[4:0] (R185). -/
def OpV.kd (o : OpV) : Nat := o.c.toNat % 32

/-- The clamp bit. -/
def OpV.sat (o : OpV) : Bool := o.clamp == 1

/-- The group size of a source under its selector (R190). -/
def OpV.srcSize (o : OpV) (sel : BitVec 4) : Nat := (srcGroup sel.toNat o.g).getD 1

end Sys2Proof

namespace Sys2Proof.Machine

/-! ## Tags (R50, R51, R184) -/

/-- The physical vector register of a logical number, under the bases in force. -/
def Core.physV (c : Core) (r : Nat) : Nat := Limits.physV c.lim c.live.rbv r

/-- The tag a physical register reads as (R51). -/
def Core.tagNow (c : Core) (p : Nat) : Nat :=
  match c.live.v[p]? with
  | some r => if r.valid then r.tag.toNat else 0
  | none => 0

/-- The tag of a physical register as it will stand when the queued instructions have run (R184). -/
def Core.tagOf (c : Core) (p : Nat) : Nat :=
  (c.vq.flatMap (fun x => x.tags)).foldl (fun t e => if e.1 = p then e.2 else t) (c.tagNow p)

/-- The tag of a logical register at issue. -/
def State.vtag (s : State) (r : Nat) : Nat := s.core.tagOf (s.core.physV r)

/-- A check of one source group (R50): every register's tag accepted and equal to the first one's. -/
def chkTags (base n : Nat) (ok : Nat → Bool) (s : State) : Res State :=
  match (List.range n).find? (fun k => !ok (s.vtag (base + k)) || s.vtag (base + k) != s.vtag base) with
  | some k => .error (.trap 7 (tagInfo (base + k) (s.vtag (base + k))), s)
  | none => .ok s

/-- Any tag but 0x0. -/
def anyTag (t : Nat) : Bool := t != 0

/-- Exactly one tag. -/
def isTag (u t : Nat) : Bool := t == u

/-- The width ratio a selector states (R190): source bits against destination bits. -/
def ratioOk (sel st dt : Nat) : Bool :=
  if sel = 0 then elemBits st == elemBits dt
  else if sel ≤ 3 then elemBits st == 2 ^ sel * elemBits dt
  else elemBits st * (if sel < 8 then 2 else if sel < 12 then 4 else 8) == elemBits dt

/-- A value source of an arithmetic instruction (R191, R202). -/
def srcOk (sel dt st : Nat) : Bool :=
  if tagFamily dt = 3 then sel == 0 && st == dt
  else tagFamily st == tagFamily dt && tagFamily st != 0 && ratioOk sel st dt

/-- The source of a conversion (R208). -/
def cvtOk (sel dt st : Nat) : Bool :=
  tagFamily st != 0 && ratioOk sel st dt &&
    !(tagFamily st == 2 && tagFamily dt == 3) && !(tagFamily st == 3 && tagFamily dt == 2)

/-- The source of a block-scaled conversion (R209). -/
def cvtBsOk (sel dt st : Nat) : Bool := scalable st && cvtOk sel dt st

/-- The source of a special function (R218). -/
def fnOk (ang : Bool) (sel dt st : Nat) : Bool :=
  ratioOk sel st dt && (tagFamily st == 1 || ang && tagFamily st == 3)

/-! ## The queue -/

/-- The tags a group will carry. -/
def State.newTags (s : State) (base n tag : Nat) : List (Nat × Nat) :=
  (List.range n).map (fun k => (s.core.physV (base + k), tag))

/-- Issue of a vector instruction that passed its checks (R183 to R185). -/
def State.issueVec (s : State) (i : Instr) (kd : Nat) (scal : List Word) (tags : List (Nat × Nat)) : Res State :=
  s.issue .vector i kd [] scal [] 2 tags []

/-- Checks, then issue. -/
def State.vec (s : State) (cs : List (State → Res State)) (i : Instr) (kd : Nat) (scal : List Word)
    (tags : List (Nat × Nat)) : Outcome :=
  retire (match s.checks cs with
    | .error e => .error e
    | .ok s => s.issueVec i kd scal tags)

/-- An instruction with a register group as its destination. -/
def State.vecD (s : State) (i : Instr) (o : OpV) (cs : List (State → Res State)) : Outcome :=
  s.vec cs i o.kd [] (s.newTags o.d.toNat o.g o.t)

/-! ## Memory instructions (R187, R196, R197) -/

/-- Whether a queued instruction writes mask register `m`. -/
def writesMask (m : Nat) (c : Cmd) : Bool :=
  match c.instr with
  | .vcmpEq o | .vcmpNe o | .vcmpLt o | .vcmpLe o | .vcmpGt o | .vcmpGe o => o.d.toNat == m
  | .mand o | .mor o | .mnot o => o.d.toNat == m
  | _ => false

/-- Whether element `e` is active under the mask fields (R193). -/
def Regs.active (g : Regs) (o : OpV) (e : Nat) : Bool :=
  if o.mask = 0 then true else (g.m.getD o.mask.toNat 0).getLsbD (e % 1024) != (o.minv == 1)

/-- Element `i`'s first byte and the byte after its last, in a contiguous access or in a strided one, whose
stride is signed (R196). -/
def elemSpan (tag off st : Nat) (strided : Bool) (i : Nat) : Int × Int :=
  if strided then
    let lo : Int := off + i * sext 64 st
    (lo, lo + memBytes tag 1)
  else ((off + i * memBits tag / 8 : Nat), (off + ((i + 1) * memBits tag + 7) / 8 : Nat))

/-- The range of the active elements: its first byte and its length, both without wrap; empty when none is active. A
first byte below zero lies outside every range: it stands as the offset modulo 2^64 that TRAPINFO shows, raised by
2^64 (log 13). -/
def activeSpan (act : Nat → Bool) (f : Nat → Int × Int) (n : Nat) : Nat × Nat :=
  let l := ((List.range n).filter act).map f
  match l with
  | [] => (0, 0)
  | p :: l =>
    let r := l.foldl (fun (a : Int × Int) q => (min a.1 q.1, max a.2 q.2)) p
    (if r.1 < 0 then 2 ^ 64 + wrapTo 64 r.1 else r.1.toNat, (r.2 - r.1).toNat)

/-- VectorMemory at issue (R196): the wait for the mask, then the range check. -/
def State.vecMem (s : State) (i : Instr) (o : OpV) (tag : Nat) (strided : Bool) (r : Right)
    (tags : List (Nat × Nat)) : Outcome :=
  if o.mask ≠ 0 ∧ s.core.vq.any (writesMask o.mask.toNat) = true then
    .next (s.stop (.wait .busy))
  else
    let off := (s.getS o.b.toNat <<< o.sb.toNat).toNat
    let st := (s.getS (o.b.toNat + 1)).toNat
    let n := o.g * elemsPerReg tag
    let w := activeSpan (s.core.live.active o) (elemSpan tag off st strided) n
    s.vec [chkLm o.a.toNat w.1 w.2 r 0] i o.kd [BitVec.ofNat 64 off, BitVec.ofNat 64 st] tags

/-- A store's tag checks, then its access (R196). -/
def State.vecStore (s : State) (i : Instr) (o : OpV) (strided : Bool) : Outcome :=
  match chkTags o.d.toNat o.g anyTag s with
  | .error (e, s) => .next (s.stop e)
  | .ok s =>
    let t := s.vtag o.d.toNat
    if strided ∧ memBits t < 8 then .next (s.stop (.trap 7 (tagInfo o.d.toNat t)))
    else s.vecMem i o t strided .w []

/-- VLD (R196). -/
def execVld (o : OpV) (s : State) : Outcome :=
  s.vecMem (.vld o) o o.ldTag false .rd (s.newTags o.d.toNat o.g o.ldTag)

/-- VLDS (R196). -/
def execVlds (o : OpV) (s : State) : Outcome :=
  s.vecMem (.vlds o) o o.ldTag true .rd (s.newTags o.d.toNat o.g o.ldTag)

/-- VST (R196). -/
def execVst (o : OpV) (s : State) : Outcome := s.vecStore (.vst o) o false

/-- VSTS (R196). -/
def execVsts (o : OpV) (s : State) : Outcome := s.vecStore (.vsts o) o true

/-- The registers of the index group (R197). -/
def indexSize (o : OpV) : Nat := (indexGroup o.t o.g).getD 1

/-- VGATH (R197). -/
def execVgath (o : OpV) (s : State) : Outcome :=
  s.vec [chkTags o.b.toNat (indexSize o) (isTag 0xC), chkOpen o.a.toNat .rd] (.vgath o) o.kd []
    (s.newTags o.d.toNat o.g o.t)

/-- VSCAT (R197). -/
def execVscat (o : OpV) (s : State) : Outcome :=
  s.vec [chkTags o.b.toNat (indexSize o) (isTag 0xC), chkTags o.d.toNat o.g (isTag o.t),
    chkOpen o.a.toNat .w] (.vscat o) o.kd [] []

/-- VCHAIN (R187, R221). -/
def execVchain (o : OpV) (s : State) : Outcome :=
  let arg (k : Nat) : Word := s.getS (o.b.toNat + k)
  s.vec [chkOpen o.a.toNat .rd, chkOpen o.d.toNat .w] (.vchain o) o.kd [arg 0, arg 1, arg 2, arg 3, arg 4] []

/-! ## Moves and single elements (R199, R200) -/

/-- VMOV (R199). -/
def execVmov (o : OpV) (s : State) : Outcome :=
  s.vec [chkTags o.a.toNat o.g anyTag] (.vmov o) o.kd []
    (s.newTags o.d.toNat o.g (if o.dtag = 0 then s.vtag o.a.toNat else o.t))

/-- VBCAST (R200). -/
def execVbcast (o : OpV) (s : State) : Outcome :=
  s.vec [] (.vbcast o) o.kd [s.getS o.a.toNat] (s.newTags o.d.toNat o.g o.t)

/-- VEXTR (R200): the scalar register is mapped at issue. -/
def execVextr (o : OpV) (s : State) : Outcome :=
  s.vec [chkTags o.a.toNat o.g anyTag] (.vextr o) o.kd
    [s.getS o.b.toNat, BitVec.ofNat 64 (s.core.physS o.d.toNat)] []

/-- VINS (R200). -/
def execVins (o : OpV) (s : State) : Outcome :=
  s.vec [chkTags o.d.toNat 1 anyTag] (.vins o) o.kd [s.getS o.a.toNat, s.getS o.b.toNat]
    (s.newTags o.d.toNat 1 (s.vtag o.d.toNat))

/-! ## Arithmetic (R201 to R203) -/

/-- The checks of source a, and of source b. -/
def chkA (o : OpV) : State → Res State := chkTags o.a.toNat (o.srcSize o.sa) (srcOk o.sa.toNat o.t)
def chkB (o : OpV) : State → Res State := chkTags o.b.toNat (o.srcSize o.sb) (srcOk o.sb.toNat o.t)

/-- A two-source arithmetic instruction. -/
def State.vec2 (s : State) (i : Instr) (o : OpV) : Outcome := s.vecD i o [chkA o, chkB o]

/-- A one-source arithmetic instruction. -/
def State.vec1 (s : State) (i : Instr) (o : OpV) : Outcome := s.vecD i o [chkA o]

/-- A fused instruction: group c has dtag, and no token is named (R185, R201). -/
def State.vec3 (s : State) (i : Instr) (o : OpV) : Outcome :=
  s.vec [chkA o, chkB o, chkTags o.c.toNat o.g (isTag o.t)] i 0 [] (s.newTags o.d.toNat o.g o.t)

/-- VADD (R201). -/
def execVadd (o : OpV) (s : State) : Outcome := s.vec2 (.vadd o) o
/-- VSUB (R201). -/
def execVsub (o : OpV) (s : State) : Outcome := s.vec2 (.vsub o) o
/-- VMUL (R201). -/
def execVmul (o : OpV) (s : State) : Outcome := s.vec2 (.vmul o) o
/-- VFMA (R201). -/
def execVfma (o : OpV) (s : State) : Outcome := s.vec3 (.vfma o) o
/-- VFMS (R201). -/
def execVfms (o : OpV) (s : State) : Outcome := s.vec3 (.vfms o) o
/-- VMIN (R201, R203). -/
def execVmin (o : OpV) (s : State) : Outcome := s.vec2 (.vmin o) o
/-- VMAX (R201, R203). -/
def execVmax (o : OpV) (s : State) : Outcome := s.vec2 (.vmax o) o
/-- VABS (R201). -/
def execVabs (o : OpV) (s : State) : Outcome := s.vec1 (.vabs o) o
/-- VNEG (R201). -/
def execVneg (o : OpV) (s : State) : Outcome := s.vec1 (.vneg o) o

/-! ## Logic, shifts, comparison and selection (R204 to R207) -/

/-- Groups a and b with equal tags, which d takes. -/
def State.vecEq (s : State) (i : Instr) (o : OpV) : Outcome :=
  s.vec [chkTags o.a.toNat o.g anyTag, chkTags o.b.toNat o.g (isTag (s.vtag o.a.toNat))] i o.kd []
    (s.newTags o.d.toNat o.g (s.vtag o.a.toNat))

/-- VAND (R204). -/
def execVand (o : OpV) (s : State) : Outcome := s.vecEq (.vand o) o
/-- VOR (R204). -/
def execVor (o : OpV) (s : State) : Outcome := s.vecEq (.vor o) o
/-- VXOR (R204). -/
def execVxor (o : OpV) (s : State) : Outcome := s.vecEq (.vxor o) o
/-- VNOT (R204). -/
def execVnot (o : OpV) (s : State) : Outcome :=
  s.vec [chkTags o.a.toNat o.g anyTag] (.vnot o) o.kd [] (s.newTags o.d.toNat o.g (s.vtag o.a.toNat))
/-- VSEL (R207). -/
def execVsel (o : OpV) (s : State) : Outcome := s.vecEq (.vsel o) o

/-- Shifts: a and b carry dtag (R205). -/
def State.vecShift (s : State) (i : Instr) (o : OpV) : Outcome :=
  s.vecD i o [chkTags o.a.toNat o.g (isTag o.t), chkTags o.b.toNat o.g (isTag o.t)]

/-- VSHL (R205). -/
def execVshl (o : OpV) (s : State) : Outcome := s.vecShift (.vshl o) o
/-- VSHR (R205). -/
def execVshr (o : OpV) (s : State) : Outcome := s.vecShift (.vshr o) o
/-- VSHR.a (R205). -/
def execVshrA (o : OpV) (s : State) : Outcome := s.vecShift (.vshrA o) o

/-- A comparison into a mask (R206). -/
def State.vecCmp (s : State) (i : Instr) (o : OpV) : Outcome := s.vec [chkA o, chkB o] i o.kd [] []

/-- VCMP.eq (R206). -/
def execVcmpEq (o : OpV) (s : State) : Outcome := s.vecCmp (.vcmpEq o) o
/-- VCMP.ne (R206). -/
def execVcmpNe (o : OpV) (s : State) : Outcome := s.vecCmp (.vcmpNe o) o
/-- VCMP.lt (R206). -/
def execVcmpLt (o : OpV) (s : State) : Outcome := s.vecCmp (.vcmpLt o) o
/-- VCMP.le (R206). -/
def execVcmpLe (o : OpV) (s : State) : Outcome := s.vecCmp (.vcmpLe o) o
/-- VCMP.gt (R206). -/
def execVcmpGt (o : OpV) (s : State) : Outcome := s.vecCmp (.vcmpGt o) o
/-- VCMP.ge (R206). -/
def execVcmpGe (o : OpV) (s : State) : Outcome := s.vecCmp (.vcmpGe o) o

/-! ## Conversion and block scaling (R208 to R210) -/

/-- VCVT (R208). -/
def execVcvt (o : OpV) (s : State) : Outcome :=
  s.vecD (.vcvt o) o [chkTags o.a.toNat (o.srcSize o.sa) (cvtOk o.sa.toNat o.t)]

/-- VCVT.bs (R209). -/
def execVcvtBs (o : OpV) (s : State) : Outcome :=
  s.vec [chkTags o.a.toNat (o.srcSize o.sa) (cvtBsOk o.sa.toNat o.t), chkTags o.c.toNat 1 (isTag 0xF)]
    (.vcvtBs o) 0 [] (s.newTags o.d.toNat o.g o.t)

/-- VSCALE (R210). -/
def execVscale (o : OpV) (s : State) : Outcome :=
  s.vec [chkTags o.a.toNat (o.srcSize o.sa) (isTag 1)] (.vscale o) 0 []
    (s.newTags o.d.toNat 1 o.t ++ s.newTags o.c.toNat 1 0xF)

/-! ## Reductions and scans (R211 to R213) -/

/-- A reduction of group a, of the family of dtag, into the single register d. -/
def State.vecRed (s : State) (i : Instr) (o : OpV) : Outcome :=
  s.vec [chkTags o.a.toNat o.g (fun t => tagFamily t == tagFamily o.t)] i o.kd [] (s.newTags o.d.toNat 1 o.t)

/-- VREDS (R211). -/
def execVreds (o : OpV) (s : State) : Outcome := s.vecRed (.vreds o) o
/-- VREDM.max (R212). -/
def execVredmMax (o : OpV) (s : State) : Outcome := s.vecRed (.vredmMax o) o
/-- VREDM.min (R212). -/
def execVredmMin (o : OpV) (s : State) : Outcome := s.vecRed (.vredmMin o) o
/-- VSCAN (R213). -/
def execVscan (o : OpV) (s : State) : Outcome := s.vec1 (.vscan o) o

/-! ## Permutations (R214 to R217) -/

/-- VPERM (R214). -/
def execVperm (o : OpV) (s : State) : Outcome :=
  s.vec [chkTags o.a.toNat 1 anyTag, chkTags o.b.toNat 1 (isTag 0xF)] (.vperm o) o.kd []
    (s.newTags o.d.toNat 1 (s.vtag o.a.toNat))

/-- VSLIDE (R215). -/
def State.vecSlide (s : State) (i : Instr) (o : OpV) : Outcome :=
  s.vec [chkTags o.a.toNat o.g anyTag, chkTags o.c.toNat o.g (isTag (s.vtag o.a.toNat))] i 0
    [s.getS o.b.toNat] (s.newTags o.d.toNat o.g (s.vtag o.a.toNat))

/-- VSLIDE.up (R215). -/
def execVslideUp (o : OpV) (s : State) : Outcome := s.vecSlide (.vslideUp o) o
/-- VSLIDE.dn (R215). -/
def execVslideDn (o : OpV) (s : State) : Outcome := s.vecSlide (.vslideDn o) o

/-- VZIP (R216). -/
def execVzip (o : OpV) (s : State) : Outcome :=
  s.vec [chkTags o.a.toNat o.g anyTag, chkTags o.b.toNat o.g (isTag (s.vtag o.a.toNat))] (.vzip o) o.kd []
    (s.newTags o.d.toNat (2 * o.g) (s.vtag o.a.toNat))

/-- VUNZIP (R216). -/
def execVunzip (o : OpV) (s : State) : Outcome :=
  s.vec [chkTags o.a.toNat (2 * o.g) anyTag] (.vunzip o) 0 []
    (s.newTags o.d.toNat o.g (s.vtag o.a.toNat) ++ s.newTags o.c.toNat o.g (s.vtag o.a.toNat))

/-- VIOTA (R217). -/
def execViota (o : OpV) (s : State) : Outcome :=
  s.vec [] (.viota o) o.kd [s.getS o.a.toNat] (s.newTags o.d.toNat o.g o.t)

/-! ## Special functions (R218) -/

/-- A special function's source check; `ang`: angle sources too. -/
def State.vecFn (s : State) (i : Instr) (o : OpV) (ang : Bool) : Outcome :=
  s.vecD i o [chkTags o.a.toNat (o.srcSize o.sa) (fnOk ang o.sa.toNat o.t)]

/-- VEXP2 (R218). -/
def execVexp2 (o : OpV) (s : State) : Outcome := s.vecFn (.vexp2 o) o false
/-- VLOG2 (R218). -/
def execVlog2 (o : OpV) (s : State) : Outcome := s.vecFn (.vlog2 o) o false
/-- VRCP (R218). -/
def execVrcp (o : OpV) (s : State) : Outcome := s.vecFn (.vrcp o) o false
/-- VRSQ (R218). -/
def execVrsq (o : OpV) (s : State) : Outcome := s.vecFn (.vrsq o) o false
/-- VSIN (R218). -/
def execVsin (o : OpV) (s : State) : Outcome := s.vecFn (.vsin o) o true
/-- VCOS (R218). -/
def execVcos (o : OpV) (s : State) : Outcome := s.vecFn (.vcos o) o true
/-- VTANH (R218). -/
def execVtanh (o : OpV) (s : State) : Outcome := s.vecFn (.vtanh o) o false
/-- VSIG (R218). -/
def execVsig (o : OpV) (s : State) : Outcome := s.vecFn (.vsig o) o false

/-! ## Mask instructions (R220) -/

/-- MAND (R220). -/
def execMand (o : OpV) (s : State) : Outcome := s.vec [] (.mand o) o.kd [] []
/-- MOR (R220). -/
def execMor (o : OpV) (s : State) : Outcome := s.vec [] (.mor o) o.kd [] []
/-- MNOT (R220). -/
def execMnot (o : OpV) (s : State) : Outcome := s.vec [] (.mnot o) o.kd [] []
/-- MPOP (R220): the scalar register is mapped at issue. -/
def execMpop (o : OpV) (s : State) : Outcome :=
  s.vec [] (.mpop o) o.kd [BitVec.ofNat 64 (s.core.physS o.d.toNat)] []

end Sys2Proof.Machine
end

