-- ==== Sys2Proof/Machine/VecExec.lean ====
section
/-! DEFINITION. The vector unit (09 R189 to R220): what each queued instruction does when its turn comes. -/

namespace Sys2Proof.Machine

/-! ## Groups of registers -/

/-- Registers of the strand changed by a command; one of an earlier region changes the checkpoint too. -/
def State.upLog (s : State) (x : Cmd) (f : Regs → Regs) : State :=
  s.upCore (fun c => { c with
    live := f c.live
    ckpt := if c.inRegion x.rseq then c.ckpt else f c.ckpt })

/-- The physical register of a logical one, under the bases the command was issued with (R184). -/
def State.vphys (s : State) (x : Cmd) (r : Nat) : Nat := Limits.physV s.core.lim x.rbv r

/-- A vector register of a command. -/
def State.vregAt (s : State) (x : Cmd) (r : Nat) : VReg := s.core.live.v.getD (s.vphys x r) VReg.reset

/-- The tag a register reads as when the command runs. -/
def State.tagAt (s : State) (x : Cmd) (r : Nat) : Nat := s.core.tagNow (s.vphys x r)

/-- The codes of a register as elements of a tag; an invalid register reads zero (R193). -/
def VReg.codes (r : VReg) (tag : Nat) : List Nat :=
  unpackNat (elemBits tag) (elemsPerReg tag) (if r.valid then r.data.toNat else 0)

/-- Lanes of several registers in element order: element e from register e mod g, lane e div g (R189). -/
def weave : Nat → List (List Nat) → List Nat
  | 0, _ => []
  | n + 1, ls => ls.map (fun l => l.headD 0) ++ weave n (ls.map List.tail)

/-- Every `g`-th element, after `k` skipped ones. -/
def everyNth (g : Nat) : Nat → List Nat → List Nat
  | _, [] => []
  | 0, x :: l => x :: everyNth g (g - 1) l
  | k + 1, _ :: l => everyNth g k l

/-- The elements of a group under a tag. -/
def State.group (s : State) (x : Cmd) (base g tag : Nat) : List Nat :=
  weave (elemsPerReg tag) ((List.range g).map (fun k => (s.vregAt x (base + k)).codes tag))

/-- A code as a register holds it: 6-bit formats keep bits 7 and 6 zero (R53). -/
def normCode (tag c : Nat) : Nat := if memBits tag = 6 then c % 64 else c % 2 ^ elemBits tag

/-- A group written: codes, tag and valid bit (R50). -/
def State.putGroup (s : State) (x : Cmd) (base g tag : Nat) (codes : List Nat) : State :=
  let regs := (List.range g).map (fun k =>
    (s.vphys x (base + k),
      (⟨BitVec.ofNat 4096 (packNat (elemBits tag) (everyNth g k codes)), BitVec.ofNat 4 tag, true⟩ : VReg)))
  s.upLog x (fun r => { r with v := regs.foldl (fun v p => upd VReg.reset v p.1 p.2) r.v })

/-- The elements a part selector picks: of every `n` in a row, `g` from the `a`-th (R190). -/
def pickParts (n a g : Nat) : Nat → List Nat → List Nat
  | 0, _ => []
  | k + 1, l => if l.isEmpty then [] else ((l.take n).drop a).take g ++ pickParts n a g k (l.drop n)

/-- Source elements in destination order under a selector (R190). -/
def select (sel g : Nat) (l : List Nat) : List Nat :=
  if sel < 4 then l
  else
    let n := if sel < 8 then 2 else if sel < 12 then 4 else 8
    if n ≤ g then l else pickParts n (sel % 4 * g) g l.length l

/-- A source of a command: its tag and its codes in destination order. -/
def State.source (s : State) (x : Cmd) (o : OpV) (base : Nat) (sel : BitVec 4) : Nat × List Nat :=
  let tag := s.tagAt x base
  (tag, select sel.toNat o.g (s.group x base (o.srcSize sel) tag))

/-- Active elements computed one after the other; inactive ones keep their old code (R193). -/
def mapMask {α : Type} (act : Nat → Bool) (f : α → Rnd → Nat × Rnd) :
    List Nat → List α → Nat → Rnd → List Nat × Rnd
  | y :: ys, a :: as, e, c =>
    let r := if act e then f a c else (y, c)
    let rest := mapMask act f ys as (e + 1) r.2
    (r.1 :: rest.1, rest.2)
  | _, _, _, c => ([], c)

/-- An element-wise result written to group d under the write mask. -/
def State.vecMap {α : Type} (s : State) (x : Cmd) (o : OpV) (tag : Nat) (as : List α) (f : α → Rnd → Nat × Rnd) :
    Res State :=
  let old := s.group x o.d.toNat o.g tag
  let r := mapMask (s.core.live.active o) (fun a c => let y := f a c; (normCode tag y.1, y.2)) old as 0
    ⟨s.stream .vector, 0⟩
  .ok ((s.putGroup x o.d.toNat o.g tag r.1).rounding .vector x.prod r.2)

/-- A result that rounds nothing. -/
def plain {α : Type} (f : α → Nat) (a : α) (c : Rnd) : Nat × Rnd := (f a, c)

/-- The format of a tag. -/
def fmtOf (tag : Nat) : Fmt := (Fmt.ofTag tag).getD .raw

/-! ## Arithmetic (R201 to R203) -/

/-- The operations of R201. -/
inductive Arith where
  | add | sub | mul | fma | fms | min | max | abs | neg
deriving DecidableEq, Repr

/-- The exact floating result and the flags of its special cases. -/
def Arith.float (op : Arith) (m : Nat) (x y z : Val) : Val × BitVec 5 :=
  match op with
  | .add => addV m x y
  | .sub => addV m x y.neg
  | .mul => mulV x y
  | .fma => fmaV m x y z
  | .fms => fmaV m x y z.neg
  | .min => minV x y
  | .max => maxV x y
  | .abs => (x.abs, 0)
  | .neg => (x.neg, 0)

/-- The exact integer result. -/
def Arith.int (op : Arith) (x y z : Int) : Int :=
  match op with
  | .add => x + y
  | .sub => x - y
  | .mul => x * y
  | .fma => x * y + z
  | .fms => x * y - z
  | .min => if x ≤ y then x else y
  | .max => if x ≤ y then y else x
  | .abs => x.natAbs
  | .neg => -x

/-- An integer result wrapped, or saturated with OVF and INX (R202). -/
def intFinish (n : Nat) (sat : Bool) (v : Int) (c : Rnd) : Nat × Rnd :=
  let hi : Int := (2 ^ (n - 1) : Nat) - 1
  let lo : Int := -(2 ^ (n - 1) : Nat)
  if sat then
    if hi < v then (wrapTo n hi, c.set (fOVF ||| fINX))
    else if v < lo then (wrapTo n lo, c.set (fOVF ||| fINX))
    else (wrapTo n v, c)
  else (wrapTo n v, c)

/-- One element of an arithmetic instruction (R201, R202). -/
def arith (op : Arith) (dt m : Nat) (sat : Bool) (ta tb : Nat) (p : Nat × Nat × Nat) (c : Rnd) : Nat × Rnd :=
  let (x, y, z) := p
  match tagFamily dt with
  | 1 => finish (fmtOf dt) m (.reg sat) (op.float m (tagVal ta x) (tagVal tb y) (tagVal dt z)) c
  | 2 => intFinish (elemBits dt) sat (op.int (sext (elemBits ta) x) (sext (elemBits tb) y) (sext (elemBits dt) z)) c
  | _ => (wrapTo (elemBits dt) (op.int (x : Int) (y : Int) (z : Int)), c)

/-- An arithmetic instruction run: `two`, source b is read; `three`, group c is read. -/
def unitArith (op : Arith) (o : OpV) (two three : Bool) : UnitFn := fun x _ s =>
  let (ta, a) := s.source x o o.a.toNat o.sa
  let (tb, b) := if two then s.source x o o.b.toNat o.sb else (ta, a)
  let z := if three then s.group x o.c.toNat o.g o.t else a
  s.vecMap x o o.t (a.zip (b.zip z)) (arith op o.t o.rnd.toNat o.sat ta tb)

/-! ## Moves and single elements (R199, R200) -/

/-- A scalar converted to an element (R200). -/
def convScalar (tag m : Nat) (sat : Bool) (v : Word) (c : Rnd) : Nat × Rnd :=
  match tagFamily tag with
  | 1 => roundTo (fmtOf tag) (f32 v) m (.reg sat) c
  | 2 => intFinish (elemBits tag) true v.toInt c
  | _ => (v.toNat % 2 ^ elemBits tag, c)

/-- VMOV: the bytes of group a, as elements of the tag d takes. -/
def unitVmov (o : OpV) : UnitFn := fun x _ s =>
  let tag := if o.dtag = 0 then s.tagAt x o.a.toNat else o.t
  s.vecMap x o tag (s.group x o.a.toNat o.g tag) (plain (fun a => a))

/-- VBCAST. -/
def unitVbcast (o : OpV) : UnitFn := fun x _ s =>
  s.vecMap x o o.t (List.replicate (o.g * elemsPerReg o.t) ()) (fun _ => convScalar o.t o.rnd.toNat o.sat (x.scal.getD 0 0))

/-- An element as a scalar register holds it, and the flags of its conversion (R200): an FP32 element
moves as its bits, another floating one is converted exactly, a signalling NaN quieted with INV (R45). -/
def elemScalar (tag c : Nat) : Word × BitVec 5 :=
  match tagFamily tag with
  | 1 =>
    if tag = 1 then (BitVec.ofNat 64 c, 0)
    else
      let r := roundTo .fp32 (tagVal tag c) 0 (.reg false) ⟨1, 0⟩
      (BitVec.ofNat 64 r.1, r.2.fl)
  | 2 => (BitVec.ofInt 64 (sext (elemBits tag) c), 0)
  | _ => (BitVec.ofNat 64 (normCode tag c), 0)

/-- A scalar register written by its physical number; s0 discards. -/
def State.putS (s : State) (x : Cmd) (p : Nat) (v : Word) : State :=
  if p = 0 then s else s.upLog x (fun r => { r with s := upd 0 r.s p v })

/-- VEXTR. -/
def unitVextr (o : OpV) : UnitFn := fun x _ s =>
  let tag := s.tagAt x o.a.toNat
  let n := o.g * elemsPerReg tag
  let c := (s.group x o.a.toNat o.g tag).getD ((x.scal.getD 0 0).toNat % n) 0
  let r := elemScalar tag c
  .ok ((s.putS x (x.scal.getD 1 0).toNat r.1).cmdFlags .vector x.prod r.2)

/-- VINS. -/
def unitVins (o : OpV) : UnitFn := fun x _ s =>
  let tag := s.tagAt x o.d.toNat
  let r := convScalar tag o.rnd.toNat o.sat (x.scal.getD 0 0) ⟨s.stream .vector, 0⟩
  let codes := upd 0 (s.group x o.d.toNat 1 tag) ((x.scal.getD 1 0).toNat % elemsPerReg tag) (normCode tag r.1)
  .ok ((s.putGroup x o.d.toNat 1 tag codes).rounding .vector x.prod r.2)

/-! ## Logic, shifts, comparison, selection (R204 to R207) -/

/-- A bytewise operation. -/
def unitLogic (f : Nat → Nat → Nat) (o : OpV) (two : Bool) : UnitFn := fun x _ s =>
  let tag := s.tagAt x o.a.toNat
  let a := s.group x o.a.toNat o.g tag
  let b := if two then s.group x o.b.toNat o.g tag else a
  s.vecMap x o tag (a.zip b) (plain (fun p => f p.1 p.2))

/-- A shift by the elements of b modulo the width (R205). -/
def unitShift (f : Nat → Nat → Nat → Nat) (o : OpV) : UnitFn := fun x _ s =>
  let w := elemBits o.t
  s.vecMap x o o.t ((s.group x o.a.toNat o.g o.t).zip (s.group x o.b.toNat o.g o.t))
    (plain (fun p => f w p.1 (p.2 % w)))

/-- The conditions of R206. -/
inductive Cond where
  | eq | ne | lt | le | gt | ge
deriving DecidableEq, Repr

/-- Whether a condition holds. -/
def Cond.holds (k : Cond) (a b : Val) : Bool :=
  if a.isNaN || b.isNaN then k == .ne
  else
    let r := cmpV a b
    match k with
    | .eq => r == 0
    | .ne => r != 0
    | .lt => decide (r < 0)
    | .le => decide (r ≤ 0)
    | .gt => decide (0 < r)
    | .ge => decide (0 ≤ r)

/-- The flags a comparison sets. -/
def Cond.flags (k : Cond) (a b : Val) : BitVec 5 :=
  if k = .eq ∨ k = .ne then nanFlags [a, b] else if a.isNaN || b.isNaN then fINV else 0

/-- A mask register written. -/
def State.putM (s : State) (x : Cmd) (m : Nat) (v : BitVec 1024) : State :=
  s.upLog x (fun r => { r with m := upd 0 r.m m v })

/-- VCMP (R206). -/
def unitCmp (k : Cond) (o : OpV) : UnitFn := fun x _ s =>
  let (ta, a) := s.source x o o.a.toNat o.sa
  let (tb, b) := s.source x o o.b.toNat o.sb
  let pairs := (a.zip b).map (fun p => (tagVal ta p.1, tagVal tb p.2))
  let act := s.core.live.active o
  let old := s.core.live.m.getD o.d.toNat 0
  let new := unpackNat 1 1024 old.toNat
  let hits := pairs.map (fun p => b2n (k.holds p.1 p.2)) ++ List.replicate (1024 - pairs.length) 0
  let bs := mapMask act (fun h c => (h, c)) new hits 0 ⟨0, 0⟩
  let fl := (pairs.zip (List.range 1024)).foldl (fun f p => if act p.2 then f ||| k.flags p.1.1 p.1.2 else f) 0
  .ok ((s.putM x o.d.toNat (BitVec.ofNat 1024 (packNat 1 bs.1))).cmdFlags .vector x.prod fl)

/-- VSEL (R207): the mask selects, none is a write mask. -/
def unitVsel (o : OpV) : UnitFn := fun x _ s =>
  let tag := s.tagAt x o.a.toNat
  let m := s.core.live.m.getD o.mask.toNat 0
  let a := s.group x o.a.toNat o.g tag
  let b := s.group x o.b.toNat o.g tag
  let r := mapMask (fun e => m.getLsbD (e % 1024) != (o.minv == 1)) (fun y c => (y, c)) b a 0 ⟨0, 0⟩
  .ok (s.putGroup x o.d.toNat o.g tag (r.1.map (normCode tag)))

/-! ## Conversion and block scaling (R208 to R210) -/

/-- One element converted (R208): NaR of DD8 stays NaR in DD8 and sets no flag (R69). -/
def cvtElem (ta t m : Nat) (sat : Bool) (v : Nat) (c : Rnd) : Nat × Rnd :=
  if ta = 9 ∧ t = 9 ∧ v % 256 = 0x80 then (0x80, c)
  else roundTo (fmtOf t) (tagVal ta v) m (.reg sat) c

/-- VCVT. -/
def unitVcvt (o : OpV) : UnitFn := fun x _ s =>
  let (ta, a) := s.source x o o.a.toNat o.sa
  s.vecMap x o o.t a (cvtElem ta o.t o.rnd.toNat o.sat)

/-- VCVT.bs: scales by source element index (R209). -/
def unitVcvtBs (o : OpV) : UnitFn := fun x _ s =>
  let (ta, a) := s.source x o o.a.toNat o.sa
  let n := o.srcSize o.sa * elemsPerReg ta
  let ix := select o.sa.toNat o.g (List.range n)
  let sc := (s.vregAt x o.c.toNat).codes 0xF
  s.vecMap x o o.t (a.zip ix) (fun p c =>
    finish (fmtOf o.t) o.rnd.toNat (.reg o.sat) (scaled (some (sc.getD (p.2 / 32) 0)) (tagVal ta p.1)) c)

/-- Emax of R210. -/
def scaleEmax (tag : Nat) : Int :=
  match tag with
  | 4 => 8
  | 5 => 15
  | 6 => 4
  | 7 => 2
  | 8 => 2
  | 0xA => 6
  | _ => 2

/-- The largest finite magnitude of a format. -/
def maxFinite (tag : Nat) : Nat × Nat :=
  match fmtOf tag with
  | .int n => (2 ^ (n - 1) - 1, 1)
  | f =>
    match f.bin with
    | some b => (decodeBinary b b.maxCode).mag
    | none => (0, 1)

/-- One element of ScaleGroup (R210). -/
def scaleElem (tag m : Nat) (e : Nat) (v : Val) (c : Rnd) : Nat × Rnd :=
  match v with
  | .fin s n d =>
    let p := scalePair n d (127 - (e : Int))
    if leQ p (maxFinite tag) then roundTo (fmtOf tag) (.fin s p.1 p.2) m (.reg true) c
    else
      let b := maxFinite tag
      roundTo (fmtOf tag) (.fin s b.1 b.2) m (.reg true) (c.set (fOVF ||| fINX))
  | _ => (0, c)

/-- ScaleGroup (R210): the scale and the elements of one group of 32. -/
def scaleGroup (tag m : Nat) (vs : List Val) (c : Rnd) : Nat × List Nat × Rnd :=
  if vs.any (fun v => v.isNaN || v.isInf) then (255, vs.map (fun _ => 0), c.set fINV)
  else
    let top := vs.foldl (fun t v => if ltQ t v.mag then v.mag else t) (0, 1)
    let e : Nat := if top.1 = 0 then 127
      else (min 254 (max 0 (floorLog2 top.1 top.2 - scaleEmax tag + 127))).toNat
    let r := vs.foldl (fun (a : List Nat × Rnd) v =>
      let y := scaleElem tag m e v a.2
      (y.1 :: a.1, y.2)) ([], c)
    (e, r.1.reverse, r.2)

/-- The groups of 32 in order (R210): scales and elements. -/
def scaleGroups (tag m : Nat) : Nat → List Val → Rnd → List Nat × List Nat × Rnd
  | 0, _, c => ([], [], c)
  | k + 1, vs, c =>
    let g := scaleGroup tag m (vs.take 32) c
    let rest := scaleGroups tag m k (vs.drop 32) g.2.2
    (g.1 :: rest.1, g.2.1 ++ rest.2.1, rest.2.2)

/-- VSCALE (R210). The elements are written before the scales, so that of one register named twice the scales remain (log
105). -/
def unitVscale (o : OpV) : UnitFn := fun x _ s =>
  let k := o.srcSize o.sa
  let vs := (s.group x o.a.toNat k 1).map (tagVal 1)
  let r := scaleGroups o.t o.rnd.toNat (vs.length / 32) vs ⟨s.stream .vector, 0⟩
  let scales := r.1 ++ List.replicate (512 - r.1.length) 0
  .ok (((s.putGroup x o.d.toNat 1 o.t (r.2.1.map (normCode o.t))).putGroup x o.c.toNat 1 0xF scales).rounding
    .vector x.prod r.2.2)

/-! ## Reductions and scans (R211 to R213) -/

/-- One level of ReduceSum (R211). -/
def sumLevel (sat : Bool) : List Val → Rnd → List Val × Rnd
  | a :: b :: l, c =>
    let r := finish .fp32 0 (.reg sat) (addV 0 a b) c
    let rest := sumLevel sat l r.2
    (decodeVal .fp32 r.1 :: rest.1, rest.2)
  | l, c => (l, c)

/-- ReduceSum (R211), with fuel for its levels. -/
def reduceSum (sat : Bool) : Nat → List Val → Rnd → Val × Rnd
  | 0, l, c => (l.headD Val.zero, c)
  | k + 1, l, c =>
    if l.length ≤ 1 then (l.headD Val.zero, c)
    else
      let r := sumLevel sat l c
      reduceSum sat k r.1 r.2

/-- A value in lane 0 of the single register d, zero in every other lane. -/
def State.putLane0 (s : State) (x : Cmd) (o : OpV) (r : Nat × Rnd) : Res State :=
  .ok ((s.putGroup x o.d.toNat 1 o.t [r.1]).rounding .vector x.prod r.2)

/-- The elements of group a with their activity. -/
def State.reduced (s : State) (x : Cmd) (o : OpV) : Nat × List (Nat × Bool) :=
  let tag := s.tagAt x o.a.toNat
  let l := s.group x o.a.toNat o.g tag
  (tag, (l.zip (List.range l.length)).map (fun p => (p.1, s.core.live.active o p.2)))

/-- VREDS (R211). -/
def unitVreds (o : OpV) : UnitFn := fun x _ s =>
  let (tag, l) := s.reduced x o
  let c : Rnd := ⟨s.stream .vector, 0⟩
  if tagFamily o.t = 1 then
    let r := reduceSum o.sat 14 (l.map (fun p => if p.2 then tagVal tag p.1 else Val.zero)) c
    s.putLane0 x o ((roundTo .fp32 r.1 0 (.reg o.sat) ⟨1, 0⟩).1, r.2)
  else
    let n := l.foldl (fun (a : Int) p => if p.2 then a + sext (elemBits tag) p.1 else a) 0
    s.putLane0 x o (intFinish 32 o.sat n c)

/-- VREDM (R212): the choice of R203 over the active elements. -/
def unitVredm (big : Bool) (o : OpV) : UnitFn := fun x _ s =>
  let (tag, l) := s.reduced x o
  let vs := (l.filter (fun p => p.2)).map (fun p => tagVal tag p.1)
  let c : Rnd := ⟨s.stream .vector, 0⟩
  match vs with
  | [] => s.putLane0 x o (if o.t = 1 then nan32 else if big then 2 ^ 31 else 2 ^ 31 - 1, c)
  | v :: vs =>
    let r := vs.foldl (fun (a : Val × BitVec 5) w =>
      let y := if big then maxV a.1 w else minV a.1 w
      (y.1, a.2 ||| y.2)) (v, 0)
    s.putLane0 x o (roundTo (fmtOf o.t) r.1 0 (.reg false) (c.set r.2))
where
  /-- The canonical NaN of FP32. -/
  nan32 : Nat := 0x7FC00000

/-- VSCAN over the elements (R213): `y` is the code of the sum so far. -/
def scan (dt m : Nat) (sat : Bool) (ta : Nat) (act : Nat → Bool) : List Nat → List Nat → Nat → Nat → Rnd →
    List Nat × Rnd
  | old :: olds, a :: as, e, y, c =>
    if act e then
      let r := arith .add dt m sat dt ta (y, a, 0) c
      let rest := scan dt m sat ta act olds as (e + 1) r.1 r.2
      (normCode dt r.1 :: rest.1, rest.2)
    else
      let rest := scan dt m sat ta act olds as (e + 1) y c
      (old :: rest.1, rest.2)
  | _, _, _, _, c => ([], c)

/-- VSCAN. -/
def unitVscan (o : OpV) : UnitFn := fun x _ s =>
  let (ta, a) := s.source x o o.a.toNat o.sa
  let old := s.group x o.d.toNat o.g o.t
  let r := scan o.t o.rnd.toNat o.sat ta (s.core.live.active o) old a 0 0 ⟨s.stream .vector, 0⟩
  .ok ((s.putGroup x o.d.toNat o.g o.t r.1).rounding .vector x.prod r.2)

/-! ## Permutations (R214 to R217) -/

/-- VPERM. -/
def unitVperm (o : OpV) : UnitFn := fun x _ s =>
  let tag := s.tagAt x o.a.toNat
  let n := elemsPerReg tag
  let a := s.group x o.a.toNat 1 tag
  let ix := unpackNat 16 256 (s.vregAt x o.b.toNat).data.toNat
  let lo := 256 * o.sb.toNat
  let old := s.group x o.d.toNat 1 tag
  let new := (List.range n).map (fun e =>
    if lo ≤ e ∧ e < lo + 256 then
      let p := ix.getD (e - lo) 0
      if p < n then a.getD p 0 else 0
    else old.getD e 0)
  let act (e : Nat) : Bool := decide (lo ≤ e) && decide (e < lo + 256) && s.core.live.active o e
  let r := mapMask act (fun y c => (normCode tag y, c)) old new 0 ⟨0, 0⟩
  .ok (s.putGroup x o.d.toNat 1 tag r.1)

/-- VSLIDE (R215): groups a and c as one sequence. -/
def unitSlide (up : Bool) (o : OpV) : UnitFn := fun x _ s =>
  let tag := s.tagAt x o.a.toNat
  let a := s.group x o.a.toNat o.g tag
  let c := s.group x o.c.toNat o.g tag
  let n := a.length
  let k := min (x.scal.getD 0 0).toNat n
  s.vecMap x o tag (if up then c.drop (n - k) ++ a.take (n - k) else a.drop k ++ c.take k) (plain (fun y => y))

/-- Two lists taken in turn. -/
def alternate : List Nat → List Nat → List Nat
  | a :: as, b :: bs => a :: b :: alternate as bs
  | _, _ => []

/-- VZIP (R216). -/
def unitVzip (o : OpV) : UnitFn := fun x _ s =>
  let tag := s.tagAt x o.a.toNat
  .ok (s.putGroup x o.d.toNat (2 * o.g) tag
    ((alternate (s.group x o.a.toNat o.g tag) (s.group x o.b.toNat o.g tag)).map (normCode tag)))

/-- VUNZIP (R216). -/
def unitVunzip (o : OpV) : UnitFn := fun x _ s =>
  let tag := s.tagAt x o.a.toNat
  let l := (s.group x o.a.toNat (2 * o.g) tag).map (normCode tag)
  .ok ((s.putGroup x o.d.toNat o.g tag (everyNth 2 0 l)).putGroup x o.c.toNat o.g tag (everyNth 2 1 l))

/-- VIOTA (R217). -/
def unitViota (o : OpV) : UnitFn := fun x _ s =>
  s.vecMap x o o.t (List.range (o.g * elemsPerReg o.t)) (fun e c =>
    let v : Int := (x.scal.getD 0 0).toInt + e
    match tagFamily o.t with
    | 1 => roundTo (fmtOf o.t) (Val.ofInt v) o.rnd.toNat (.reg o.sat) c
    | 2 => intFinish (elemBits o.t) o.sat v c
    | _ => (wrapTo (elemBits o.t) v, c))

/-! ## Special functions and masks (R218 to R220) -/

/-- A special function, correctly rounded. -/
def unitFn (f : Val → Val × BitVec 5) (o : OpV) : UnitFn := fun x _ s =>
  let (ta, a) := s.source x o o.a.toNat o.sa
  s.vecMap x o o.t a (fun v c => finish (fmtOf o.t) o.rnd.toNat (.reg o.sat) (f (tagVal ta v)) c)

/-- A mask operation. -/
def unitMask (f : BitVec 1024 → BitVec 1024 → BitVec 1024) (o : OpV) : UnitFn := fun x _ s =>
  let m (r : BitVec 6) : BitVec 1024 := s.core.live.m.getD r.toNat 0
  .ok (s.putM x o.d.toNat (f (m o.a) (m o.b)))

/-- MPOP. -/
def unitMpop (o : OpV) : UnitFn := fun x _ s =>
  let n := (unpackNat 1 1024 (s.core.live.m.getD o.a.toNat 0).toNat).foldl (fun a b => a + b) 0
  .ok (s.putS x (x.scal.getD 0 0).toNat (BitVec.ofNat 64 n))

/-! ## Memory (R188, R196 to R198) -/

/-- One element read from local memory. -/
def State.elemLoad (s : State) (tag off st : Nat) (strided : Bool) (i : Nat) : Res Nat :=
  let sp := elemSpan tag off st strided i
  match s.lmRead sp.1.toNat (sp.2 - sp.1).toNat with
  | .error e => .error e
  | .ok bs => .ok (leNat bs / 2 ^ (if strided then 0 else i * memBits tag % 8) % 2 ^ memBits tag)

/-- One element written to local memory: only its own bits change (R196). -/
def State.elemStore (s : State) (tag off st : Nat) (strided : Bool) (i code : Nat) : Res State :=
  let sp := elemSpan tag off st strided i
  let n := (sp.2 - sp.1).toNat
  let sh := if strided then 0 else i * memBits tag % 8
  let w := memBits tag
  let old := leNat (memRead s.mem.cells (s.lmAt sp.1.toNat) n)
  let low := old % 2 ^ sh
  let high := old / 2 ^ (sh + w)
  s.lmWrite sp.1.toNat (leBytes n (low + code % 2 ^ w * 2 ^ sh + high * 2 ^ (sh + w)))

/-- Active elements of a chunk read by `f`; inactive ones keep their old code. -/
def loadChunk (s : State) (act : Nat → Bool) (f : Nat → Res Nat) : List Nat → Nat → Res (List Nat)
  | [], _ => .ok []
  | y :: ys, i =>
    let here : Res Nat := if act i then f i else .ok y
    match here with
    | .error e => .error e
    | .ok v =>
      match loadChunk s act f ys (i + 1) with
      | .error e => .error e
      | .ok l => .ok (v :: l)

/-- Active elements of a chunk written by `f`. -/
def storeChunk (act : Nat → Bool) (f : Nat → Nat → State → Res State) : List Nat → Nat → State → Res State
  | [], _, s => .ok s
  | y :: ys, i, s =>
    if act i then
      match f i y s with
      | .error e => .error e
      | .ok s => storeChunk act f ys (i + 1) s
    else storeChunk act f ys (i + 1) s

/-- 128 elements of a load into group d (R188). -/
def State.loadUnit (s : State) (x : Cmd) (o : OpV) (tag u : Nat) (f : Nat → Res Nat) : Res State :=
  let old := s.group x o.d.toNat o.g tag
  match loadChunk s (s.core.live.active o) f ((old.drop (128 * u)).take 128) (128 * u) with
  | .error e => .error e
  | .ok l => .ok (s.putGroup x o.d.toNat o.g tag (old.take (128 * u) ++ l ++ old.drop (128 * u + 128)))

/-- 128 elements of a store from group d (R188). -/
def State.storeUnit (s : State) (x : Cmd) (o : OpV) (tag u : Nat) (f : Nat → Nat → State → Res State) : Res State :=
  let l := s.group x o.d.toNat o.g tag
  let one (i c : Nat) (s : State) : Res State :=
    match f i c s with
    | .error e => .error e
    | .ok s => .ok (s.upCmd .vector x.prod (fun y => { y with part := i + 1 - 128 * u }))
  storeChunk (s.core.live.active o) one ((l.drop (128 * u)).take 128) (128 * u) s

/-- VLD and VLDS. -/
def unitVld (o : OpV) (strided : Bool) : UnitFn := fun x u s =>
  s.loadUnit x o o.ldTag u (s.elemLoad o.ldTag (x.arg 0) (x.arg 1) strided)

/-- VST and VSTS. -/
def unitVst (o : OpV) (strided : Bool) : UnitFn := fun x u s =>
  let tag := s.tagAt x o.d.toNat
  s.storeUnit x o tag u (fun i c t => t.elemStore tag (x.arg 0) (x.arg 1) strided i c)

/-- The offsets of an indexed access (R197). -/
def State.indexed (s : State) (x : Cmd) (o : OpV) : List Nat :=
  (s.group x o.b.toNat (indexSize o) 0xC).map (fun c => wrapTo 64 (sext 32 c * (2 ^ o.sb.toNat : Nat)))

/-- The first unit of a gather or scatter: every active range is checked, and the offsets are noted. -/
def State.indexStart (s : State) (x : Cmd) (o : OpV) : Res State :=
  let offs := s.indexed x o
  let w := memBytes o.t 1
  let bad := (offs.zip (List.range offs.length)).any (fun p =>
    s.core.live.active o p.2 && decide (s.lmBytes < p.1 + w))
  if bad then .error (.trap 2 0, s.broken) else .ok (s.upCmd .vector x.prod (fun c => { c with pieces := offs }))

/-- The offsets a gather or scatter noted. -/
def State.noted (s : State) (x : Cmd) : List Nat :=
  match s.cmd? .vector x.prod with
  | some c => c.pieces
  | none => []

/-- VGATH: unit 0 checks, each further unit moves 128 elements. -/
def unitVgath (o : OpV) : UnitFn := fun x u s =>
  match u with
  | 0 => s.indexStart x o
  | u + 1 =>
    let offs := (s.noted x).drop (128 * u)
    s.loadUnit x o o.t u (fun i => s.elemLoad o.t (offs.getD (i - 128 * u) 0) 0 true 0)

/-- VSCAT: unit 0 checks, each further unit moves 128 elements. -/
def unitVscat (o : OpV) : UnitFn := fun x u s =>
  match u with
  | 0 => s.indexStart x o
  | u + 1 =>
    let offs := (s.noted x).drop (128 * u)
    s.storeUnit x o o.t u (fun i c t => t.elemStore o.t (offs.getD (i - 128 * u) 0) 0 true 0 c)

end Sys2Proof.Machine
end

