-- ==== Sys2Proof/Machine/Copy.lean ====
section
/-! DEFINITION. The copy engine (13 R324 to R347): issue checks, and what a unit of each command does. -/

namespace Sys2Proof.Machine

/-! ## Operand words (R332) -/

/-- Handle field of a view word. -/
def vH (w : W32) : Nat := wbits w 31 28

/-- First offset: the literal-capable field of V1. -/
def State.cX1 (s : State) (o : OpE) : Nat := (s.opX o).toNat

/-- The offset register of V2. -/
def State.cX2 (s : State) (o : OpE) : Nat := (s.wordS o.w2 27 22).toNat

/-- The row count of V1: s0 means 1 row (R326). -/
def State.cRows (s : State) (o : OpE) : Nat :=
  if wbits o.w1 15 10 = 0 then 1 else (s.wordS o.w1 15 10).toNat

/-- Row length and c register of a control word (R332). -/
def State.cL (s : State) (w : W32) : Nat := (s.wordS w 31 26).toNat
def State.cC (s : State) (w : W32) : Word := s.wordS w 25 20

/-! ## Issue (R326) -/

/-- An empty view. -/
def View.empty : View := ⟨0, true, 0, 0, 0, 0, 0, none, unguarded, none, 0, 0⟩

/-- A view's range: handle, offset, bytes, rights and operand word. Of the side that an index list or a tile names,
the bytes are known only as the command runs, and `n` says how many it moves. -/
structure Foot where
  h : Nat
  off : Nat
  n : Nat
  need : Right
  opw : Nat
  ranged : Bool := true
deriving DecidableEq, Repr

/-- ReadHandle for a command's view (R86; R326, step 2). An access of no bytes passes at any offset. -/
def State.copyView (s : State) (f : Foot) : Res (View × State) :=
  if f.n = 0 then s.readHandle f.h 0 0 f.need f.opw
  else if f.ranged then s.readHandle f.h f.off f.n f.need f.opw
  else s.openHandle f.h f.off f.need f.opw

/-- ReadHandle on every view, in order (R326, step 2). -/
def State.footprints : List Foot → State → Res (List View × State)
  | [], s => .ok ([], s)
  | f :: l, s =>
    match s.copyView f with
    | .error e => .error e
    | .ok (v, s) =>
      match State.footprints l s with
      | .error e => .error e
      | .ok (vs, s) => .ok (v :: vs, s)

/-- A view of no record: what an access of length 0 has through a register that names none (R85, log 20). -/
def View.absent (v : View) : Bool := v.entry.isNone && decide (2 ≤ v.hreg) && v.off == v.length

/-- Each view lies in this package, or in another, as the command asks (R334, R338). -/
def State.sides (s : State) (l : List (View × Bool)) : Res State :=
  match l.find? (fun p => p.1.local_ != p.2 && !p.1.absent) with
  | some (v, _) => .error (.trap 3 (accessInfo v.off v.opw v.hreg), s)
  | none => .ok s

/-- Steps 2 and 3 of R326 as far as every command shares them: the views of its footprints, those of `loc` each on
its side. -/
def State.copyViews (s : State) (fs : List Foot) (loc : List Bool) : Res (List View × State) :=
  match s.footprints fs with
  | .error e => .error e
  | .ok (vs, s) =>
    match s.sides (vs.zip loc) with
    | .error e => .error e
    | .ok s => .ok (vs.take loc.length, s)

/-- Issue of a copy command: it joins the open group (R325). Scalars: x1, y1, rows, length, x2, y2, third
operand, c. -/
def State.issueCopy (s : State) (i : Instr) (o : OpE) (n : Nat) (scal : List Nat) (views : List View) : Res State :=
  let p := s.core.prod
  match s.issue .copy i o.kd.toNat o.cons (scal.map (BitVec.ofNat 64)) views (cmdLen n true o) [] [] with
  | .error e => .error e
  | .ok s => .ok (s.upRegs (fun g => { g with openGroup := g.openGroup ++ [p] }))

/-- The scalars of a command that moves rows from V1 to V2. -/
def State.rowArgs (s : State) (o : OpE) : List Nat :=
  let l := s.cL o.w3
  [s.cX1 o, s.strideOf o.w1 l, s.cRows o, l, s.cX2 o, s.strideOf o.w2 l, (s.wordS o.w2 15 10).toNat,
    (s.cC o.w3).toNat]

/-- The footprint of a row command's V1, and of its V2 with the rows of V1. -/
def State.foot1 (s : State) (o : OpE) (r : Right) : Foot :=
  ⟨vH o.w1, s.cX1 o, spanOf (s.cRows o) (s.strideOf o.w1 (s.cL o.w3)) (s.cL o.w3), r, 1, true⟩
def State.foot2 (s : State) (o : OpE) (h : Nat) (r : Right) : Foot :=
  ⟨h, s.cX2 o, spanOf (s.cRows o) (s.strideOf o.w2 (s.cL o.w3)) (s.cL o.w3), r, 2, true⟩

/-- The index list of CPG and CPS, checked against h0 (R336). -/
def State.footIx (s : State) (o : OpE) : Foot := ⟨0, (s.wordS o.w2 15 10).toNat, 4 * s.cRows o, .rd, 2, true⟩

/-- A row command whose views are checked and that then joins the queue. -/
def State.issueRows (s : State) (i : Instr) (o : OpE) (fs : List Foot) (loc : List Bool) : Res State :=
  let a := s.rowArgs o
  match s.copyViews fs loc with
  | .error e => .error e
  | .ok (vs, s) => s.issueCopy i o 3 a vs

/-- CPY (R334). -/
def execCpy (o : OpE) (s : State) : Outcome :=
  retire (s.issueRows (.cpy o) o [s.foot1 o .rd, s.foot2 o (vH o.w2) .w] [true, true])

/-- Whether the arrival bit of a control word is set. -/
def arrivalBit (o : OpE) : Bool := bit o.w3.toNat 15

/-- CPYM (R335): with the arrival bit it is a region boundary (R330). -/
def execCpym (o : OpE) (s : State) : Outcome :=
  let a := s.rowArgs o
  let c := (s.cC o.w3).toNat
  retire (match s.copyViews [s.foot1 o .rd, s.foot2 o 0 .w] [true, true] with
    | .error e => .error e
    | .ok (vs, s) =>
      if !arrivalBit o then s.issueCopy (.cpym o) o 3 a vs
      else if !barrierOffOk c s.lmBytes then .error (.trap 2 (accessInfo c 3 0), s)
      else s.between (fun s => s.issueCopy (.cpym o) o 3 a vs))

/-- The bytes that CPG and CPS move. -/
def State.rowBytes (s : State) (o : OpE) : Nat := s.cRows o * s.cL o.w3

/-- CPG (R336): only the destination's footprint and the index list are known at issue. -/
def execCpg (o : OpE) (s : State) : Outcome :=
  retire (s.issueRows (.cpg o) o
    [⟨vH o.w1, s.cX1 o, s.rowBytes o, .rd, 1, false⟩, s.foot2 o (vH o.w2) .w, s.footIx o] [true, true])

/-- CPS (R336): only the source's footprint and the index list are known at issue. -/
def execCps (o : OpE) (s : State) : Outcome :=
  retire (s.issueRows (.cps o) o
    [s.foot1 o .rd, ⟨vH o.w2, s.cX2 o, s.rowBytes o, .w, 2, false⟩, s.footIx o] [true, true])

/-- CPFILL (R337). -/
def execCpfill (o : OpE) (s : State) : Outcome :=
  let l := s.cL o.w2
  let n := s.cRows o
  let y := s.strideOf o.w1 l
  let a := [0, 0, n, l, s.cX1 o, y, 0, (s.cC o.w2).toNat]
  retire (match s.copyViews [⟨vH o.w1, s.cX1 o, spanOf n y l, .w, 1, true⟩] [true] with
    | .error e => .error e
    | .ok (vs, s) => s.issueCopy (.cpfill o) o 2 a (vs ++ vs))

/-- CPREM.put (R338): with the arrival bit it is a region boundary (R330), its handle also has AT, KIND BM and room
for the counter word. -/
def execCpremPut (o : OpE) (s : State) : Outcome :=
  let a := s.rowArgs o
  let c := (s.cC o.w3).toNat
  let info := accessInfo c 3 (vH o.w2)
  let need : Right := if arrivalBit o then .mcwat else .mcw
  retire (match s.copyViews [s.foot1 o .rd, s.foot2 o (vH o.w2) need] [true, false] with
    | .error e => .error e
    | .ok (vs, s) =>
      let w := vs.getD 1 View.empty
      if !arrivalBit o then s.issueCopy (.cpremPut o) o 3 a vs
      else if w.kind ≠ 2 then .error (.trap 3 info, s)
      else if c % 8 ≠ 0 ∨ w.length < c + 8 then .error (.trap 2 info, s)
      else s.between (fun s => s.issueCopy (.cpremPut o) o 3 a vs))

/-- CPREM.get (R338). -/
def execCpremGet (o : OpE) (s : State) : Outcome :=
  retire (s.issueRows (.cpremGet o) o [s.foot1 o .rd, s.foot2 o (vH o.w2) .w] [false, true])

/-- Formats of arithmetic at the bank (R339). -/
def bankTag (t : Nat) : Bool := t == 1 || t == 2 || t == 3 || t == 0xC

/-- A handle without a parameter record: tag 0xF, raw bytes, with D0 = LENGTH (R81). -/
def View.recordOf (v : View) : Param := v.param.getD ⟨0, 0xF, false, false, false, [v.length], [1], 0, 0⟩

/-- The element width of a view's record. -/
def View.width (v : View) : Nat := memBytes v.recordOf.tag 1

/-- The range an in-place update of `l` elements covers, known once the handle is checked (R339). -/
def State.bankFoot (s : State) (h off l opw : Nat) : Res (Foot × View × State) :=
  match s.checkHandle h off opw with
  | .error e => .error e
  | .ok (v, s) => .ok (⟨h, off, l * v.width, .wat, opw, true⟩, v, s)

/-- The own checks of an in-place update (R339): KIND, the record's tag, the alignment. -/
def State.bankOk (s : State) (w : View) (off : Nat) : Res State :=
  let info := accessInfo off w.opw w.hreg
  let tag := w.recordOf.tag
  if w.kind ≠ 2 then .error (.trap 3 info, s)
  else if !bankTag tag then .error (.trap 7 (tagInfo w.hreg tag), s)
  else if off % w.width ≠ 0 then .error (.trap 2 info, s)
  else .ok s

/-- CPRED at issue (R339): a region boundary (R330). -/
def State.issueRed (s : State) (i : Instr) (o : OpE) : Res State :=
  let l := s.cL o.w3
  let x1 := s.cX1 o
  let x2 := s.cX2 o
  match s.bankFoot (vH o.w2) x2 l 2 with
  | .error e => .error e
  | .ok (f, d, s) =>
    match s.copyViews [⟨vH o.w1, x1, l * d.width, .rd, 1, true⟩, f] [true, true] with
    | .error e => .error e
    | .ok (vs, s) =>
      match s.bankOk (vs.getD 1 View.empty) x2 with
      | .error e => .error e
      | .ok s => s.between (fun s => s.issueCopy i o 3 [x1, 0, 1, l, x2, 0, 0, 0] vs)

/-- CPRED.add (R339). -/
def execCpredAdd (o : OpE) (s : State) : Outcome := retire (s.issueRed (.cpredAdd o) o)
/-- CPRED.min (R339). -/
def execCpredMin (o : OpE) (s : State) : Outcome := retire (s.issueRed (.cpredMin o) o)
/-- CPRED.max (R339). -/
def execCpredMax (o : OpE) (s : State) : Outcome := retire (s.issueRed (.cpredMax o) o)

/-- BMUPD at issue (R339): the constants are read now; a region boundary (R330). -/
def State.issueUpd (s : State) (i : Instr) (o : OpE) : Res State :=
  let l := s.cL o.w2
  let x := s.cX1 o
  let c1 := (s.cC o.w2).toNat
  let c2 := (s.wordS o.w1 15 10).toNat
  match s.bankFoot (vH o.w1) x l 1 with
  | .error e => .error e
  | .ok (f, _, s) =>
    match s.copyViews [f] [true] with
    | .error e => .error e
    | .ok (vs, s) =>
      match s.bankOk (vs.getD 0 View.empty) x with
      | .error e => .error e
      | .ok s => s.between (fun s => s.issueCopy i o 2 [0, 0, 1, l, x, 0, c2, c1] (vs ++ vs))

/-- BMUPD.add (R339). -/
def execBmupdAdd (o : OpE) (s : State) : Outcome := retire (s.issueUpd (.bmupdAdd o) o)
/-- BMUPD.mul (R339). -/
def execBmupdMul (o : OpE) (s : State) : Outcome := retire (s.issueUpd (.bmupdMul o) o)
/-- BMUPD.min (R339). -/
def execBmupdMin (o : OpE) (s : State) : Outcome := retire (s.issueUpd (.bmupdMin o) o)
/-- BMUPD.max (R339). -/
def execBmupdMax (o : OpE) (s : State) : Outcome := retire (s.issueUpd (.bmupdMax o) o)
/-- BMUPD.fma (R339). -/
def execBmupdFma (o : OpE) (s : State) : Outcome := retire (s.issueUpd (.bmupdFma o) o)
/-- BMUPD.set (R339). -/
def execBmupdSet (o : OpE) (s : State) : Outcome := retire (s.issueUpd (.bmupdSet o) o)

/-- CPDEC (R344). -/
def execCpdec (o : OpE) (s : State) : Outcome :=
  let t := s.cX1 o
  let x := s.cX2 o
  let z := (s.wordS o.w2 15 10).toNat
  retire (match s.openHandle (vH o.w1) t .rd 1 with
    | .error e => .error e
    | .ok (v, s) =>
      let info := accessInfo t 1 (vH o.w1)
      let p := v.recordOf
      let rb := memBytes p.tag 64
      let y := s.strideOf o.w2 rb
      let scales : List Foot := if p.bs then [⟨vH o.w2, z, 128, .w, 2, true⟩] else []
      match s.footprints (⟨vH o.w2, x, spanOf 64 y rb, .w, 2, true⟩ :: scales) with
      | .error e => .error e
      | .ok (ws, s) =>
        let w := ws.headD View.empty
        match s.sides [(v, true)] with
        | .error e => .error e
        | .ok s =>
          if !p.cmp then .error (.trap 6 info, s)
          else if w.kind ≠ 0 then .error (.trap 3 (accessInfo x 2 (vH o.w2)), s)
          else if p.tiles ≤ t then .error (.trap 2 info, s)
          else s.issueCopy (.cpdec o) o 2 [t, 0, 64, rb, x, y, z, b2n p.bs] [v, w])

/-- CPAGENT at issue (R345): `op` the operation, `tw` the target's bytes, zero where the command finds them only as it
runs, `al` its alignment, `ow` and `rw` the operand and result blocks; a region boundary (R330). -/
def State.issueAgent (s : State) (i : Instr) (o : OpE) (op tw al ow rw : Nat) : Res State :=
  let x := s.cX1 o
  let r := s.cX2 o
  let z := (s.wordS o.w2 15 10).toNat
  let c := (s.cC o.w3).toNat
  match if tw = 0 then s.openHandle (vH o.w1) x .at 1 else s.readHandle (vH o.w1) x tw .at 1 with
  | .error e => .error e
  | .ok (v, s) =>
    let info := accessInfo x 1 (vH o.w1)
    match s.readHandle (vH o.w2) z ow .rd 2 with
    | .error e => .error e
    | .ok (_, s) =>
      match s.readHandle (vH o.w2) r rw .w 2 with
      | .error e => .error e
      | .ok (w, s) =>
        if v.kind ≤ 1 then .error (.trap 3 info, s)
        else if w.kind ≠ 0 then .error (.trap 3 (accessInfo r 2 (vH o.w2)), s)
        else if x % al ≠ 0 then .error (.trap 2 info, s)
        else if op = 3 ∧ (c = 0 ∨ 255 < c) then .error (.trap 6 (accessInfo c 3 (vH o.w1)), s)
        else s.between (fun s => s.issueCopy i o 3 [x, ow, 1, rw, r, 0, z, c] [{ v with off := x }, w])

/-- CPAGENT.cas128 (R345). -/
def execCpagentCas128 (o : OpE) (s : State) : Outcome := retire (s.issueAgent (.cpagentCas128 o) o 0 16 16 32 24)
/-- CPAGENT.cas256 (R345). -/
def execCpagentCas256 (o : OpE) (s : State) : Outcome := retire (s.issueAgent (.cpagentCas256 o) o 1 32 32 64 40)
/-- CPAGENT.enq (R345). -/
def execCpagentEnq (o : OpE) (s : State) : Outcome := retire (s.issueAgent (.cpagentEnq o) o 2 16 16 8 8)
/-- CPAGENT.chase (R345). -/
def execCpagentChase (o : OpE) (s : State) : Outcome := retire (s.issueAgent (.cpagentChase o) o 3 0 8 8 24)

/-! ## Memory through a view -/

/-- Bytes of a view read at their point of order, a piece of at most one 64-byte line at a time. -/
def State.viewRead (v : View) (need : PageNeed) : Nat → Nat → Nat → State → Res (List Byte × State)
  | 0, _, _, s => .ok ([], s)
  | k + 1, off, n, s =>
    if n = 0 then .ok ([], s)
    else
      let m := min n (64 - (v.base + off) % 64)
      match s.viewPlace v off need 0 with
      | .error e => .error e
      | .ok (a, s) =>
        match s.ordRead s.domain a m 0 with
        | .error e => .error e
        | .ok bs =>
          match State.viewRead v need k (off + m) (n - m) s with
          | .error e => .error e
          | .ok (l, s) => .ok (bs ++ l, s)

/-- `n` bytes of a view. -/
def State.vread (s : State) (v : View) (off n : Nat) : Res (List Byte × State) :=
  State.viewRead v 1 (n / 64 + 2) off n s

/-- A place written by a copy command, noted for the line buffer and counted (R320, R472), and in the bytes that
its unit has written. -/
def State.noteWrite (s : State) (prod a n : Nat) : State :=
  (s.countFor s.core.job 0x40 n).upCmd .copy prod (fun c =>
    { c with wrote := if a < 2 ^ 48 then c.wrote ++ [(a, n)] else c.wrote, part := c.part + n })

/-- Bytes of a view written at their point of order, a piece of at most one line at a time. -/
def State.viewWrite (v : View) (prod : Nat) : Nat → Nat → List Byte → State → Res State
  | 0, _, _, s => .ok s
  | k + 1, off, bs, s =>
    if bs = [] then .ok s
    else
      let m := min bs.length (64 - (v.base + off) % 64)
      match s.viewPlace v off 2 0 with
      | .error e => .error e
      | .ok (a, s) =>
        match s.ordWrite s.domain a (bs.take m) 0 with
        | .error e => .error e
        | .ok s => State.viewWrite v prod k (off + m) (bs.drop m) (s.noteWrite prod a m)

/-- Bytes written to a view. -/
def State.vwrite (s : State) (v : View) (prod off : Nat) (bs : List Byte) : Res State :=
  State.viewWrite v prod (bs.length / 64 + 2) off bs s

/-! ## Rows and pieces -/

/-- How many of `n` rows of `l` bytes at stride `y` from `x` hold the byte at `a`. -/
def rowHits (x y n l a : Nat) : Nat :=
  if l = 0 ∨ a < x then 0
  else
    let d := a - x
    if y = 0 then (if d < l then n else 0)
    else
      let hi := min (d / y + 1) n
      let lo := if d < l then 0 else (d - l) / y + 1
      hi - lo

/-- Runs of a piece of `n` bytes from byte `b` of rows of `l` bytes: row, column, length. -/
def runsOf (l : Nat) : Nat → Nat → Nat → List (Nat × Nat × Nat)
  | 0, _, _ => []
  | k + 1, b, n =>
    if n = 0 ∨ l = 0 then []
    else
      let m := min n (l - b % l)
      (b / l, b % l, m) :: runsOf l k (b + m) (n - m)

/-- The arguments of a row command. -/
def Cmd.x1 (c : Cmd) : Nat := c.arg 0
def Cmd.y1 (c : Cmd) : Nat := c.arg 1
def Cmd.rows (c : Cmd) : Nat := c.arg 2
def Cmd.len (c : Cmd) : Nat := c.arg 3
def Cmd.x2 (c : Cmd) : Nat := c.arg 4
def Cmd.y2 (c : Cmd) : Nat := c.arg 5
def Cmd.z (c : Cmd) : Nat := c.arg 6
def Cmd.c8 (c : Cmd) : Nat := c.arg 7

/-- Source and destination views of a command. -/
def Cmd.src (c : Cmd) : View := c.views.getD 0 View.empty
def Cmd.dst (c : Cmd) : View := c.views.getD 1 View.empty

/-- Units of 64 bytes of the bytes moved (R329). -/
def Cmd.pieces64 (c : Cmd) : Nat := groups 64 (c.rows * c.len)

/-- The runs of piece `k`. -/
def Cmd.runs (c : Cmd) (k : Nat) : List (Nat × Nat × Nat) :=
  runsOf c.len 65 (64 * k) (min 64 (c.rows * c.len - 64 * k))

/-- Whether two views of this package lie in one memory, so that their addresses compare. -/
def View.sameSpace (v w : View) : Bool := v.kind == w.kind && v.local_ && w.local_

/-- Whether the byte a row command writes for byte `col` of row `i` is undefined (R327): it lies in the
source, its source byte lies in the destination, or two destination rows hold it. -/
def Cmd.undefAt (c : Cmd) (i col : Nat) : Bool :=
  let v := c.src
  let w := c.dst
  let a := w.base + c.x2 + i * c.y2 + col
  let b := v.base + c.x1 + i * c.y1 + col
  decide (1 < rowHits (w.base + c.x2) c.y2 c.rows c.len a) ||
    (v.sameSpace w &&
      (decide (0 < rowHits (v.base + c.x1) c.y1 c.rows c.len a) ||
        decide (0 < rowHits (w.base + c.x2) c.y2 c.rows c.len b)))

/-- Bytes about to be written with those replaced that are undefined; `old` are those standing there (R11). -/
def State.undefBytes (undef : Nat → Bool) : List Byte → List Byte → Nat → State → List Byte × State
  | [], _, _, s => ([], s)
  | b :: l, old, j, s =>
    let (y, s) := if undef j then s.drawByte [b, old.headD 0] else (b, s)
    let (r, s) := State.undefBytes undef l old.tail (j + 1) s
    (y :: r, s)

/-- The bytes that stand in a range of a view, as far as it can be reached. -/
def State.standing (s : State) (v : View) (off n : Nat) : List Byte :=
  (List.range n).map (fun i => match s.viewPlace v (off + i) 0 0 with
    | .ok (a, _) => memGet s.mem.cells a
    | .error _ => 0)

/-- Bytes written to a view, those that `undef` names undefined (R327); `j` numbers the first. -/
def State.vwriteOr (s : State) (v : View) (prod : Nat) (undef : Nat → Bool) (j off : Nat) (bs : List Byte) : Res State :=
  let (bs, s) := State.undefBytes undef bs (s.standing v off bs.length) j s
  s.vwrite v prod off bs

/-- Runs carried out one after the other. -/
def State.eachRun (f : Nat × Nat × Nat → State → Res State) : List (Nat × Nat × Nat) → State → Res State
  | [], s => .ok s
  | r :: l, s =>
    match f r s with
    | .error e => .error e
    | .ok s => State.eachRun f l s

/-- A unit of CPY (R334). -/
def unitCpy : UnitFn := fun x k s =>
  State.eachRun (fun (i, col, m) s =>
    match s.vread x.src (x.x1 + i * x.y1 + col) m with
    | .error e => .error e
    | .ok (bs, s) =>
      s.vwriteOr x.dst x.prod (x.undefAt i) col (x.x2 + i * x.y2 + col) bs) (x.runs k) s

/-- The pattern byte of CPFILL at column `j` (R337). -/
def fillByte (c f j : Nat) : Byte := BitVec.ofNat 8 (c / 256 ^ (j % 2 ^ f))

/-- A unit of CPFILL (R337): two destination rows that overlap leave their bytes undefined (R327). -/
def unitCpfill (o : OpE) : UnitFn := fun x k s =>
  let f := wbits o.w2 19 16
  State.eachRun (fun (i, col, m) s =>
    let bs := (List.range m).map (fun j => fillByte x.c8 f (col + j))
    let two (j : Nat) : Bool :=
      decide (1 < rowHits (x.dst.base + x.x2) x.y2 x.rows x.len (x.dst.base + x.x2 + i * x.y2 + j))
    s.vwriteOr x.dst x.prod two col (x.x2 + i * x.y2 + col) bs) (x.runs k) s

/-- Whether the strand's own share is among the receivers of a CPYM. -/
def State.receivesOwn (s : State) (cores : List Nat) : Bool :=
  cores.contains s.coreId &&
    match s.core.job, s.receiver s.coreId with
    | some j, some h => h.off == j.lmBase
    | _, _ => false

/-- Bytes written into the receivers of a CPYM at an offset of their shares (R335), those that `undef` names
undefined (R327); `j` numbers the first. -/
def State.multiWrite (undef : Nat → Bool) (j off : Nat) (bs : List Byte) : List Nat → State → Res State
  | [], s => .ok s
  | c :: l, s =>
    match s.receiver c with
    | none => State.multiWrite undef j off bs l s
    | some h =>
      let a := lmPlace c (h.off + off)
      let (b, s) := State.undefBytes undef bs (memRead s.mem.cells a bs.length) j s
      match s.ordWrite s.domain a b 0 with
      | .error e => .error e
      | .ok s => State.multiWrite undef j off bs l (s.countFor s.core.job 0x40 bs.length)

/-- Arrivals noted for the receivers of a piece: counted once the piece is written (R335, R375). -/
def State.noteArrivals (s : State) (cores : List Nat) (off m : Nat) : State :=
  let ps := cores.filterMap (fun c => (s.receiver c).map (fun h => (lmPlace c (h.off + off), m,
    (s.core.job.map (fun j => j.launch)).getD 0)))
  { s with links := { s.links with arrivals := s.links.arrivals ++ ps } }

/-- A unit of CPYM (R335); the last one reports a named core that holds no matching share. -/
def unitCpym (o : OpE) : UnitFn := fun x k s =>
  let cores := s.maskCores (wbits o.w3 19 16)
  let undef (i j : Nat) : Bool :=
    if s.receivesOwn cores then x.undefAt i j
    else decide (1 < rowHits x.x2 x.y2 x.rows x.len (x.x2 + i * x.y2 + j))
  if k < x.pieces64 then
    let r := State.eachRun (fun (i, col, m) s =>
      match s.vread x.src (x.x1 + i * x.y1 + col) m with
      | .error e => .error e
      | .ok (bs, s) =>
        match State.multiWrite (undef i) col (x.x2 + i * x.y2 + col) bs cores s with
        | .error e => .error e
        | .ok s => .ok (s.upCmd .copy x.prod (fun c => { c with part := c.part + m }))) (x.runs k) s
    match r with
    | .error e => .error e
    | .ok s => .ok (if arrivalBit o then s.noteArrivals cores x.c8 (min 64 (x.rows * x.len - 64 * k)) else s)
  else if cores.any (fun c => (s.receiver c).isNone) then .error (.trap 1 0, s)
  else .ok s

/-! ## Index lists (R336) -/

/-- The indices of a gather or scatter, read one by one. -/
def State.readIndices (z : Nat) : Nat → Nat → State → Res (List Nat)
  | 0, _, _ => .ok []
  | k + 1, i, s =>
    match s.lmRead (z + 4 * i) 4 with
    | .error e => .error e
    | .ok bs =>
      match State.readIndices z k (i + 1) s with
      | .error e => .error e
      | .ok l => .ok (leNat bs :: l)

/-- The first unit of CPG and CPS: the indices are read, and every indexed row is checked. -/
def State.rowsStart (s : State) (x : Cmd) (v : View) (off pitch : Nat) : Res State :=
  match State.readIndices x.z x.rows 0 s with
  | .error e => .error e
  | .ok ix =>
    if ix.any (fun i => decide (v.length < off + i * pitch + x.len)) then .error (.trap 2 0, s)
    else .ok (s.upCmd .copy x.prod (fun c => { c with pieces := ix }))

/-- The indices a command noted. -/
def State.indices (s : State) (x : Cmd) : List Nat := ((s.cmd? .copy x.prod).getD x).pieces

/-- Whether some indexed row holds the byte at `a`. -/
def indexedHas (base pitch l a : Nat) (ix : List Nat) : Bool :=
  ix.any (fun i => decide (base + i * pitch ≤ a) && decide (a < base + i * pitch + l))

/-- The pieces of 64 bytes of an indexed row. -/
def Cmd.rowPieces (c : Cmd) : Nat := groups 64 c.len

/-- The units still to run until a started CPG or CPS stands between two rows (R329). -/
def Cmd.rowLeft (c : Cmd) : Nat :=
  let n := max c.rowPieces 1
  let k := (c.cursor - 1) % n
  match c.instr with
  | .cpg _ => if k = 0 then 0 else n - k
  | .cps _ => if k = 0 then 0 else n - k
  | _ => 0

/-- A unit of CPG: the bytes of a row up to its next 64-byte boundary (R336, R364). -/
def unitCpg : UnitFn := fun x u s =>
  match u with
  | 0 => s.rowsStart x x.src x.x1 x.y1
  | r + 1 =>
    let p := 64 * (r % x.rowPieces)
    let r := r / x.rowPieces
    let n := min 64 (x.len - p)
    let ix := s.indices x
    let so := x.x1 + ix.getD r 0 * x.y1
    let d := x.x2 + r * x.y2
    let same := x.src.sameSpace x.dst
    let undef (j : Nat) : Bool :=
      decide (1 < rowHits (x.dst.base + x.x2) x.y2 x.rows x.len (x.dst.base + d + j)) ||
        (same && (indexedHas (x.src.base + x.x1) x.y1 x.len (x.dst.base + d + j) ix ||
          decide (0 < rowHits (x.dst.base + x.x2) x.y2 x.rows x.len (x.src.base + so + j))))
    match s.vread x.src (so + p) n with
    | .error e => .error e
    | .ok (bs, s) =>
      s.vwriteOr x.dst x.prod undef p (d + p) bs

/-- A unit of CPS, as one of CPG; overlapping destination rows are written in increasing order (R336). -/
def unitCps : UnitFn := fun x u s =>
  match u with
  | 0 => s.rowsStart x x.dst x.x2 x.y2
  | r + 1 =>
    let p := 64 * (r % x.rowPieces)
    let r := r / x.rowPieces
    let n := min 64 (x.len - p)
    let ix := s.indices x
    let so := x.x1 + r * x.y1
    let d := x.x2 + ix.getD r 0 * x.y2
    let same := x.src.sameSpace x.dst
    let undef (j : Nat) : Bool :=
      same && (decide (0 < rowHits (x.src.base + x.x1) x.y1 x.rows x.len (x.dst.base + d + j)) ||
        indexedHas (x.dst.base + x.x2) x.y2 x.len (x.src.base + so + j) ix)
    match s.vread x.src (so + p) n with
    | .error e => .error e
    | .ok (bs, s) =>
      s.vwriteOr x.dst x.prod undef p (d + p) bs

/-! ## Remote transfers (R338) -/

/-- The status of a command's request that reached no other package. -/
def State.rankStatus (s : State) (rank : Nat) : Option Nat := s.rankFault rank false

/-- A run cut at the 64-byte lines of the remote address: offset in the run and length. -/
def remoteParts (a : Nat) : Nat → Nat → Nat → List (Nat × Nat)
  | 0, _, _ => []
  | k + 1, o, n =>
    if n = 0 then []
    else
      let m := min n (64 - (a + o) % 64)
      (o, m) :: remoteParts a k (o + m) (n - m)

/-- Every request of a command that still stands. -/
def State.reqsOf (s : State) (prod : Nat) : List Req :=
  s.links.reqs.filter (fun r => r.cmd == some (.copy, prod) && r.core == s.coreId && !r.posted)

/-- The requests of a piece of a put. -/
def State.sendPut (s : State) (x : Cmd) : List (Nat × Nat × Nat) → Res State
  | [] => .ok s
  | (i, col, m) :: l =>
    match s.rankStatus x.dst.rank with
    | some c => .error (.trap c 0, s)
    | none =>
      match s.vread x.src (x.x1 + i * x.y1 + col) m with
      | .error e => .error e
      | .ok (bs, s) =>
        let a := x.dst.base + x.x2 + i * x.y2 + col
        let s := (remoteParts a 3 0 m).foldl (fun s p =>
          (s.send (some (.copy, x.prod)) (i * x.len + col + p.1) .write x.dst.rank (a + p.1)
            ((bs.drop p.1).take p.2) p.2 false).2) s
        (s.countFor s.core.job 0x40 m).sendPut x l

/-- The requests of a piece of a get. -/
def State.sendGet (s : State) (x : Cmd) : List (Nat × Nat × Nat) → Res State
  | [] => .ok s
  | (i, col, m) :: l =>
    match s.rankStatus x.src.rank with
    | some c => .error (.trap c 0, s)
    | none =>
      let a := x.src.base + x.x1 + i * x.y1 + col
      let s := (remoteParts a 3 0 m).foldl (fun s p =>
        (s.send (some (.copy, x.prod)) (i * x.len + col + p.1) .read x.src.rank (a + p.1) [] p.2 false).2) s
      s.sendGet x l

/-- A request taken off the list. -/
def State.dropReq (s : State) (id : Nat) : State :=
  { s with links := { s.links with reqs := s.links.reqs.filter (fun r => r.id != id) } }

/-- The responses of a command taken one after the other: the data of a get is written, bytes that two rows take
undefined (R327), an error status ends the command, a missing response is waited for. A response whose write
misses is kept for the resumption (R328). -/
def State.takeResponses (x : Cmd) (get : Bool) : List Req → State → Res State
  | [], s => .ok s
  | r :: l, s =>
    match r.resp with
    | none => .error (.wait .busy, s)
    | some (st, data) =>
      if st = 9 then .error (.poison (r.addr / 64) 0, s)
      else if st.toNat > 0xD then .error (.trap 1 0, (s.refusedRec r).loseOwn 1)
      else if st ≠ 0 then .error (.trap st.toNat 0, s)
      else if get then
        let s := s.upCmd .copy x.prod (fun c => { c with part := 0 })
        let l0 := max x.len 1
        let d := x.x2 + r.piece / l0 * x.y2 + r.piece % l0
        let undef (j : Nat) : Bool := decide (1 < rowHits (x.dst.base + x.x2) x.y2 x.rows x.len (x.dst.base + d + j))
        match s.vwriteOr x.dst x.prod undef 0 d (data.take r.len) with
        | .error e => .error e
        | .ok t => State.takeResponses x get l (t.dropReq r.id)
      else State.takeResponses x get l (s.dropReq r.id)

/-- A unit of CPREM.put: pieces sent, acknowledgements awaited, then the addition of put.bar, which a later FENCE
awaits as it does a posted write, but not one that scale-out carries (R338, R355, R399). -/
def unitPut (o : OpE) : UnitFn := fun x k s =>
  if k < x.pieces64 then
    -- the source is read once before anything is sent, so that a miss sends nothing
    match State.eachRun (fun (i, col, m) s =>
        match s.vread x.src (x.x1 + i * x.y1 + col) m with
        | .error e => .error e
        | .ok (_, s) => .ok s) (x.runs k) s with
    | .error e => .error e
    | .ok s => s.sendPut x (x.runs k)
  else
    match State.takeResponses x false (s.reqsOf x.prod) s with
    | .error e => .error e
    | .ok s =>
      if arrivalBit o then
        let (id, s) := s.send (some (.copy, x.prod)) 0 .arrival x.dst.rank (x.dst.base + x.c8)
          (leBytes 8 (x.rows * x.len)) 8 true
        .ok (if bit (s.links.rank x.dst.rank).toNat 62 then s else s.upCore (fun k => { k with posted := k.posted ++ [id] }))
      else .ok s

/-- A unit of CPREM.get: pieces asked for, then the data placed as it comes (R338). -/
def unitGet : UnitFn := fun x k s =>
  if k < x.pieces64 then s.sendGet x (x.runs k) else State.takeResponses x true (s.reqsOf x.prod) s

/-! ## Arithmetic at the bank (R339) -/

/-- The operations of R339. -/
inductive BankOp where
  | add | mul | min | max | fma | set
deriving DecidableEq, Repr

/-- The exact result: `d` the old element, `e` the source element or first constant, `f` the second. -/
def BankOp.exact (op : BankOp) (m : Nat) (d e f : Val) : Val × BitVec 5 :=
  match op with
  | .add => addV m d e
  | .mul => mulV d e
  | .min => minV d e
  | .max => maxV d e
  | .fma => fmaV m d e f
  | .set => (e, 0)

/-- The bound a record carries (R67). -/
def Param.bound (p : Param) : Bound :=
  match decodeVal .fp32 p.clamp.toNat with
  | .fin _ n d => .record n d
  | _ => .record 0 1

/-- Whether byte `j` of element `i` of a CPRED is undefined (R327): it lies in the source, or its source byte lies in
the destination. -/
def Cmd.redUndef (x : Cmd) (w i j : Nat) : Bool :=
  let a := x.dst.base + x.x2
  let b := x.src.base + x.x1
  let has (z y : Nat) : Bool := decide (z ≤ y) && decide (y < z + x.len * w)
  x.src.sameSpace x.dst && (has b (a + i * w + j) || has a (b + i * w + j))

/-- One element updated in place; `undef` names its bytes that are undefined. -/
def State.bankElem (s : State) (x : Cmd) (p : Param) (op : BankOp) (undef : Nat → Bool) (place : Nat) (e f : Val) :
    Res State :=
  let w := memBytes p.tag 1
  match s.ordRead s.domain place w 0 with
  | .error r => .error r
  | .ok bs =>
    let fm := fmtOf p.tag
    let r := finish fm p.rnd p.bound (op.exact p.rnd (decodeVal fm (leNat bs)) e f) ⟨s.copyStream x, 0⟩
    let (out, s) := State.undefBytes undef (leBytes w r.1) bs 0 s
    match s.ordWrite s.domain place out 0 with
    | .error r => .error r
    | .ok s => .ok ((s.noteWrite x.prod place w).copyRounding x r.2)

/-- A constant of BMUPD in a format (R339). -/
def bankConst (tag v : Nat) : Val :=
  if tag = 0xC then Val.ofInt (sext 64 v) else decodeVal .fp32 (v % 2 ^ 32)

/-- Elements collected before any of them is changed: places and source values. -/
def State.bankPlan (x : Cmd) (p : Param) (red : Bool) : Nat → Nat → State → Res (List (Nat × Val) × State)
  | 0, _, s => .ok ([], s)
  | k + 1, e, s =>
    let w := memBytes p.tag 1
    match s.viewPlace x.dst (x.x2 + e * w) 10 0 with
    | .error r => .error r
    | .ok (a, s) =>
      let got : Res (Val × State) :=
        if red then
          match s.vread x.src (x.x1 + e * w) w with
          | .error r => .error r
          | .ok (bs, s) => .ok (decodeVal (fmtOf p.tag) (leNat bs), s)
        else .ok (bankConst p.tag x.c8, s)
      match got with
      | .error r => .error r
      | .ok (v, s) =>
        match State.bankPlan x p red k (e + 1) s with
        | .error r => .error r
        | .ok (l, s) => .ok ((a, v) :: l, s)

/-- Elements updated one after the other, from element `i`. -/
def State.bankAll (x : Cmd) (p : Param) (op : BankOp) (red : Bool) : Nat → List (Nat × Val) → State → Res State
  | _, [], s => .ok s
  | i, (a, v) :: l, s =>
    let undef (j : Nat) : Bool := red && x.redUndef (memBytes p.tag 1) i j
    match s.bankElem x p op undef a v (bankConst p.tag x.z) with
    | .error r => .error r
    | .ok s => State.bankAll x p op red (i + 1) l s

/-- A unit of CPRED and BMUPD: the elements up to the next byte offset that is a multiple of 64 (R329). -/
def unitBank (op : BankOp) (red : Bool) : UnitFn := fun x u s =>
  let p := x.dst.recordOf
  let w := memBytes p.tag 1
  let r := x.x2 % 64
  let e0 := (64 * u - r) / w
  let e1 := min x.len ((64 * (u + 1) - r) / w)
  match State.bankPlan x p red (e1 - e0) e0 s with
  | .error e => .error e
  | .ok (l, s) => State.bankAll x p op red e0 l s

/-- The units of CPRED and BMUPD. -/
def bankUnits (x : Cmd) : Nat :=
  if x.len = 0 then 0 else groups 64 (x.x2 % 64 + x.len * x.dst.width)

/-! ## Compressed tiles (R340 to R344) -/

/-- Why a block is malformed (R343). -/
inductive Malformed where
  | magic | reserved | format | extent | count | escape
deriving DecidableEq, Repr

/-- The reason's code. -/
def Malformed.code : Malformed → Nat
  | .magic => 1
  | .reserved => 2
  | .format => 3
  | .extent => 4
  | .count => 5
  | .escape => 6

/-- Method 0: dictionary and escapes (R342). -/
def dictStream (dict : List Nat) : Nat → List Nat → Except Malformed (List Nat)
  | 0, rest => if rest.length < 32 && rest.all (fun n => n == 0) then .ok [] else .error .count
  | _ + 1, [] => .error .count
  | k + 1, n :: l =>
    if n = 15 then
      match l with
      | a :: b :: l =>
        match dictStream dict k l with
        | .ok r => .ok ((a + 16 * b) :: r)
        | .error e => .error e
      | _ => .error .escape
    else
      match dictStream dict k l with
      | .ok r => .ok (dict.getD n 0 :: r)
      | .error e => .error e

/-- The nibbles of bytes, low half first. -/
def nibbles (bs : List Byte) : List Nat := bs.flatMap (fun b => [b.toNat % 16, b.toNat / 16])

/-- Method 2: elements named by the bitmap, taken from a packed run (R342). -/
def sparse : List Bool → List Nat → List Nat
  | true :: bs, c :: cs => c :: sparse bs cs
  | true :: bs, [] => 0 :: sparse bs []
  | false :: bs, cs => 0 :: sparse bs cs
  | [], _ => []

/-- Formats method 0 and method 2 serve (R342). -/
def dictTag (t : Nat) : Bool := t == 4 || t == 5 || t == 9 || t == 0xA
def sparseTag (t : Nat) : Bool := t == 6 || t == 7 || t == 8 || t == 0xB

/-- The 4096 codes of a body by its method, or why not (R342, steps 6 to 8 of R343). -/
def decodeBody (tag method : Nat) (body : List Byte) : Except Malformed (List Nat) :=
  let w := memBits tag
  if method = 0 then
    if (body.getD 15 0) ≠ 0 then .error .reserved
    else dictStream ((body.take 15).map BitVec.toNat) 4096 (nibbles (body.drop 16))
  else if method = 1 then
    if body.length = 512 * w then .ok (unpackNat w 4096 (leNat body)) else .error .count
  else
    let map := unpackNat 1 4096 (leNat (body.take 512))
    let p := map.foldl (fun a b => a + b) 0
    let packed := if w = 6 then (p + 3) / 4 * 3 else (p * w + 7) / 8
    let v := leNat (body.drop 512)
    if body.length = 16 * (32 + (packed + 15) / 16) ∧ v / 2 ^ (p * w) = 0 then
      .ok (sparse (map.map (fun b => b == 1)) (unpackNat w p v))
    else .error .count

/-- Header checks of R343, steps 2 to 4. -/
def headerCheck (tag : Nat) (h : List Byte) : Option Malformed :=
  let method := bits (field h 1 1) 7 4
  if field h 0 1 ≠ 0xC5 ∨ field h 4 2 ≠ 4096 then some .magic
  else if field h 6 10 ≠ 0 then some .reserved
  else if 2 < method ∨ bits (field h 1 1) 3 0 ≠ tag ∨ (method = 0 ∧ !dictTag tag) ∨ (method = 2 ∧ !sparseTag tag) then
    some .format
  else none

/-- The detail of a malformed block (R344). -/
def malformedDetail (t : Nat) (m : Malformed) : Word := BitVec.ofNat 64 (t % 2 ^ 32 + m.code * 2 ^ 32)

/-- A block decoded (R340 to R343): the tile's bytes, row by row, and its scales. -/
def State.decodeTile (s : State) (v : View) (p : Param) (t : Nat) : Res (List Byte × List Byte × State) :=
  let bad (m : Malformed) (s : State) : Res (List Byte × List Byte × State) :=
    .error (.trap 0xA (malformedDetail t m), s)
  let table := p.aux * 4096
  match s.vread v (table + 4 * t) 4 with
  | .error e => .error e
  | .ok (e0, s) =>
    let at0 := 16 * leNat e0
    if v.length < at0 + 16 then bad .extent s
    else
      match s.vread v at0 16 with
      | .error e => .error e
      | .ok (h, s) =>
        match headerCheck p.tag h with
        | some m => bad m s
        | none =>
          let n := 16 * field h 2 2
          let last : Res (Nat × State) :=
            if t + 1 < p.tiles then
              match s.vread v (table + 4 * t + 4) 4 with
              | .error e => .error e
              | .ok (e1, s) => .ok (min v.length (16 * leNat e1), s)
            else .ok (v.length, s)
          match last with
          | .error e => .error e
          | .ok (top, s) =>
            if top < at0 + 16 + n then bad .extent s
            else
              match s.vread v (at0 + 16) n with
              | .error e => .error e
              | .ok (body, s) =>
                match decodeBody p.tag (bits (field h 1 1) 7 4) body with
                | .error m => bad m s
                | .ok cs =>
                  let tile := pack p.tag cs
                  if p.bs then
                    match s.vread v (table + 4 * p.tiles + 128 * t) 128 with
                    | .error e => .error e
                    | .ok (sc, s) => .ok (tile, sc, s)
                  else .ok (tile, [], s)

/-- A unit of CPDEC: the whole block into the staging buffer, then 64-byte pieces of it (R329, R344). -/
def unitCpdec : UnitFn := fun x u s =>
  match u with
  | 0 =>
    match x.src.param with
    | none => .error (.trap 6 0, s)
    | some p =>
      match s.decodeTile x.src p x.x1 with
      | .error e => .error e
      | .ok (tile, sc, s) =>
        .ok (s.upCmd .copy x.prod (fun c => { c with pieces := (tile ++ sc).map BitVec.toNat }))
  | k + 1 =>
    let all := s.indices x
    let body := 64 * x.len
    if 64 * k < body then
      State.eachRun (fun (i, col, m) s =>
        let two (j : Nat) : Bool :=
          decide (1 < rowHits (x.dst.base + x.x2) x.y2 x.rows x.len (x.dst.base + x.x2 + i * x.y2 + j))
        s.vwriteOr x.dst x.prod two col (x.x2 + i * x.y2 + col)
          (((all.drop (i * x.len + col)).take m).map (BitVec.ofNat 8))) (x.runs k) s
    else
      let o := 64 * k - body
      s.vwrite x.dst x.prod (x.z + o) (((all.drop (64 * k)).take 64).map (BitVec.ofNat 8))

/-! ## The memory agent (R345) -/

/-- NIL of a list. -/
def nilOff : Nat := 2 ^ 64 - 1

/-- A word of a view read or written through its place. -/
def State.viewWord (s : State) (v : View) (off : Nat) : Res (Nat × State) :=
  match State.viewRead v 8 3 off 8 s with
  | .error e => .error e
  | .ok (bs, s) => .ok (leNat bs, s)

/-- Enqueue (R345): every offset is checked and every place translated before anything is written. -/
def State.agentEnq (s : State) (v : View) (prod hd node : Nat) : Res (List Byte × State) :=
  match s.viewWord v hd with
  | .error e => .error e
  | .ok (_, s) =>
    match s.viewWord v (hd + 8) with
    | .error e => .error e
    | .ok (tail, s) =>
      let out (x : Nat) : Bool := x % 8 != 0 || decide (v.length < x + 8)
      if out node || (tail != nilOff && out tail) then .error (.trap 2 0, s)
      else
        let last := if tail = nilOff then hd else tail
        match s.viewPlace v node 8 0 with
        | .error e => .error e
        | .ok (pn, s) =>
          match s.viewPlace v last 8 0 with
          | .error e => .error e
          | .ok (pl, s) =>
            match s.viewPlace v (hd + 8) 8 0 with
            | .error e => .error e
            | .ok (pt, s) =>
              let w (r : Res State) (a x : Nat) : Res State :=
                match r with
                | .error e => .error e
                | .ok s =>
                  match s.ordWrite s.domain a (leBytes 8 x) 0 with
                  | .error e => .error e
                  | .ok s => .ok (s.noteWrite prod a 8)
              match w (w (w (.ok s) pn nilOff) pl node) pt node with
              | .error e => .error e
              | .ok s => .ok (leBytes 8 tail, s)

/-- Chase (R345). -/
def State.agentChase (v : View) (key : Nat) : Nat → Nat → Nat → State → Res (List Byte × State)
  | 0, p, d, s => .ok (leBytes 8 p ++ leBytes 8 2 ++ leBytes 8 d, s)
  | k + 1, p, d, s =>
    if v.length < p + 16 ∨ p % 8 ≠ 0 then .error (.trap 2 0, s)
    else
      match s.viewWord v (p + 8) with
      | .error e => .error e
      | .ok (x, s) =>
        if x = key then .ok (leBytes 8 p ++ leBytes 8 0 ++ leBytes 8 (d + 1), s)
        else
          match s.viewWord v p with
          | .error e => .error e
          | .ok (next, s) =>
            if next = nilOff then .ok (leBytes 8 p ++ leBytes 8 1 ++ leBytes 8 (d + 1), s)
            else State.agentChase v key k next (d + 1) s

/-- Compare-and-swap of `n` bytes (R345). -/
def State.agentCas (s : State) (v : View) (prod n off : Nat) (op : List Byte) : Res (List Byte × State) :=
  match s.viewPlace v off 8 0 with
  | .error e => .error e
  | .ok (a, s) =>
    match s.ordRead s.domain a n 0 with
    | .error e => .error e
    | .ok old =>
      if old = op.take n then
        match s.ordWrite s.domain a ((op.drop n).take n) 0 with
        | .error e => .error e
        | .ok s => .ok (old ++ leBytes 8 1, s.noteWrite prod a n)
      else .ok (old ++ leBytes 8 0, s)

/-- An agent operation on memory of this package: the result block. -/
def State.agentAct (s : State) (v : View) (prod op off depth : Nat) (operand : List Byte) : Res (List Byte × State) :=
  match op with
  | 0 => s.agentCas v prod 16 off operand
  | 1 => s.agentCas v prod 32 off operand
  | 2 => s.agentEnq v prod off (leNat (operand.take 8))
  | _ => State.agentChase v (leNat (operand.take 8)) depth off 0 s

/-- An agent operation as the payload of a request carries it, in at most 64 bytes: the operand; for an enqueue or a
chase BASE and LENGTH of the target range after it, and for a chase the depth. Its length tells the operations apart
(the manual gives no layout; log 30). -/
def agentPayload (op depth : Nat) (v : View) (operand : List Byte) : List Byte :=
  match op with
  | 0 => operand
  | 1 => operand
  | 2 => operand ++ leBytes 8 v.base ++ leBytes 8 v.length
  | _ => operand ++ leBytes 8 v.base ++ leBytes 8 v.length ++ leBytes 1 depth

/-- CPAGENT: one unit, never cut (R329); for another package a request and its response. -/
def unitAgent (op : Nat) : UnitFn := fun x _ s =>
  let v := x.src
  let done (bs : List Byte) (s : State) : Res State := s.vwrite x.dst x.prod x.x2 bs
  if v.local_ then
    match s.lmRead x.z (x.arg 1) with
    | .error e => .error e
    | .ok operand =>
      match s.agentAct v x.prod op v.off x.c8 operand with
      | .error e => .error e
      | .ok (bs, s) => done bs s
  else
    match s.reqsOf x.prod with
    | [] =>
      match s.rankStatus v.rank with
      | some c => .error (.trap c 0, s)
      | none =>
        match s.lmRead x.z (x.arg 1) with
        | .error e => .error e
        | .ok operand =>
          let s := (s.send (some (.copy, x.prod)) 0 .agent v.rank (v.base + v.off)
            (agentPayload op x.c8 v operand) (x.arg 3) false).2
          .error (.wait .busy, s)
    | r :: _ =>
      match r.resp with
      | none => .error (.wait .busy, s)
      | some (st, data) =>
        let s := s.dropReq r.id
        if st = 9 then .error (.poison (r.addr / 64) 0, s)
        else if st.toNat > 0xD then .error (.trap 1 0, (s.refusedRec r).loseOwn 1)
        else if st ≠ 0 then .error (.trap st.toNat 0, s)
        else done (data.take (x.arg 3)) s

/-- Units of a copy command, with what each does. -/
def copyUnits (c : Cmd) : Nat × UnitFn :=
  match c.instr with
  | .cpy _ => (c.pieces64, unitCpy)
  | .cpym o => (if c.rows * c.len = 0 then 0 else c.pieces64 + 1, unitCpym o)
  | .cpg _ => (if c.len = 0 then 0 else if c.rows = 0 then 0 else 1 + c.rows * c.rowPieces, unitCpg)
  | .cps _ => (if c.len = 0 then 0 else if c.rows = 0 then 0 else 1 + c.rows * c.rowPieces, unitCps)
  | .cpfill o => (c.pieces64, unitCpfill o)
  | .cpremPut o => (if c.rows * c.len = 0 then 0 else c.pieces64 + 1, unitPut o)
  | .cpremGet _ => (if c.rows * c.len = 0 then 0 else c.pieces64 + 1, unitGet)
  | .cpredAdd _ => (bankUnits c, unitBank .add true)
  | .cpredMin _ => (bankUnits c, unitBank .min true)
  | .cpredMax _ => (bankUnits c, unitBank .max true)
  | .bmupdAdd _ => (bankUnits c, unitBank .add false)
  | .bmupdMul _ => (bankUnits c, unitBank .mul false)
  | .bmupdMin _ => (bankUnits c, unitBank .min false)
  | .bmupdMax _ => (bankUnits c, unitBank .max false)
  | .bmupdFma _ => (bankUnits c, unitBank .fma false)
  | .bmupdSet _ => (bankUnits c, unitBank .set false)
  | .cpdec _ => (1 + c.len + (if c.c8 = 1 then 2 else 0), unitCpdec)
  | .cpagentCas128 _ => (1, unitAgent 0)
  | .cpagentCas256 _ => (1, unitAgent 1)
  | .cpagentEnq _ => (1, unitAgent 2)
  | .cpagentChase _ => (1, unitAgent 3)
  | _ => (0, fun _ _ s => .ok s)

/-! ## Bytes a command leaves undefined (16 R395, 20 R432, 24 R486) -/

/-- Bytes of a view made undefined, a piece of at most one line at a time; what cannot be reached stays. -/
def State.blurView (v : View) : Nat → Nat → Nat → State → State
  | 0, _, _, s => s
  | k + 1, off, n, s =>
    if n = 0 then s
    else
      let m := min n (64 - (v.base + off) % 64)
      let s := match s.viewPlace v off 2 0 with
        | .ok (a, t) =>
          let (bs, t) := t.drawOver (memRead t.mem.cells a m)
          t.poke a bs
        | .error _ => s
      State.blurView v k (off + m) (n - m) s

/-- Offset and length of the destination runs from piece `k` on. -/
def Cmd.runsFrom (c : Cmd) (k : Nat) : List (Nat × Nat) :=
  (List.range (c.pieces64 - k)).flatMap (fun i => (c.runs (k + i)).map (fun r => (c.x2 + r.1 * c.y2 + r.2.1, r.2.2)))

/-- Ranges without their first `n` bytes. -/
def dropFront : Nat → List (Nat × Nat) → List (Nat × Nat)
  | _, [] => []
  | n, (a, m) :: l => if n < m then (a + n, m - n) :: l else dropFront (n - m) l

/-- Offset and length of the pieces of indexed destination rows from piece `k` on. -/
def Cmd.rowRuns (c : Cmd) (rows : List Nat) (k : Nat) : List (Nat × Nat) :=
  (rows.flatMap (fun i => (List.range c.rowPieces).map (fun p =>
    (c.x2 + i * c.y2 + 64 * p, min 64 (c.len - 64 * p))))).drop k

/-- Offset and length of what a command writes from unit `u` on; of a get, what its requests still owe and what it has
not asked for. -/
def State.rangesFrom (s : State) (c : Cmd) (u : Nat) : List (Nat × Nat) :=
  let bank : List (Nat × Nat) :=
    let w := c.dst.width
    let e := (64 * u - c.x2 % 64) / w
    [(c.x2 + e * w, (c.len - e) * w)]
  match c.instr with
  | .cpy _ => c.runsFrom u
  | .cpym _ => c.runsFrom u
  | .cpfill _ => c.runsFrom u
  | .cpremGet _ =>
    (s.reqsOf c.prod).map (fun r => (c.x2 + r.piece / max c.len 1 * c.y2 + r.piece % max c.len 1, r.len)) ++ c.runsFrom u
  | .cpg _ => c.rowRuns (List.range c.rows) (u - 1)
  | .cps _ => c.rowRuns (s.indices c) (u - 1)
  | .cpagentCas128 _ => [(c.x2, c.len)]
  | .cpagentCas256 _ => [(c.x2, c.len)]
  | .cpagentEnq _ => [(c.x2, c.len)]
  | .cpagentChase _ => [(c.x2, c.len)]
  | .cpdec _ =>
    let o := 64 * (u - 1) - 64 * c.len
    c.runsFrom (u - 1) ++ (if c.c8 = 1 then [(c.z + o, 128 - o)] else [])
  | .cpredAdd _ => bank
  | .cpredMin _ => bank
  | .cpredMax _ => bank
  | .bmupdAdd _ => bank
  | .bmupdMul _ => bank
  | .bmupdMin _ => bank
  | .bmupdMax _ => bank
  | .bmupdFma _ => bank
  | .bmupdSet _ => bank
  | _ => []

/-- The same without the bytes that unit `u` has written already. -/
def State.restOf (s : State) (c : Cmd) (u : Nat) : List (Nat × Nat) :=
  dropFront ((s.cmd? .copy c.prod).getD c).part (s.rangesFrom c u)

/-- What a command of the acting core has not written from unit `u` on becomes undefined. -/
def State.blurRest (s : State) (c : Cmd) (u : Nat) : State :=
  let runs := s.restOf c u
  match c.instr with
  | .cpym o =>
    ((s.maskCores (wbits o.w3 19 16)).filterMap (fun n => (s.receiver n).map (fun h => lmPlace n h.off))).foldl
      (fun s a => runs.foldl (fun s r =>
        let (bs, t) := s.drawOver (memRead s.mem.cells (a + r.1) r.2)
        t.poke (a + r.1) bs) s) s
  | _ => runs.foldl (fun s r => State.blurView c.dst (r.2 / 64 + 2) r.1 r.2 s) s

/-- The requests of a command that has ended are forgotten. -/
def State.forget (s : State) (prod : Nat) : State := (s.reqsOf prod).foldl (fun s r => s.dropReq r.id) s

/-- A command whose writes to another package are not all acknowledged: its token does not complete before they are
(R338, R354). -/
def State.owesWrites (s : State) (prod : Nat) : Bool :=
  (s.reqsOf prod).any (fun r => r.op == .write && r.resp.isNone)

/-- A command that fails with a status, at a poisoned line if it consumed one: it ends once its writes are
acknowledged. -/
def State.failing (s : State) (x : Cmd) (r : Stop) (st : Nat) (detail : Word) (line : List Nat) : Stop × State :=
  if s.owesWrites x.prod then
    (.wait .busy, s.upCmd .copy x.prod (fun c =>
      { c with fail := some (BitVec.ofNat 8 st, detail.setWidth 40), pieces := line }))
  else (r, s.forget x.prod)

/-- A unit that fails with PEER_DEAD leaves what a get or an agent's answer was to write undefined (R395); one that
consumes poison in a command of an earlier region, what the command has not written (R432). -/
def spoiling (f : UnitFn) : UnitFn := fun x u s =>
  match f x u s with
  | .ok t => .ok t
  | .error (.poison l i, t) =>
    .error ((if !t.core.inRegion x.rseq && !x.orphan then t.blurRest x u else t).failing x (.poison l i) 9 0 [l])
  | .error (.trap c i, t) =>
    .error ((if c == 0xD then t.blurRest x u else t).failing x (.trap c i) c i [])
  | .error e => .error e

end Sys2Proof.Machine
end

