-- ==== Sys2Proof/Machine/Chain.lean ====
section
/-! DEFINITION. VCHAIN (09 R221 to R226), and the units of every vector instruction. -/

namespace Sys2Proof.Machine

/-- A chain table (R222). -/
structure ChainTable where
  nops : Nat
  ytag : Nat
  xtag : Nat
  ztag : Nat
  clamp : Bool
  rnd : Nat
  ops : List Nat
  consts : List Nat
deriving DecidableEq, Repr

/-- A chain table read from its 64 bytes. -/
def ChainTable.read (bs : List Byte) : ChainTable where
  nops := bits (field bs 0 1) 3 0
  ytag := bits (field bs 1 1) 7 4
  xtag := bits (field bs 1 1) 3 0
  ztag := bits (field bs 2 1) 3 0
  clamp := bit (field bs 3 1) 3
  rnd := bits (field bs 3 1) 2 0
  ops := (List.range 8).map (fun i => field bs (8 + 4 * i) 4)
  consts := (List.range 4).map (fun i => field bs (40 + 4 * i) 4)

/-- The operands an operation reads besides dst: 2 for p and q, 1 for p alone (R224). -/
def opArity (opc : Nat) : Nat :=
  if opc ∈ [0x01, 0x02, 0x03, 0x04, 0x05, 0x06, 0x13, 0x14, 0x15, 0x17] then 2 else 1

/-- An operation word meets R223 in a table with (`y`) or without a stream Y. -/
def chainOpOk (y : Bool) (w : Nat) : Bool :=
  let opc := bits w 31 27
  let p := bits w 24 22
  let q := bits w 21 19
  decide (1 ≤ opc) && decide (opc ≤ 0x18) && bits w 26 25 != 3 && bits w 18 0 == 0 &&
    (opArity opc == 2 || q == 0) && (y || (p != 3 && q != 3))

/-- The table meets R222 and R223, with a mode of R62. -/
def ChainTable.ok (t : ChainTable) (bs : List Byte) : Bool :=
  decide (1 ≤ t.nops) && decide (t.nops ≤ 8) && bits (field bs 0 1) 7 4 == 0 && bits (field bs 2 1) 7 4 == 0 &&
    bits (field bs 3 1) 7 4 == 0 && field bs 4 4 == 0 && field bs 56 8 == 0 &&
    tagFamily t.xtag == 1 && tagFamily t.ztag == 1 && (t.ytag == 0 || tagFamily t.ytag == 1) &&
    rndOk t.rnd && (t.ops.take t.nops).all (chainOpOk (t.ytag != 0)) && (t.ops.drop t.nops).all (fun w => w == 0)

/-- The streams' tags. -/
def ChainTable.tags (t : ChainTable) : List Nat := [t.xtag, t.ztag] ++ if t.ytag = 0 then [] else [t.ytag]

/-- n fits the packing of every stream (R225, step 3). -/
def ChainTable.countOk (t : ChainTable) (n : Nat) : Bool :=
  t.tags.all (fun g => (memBits g != 4 || n % 2 == 0) && (memBits g != 6 || n % 4 == 0))

/-- Trunc of a finite value, limited to a range in which every FP32 scaling saturates. -/
def truncInt (v : Val) : Int :=
  match v with
  | .fin s n d => let k := min (n / d) 1000; if s then -(k : Int) else k
  | _ => 0

/-- The largest whole number not above a value (R224). -/
def floorV (v : Val) : Val :=
  match v with
  | .fin s n d =>
    if n % d = 0 then .fin s (n / d) 1
    else if s then .fin true (n / d + 1) 1
    else .fin false (n / d) 1
  | .nan _ => .nan false
  | v => v

/-- A chain operation (R224): its value before the one rounding, and the flags of its special cases. -/
def chainOp (opc : Nat) (p q dst : Val) : Val × BitVec 5 :=
  match opc with
  | 0x01 => addV 0 p q
  | 0x02 => addV 0 p q.neg
  | 0x03 => mulV p q
  | 0x04 => fmaV 0 p q dst
  | 0x05 => minV p q
  | 0x06 => maxV p q
  | 0x07 => (p.abs, 0)
  | 0x08 => (p.neg, 0)
  | 0x09 => (p, 0)
  | 0x0A => rcpV p
  | 0x0B => rsqrtV p
  | 0x0C => sqrtV p
  | 0x0D => exp2V p
  | 0x0E => log2V p
  | 0x0F => sinV p
  | 0x10 => cosV p
  | 0x11 => tanhV p
  | 0x12 => sigV p
  | 0x13 =>
    if p.isNaN then (.nan false, nanFlags [p, q])
    else
      let a := maxV p q.abs.neg
      let b := minV a.1 q.abs
      (b.1, a.2 ||| b.2)
  | 0x14 => (if !p.isNaN && !q.isNaN && decide (0 < cmpV p q) then Val.one else Val.zero, nanFlags [p, q])
  | 0x15 => (if !dst.isNaN && decide (0 < cmpV dst Val.zero) then p else q, nanFlags [dst])
  | 0x16 => (floorV p, nanFlags [p])
  | 0x17 =>
    if q.isNaN || q.isInf then (.nan false, fINV)
    else mulV p (Val.scaled false 1 (truncInt q))
  | _ => (if p.isNaN then .nan false else if 0 < cmpV p Val.zero then p else Val.zero, nanFlags [p])

/-- The working values of a chain: x, t, u. -/
structure Chain where
  x : Val
  t : Val
  u : Val
  fl : BitVec 5
deriving DecidableEq, Repr

/-- An operand of an operation word (R223). -/
def Chain.get (k : Chain) (y : Val) (consts : List Nat) (code : Nat) : Val :=
  match code with
  | 0 => k.x
  | 1 => k.t
  | 2 => k.u
  | 3 => y
  | n => decodeVal .fp32 (consts.getD (n - 4) 0)

/-- One operation applied: every intermediate is rounded to FP32 under mode 0 (R221). -/
def Chain.apply (k : Chain) (y : Val) (consts : List Nat) (w : Nat) : Chain :=
  let d := bits w 26 25
  let r := finish .fp32 0 (.reg false)
    (chainOp (bits w 31 27) (k.get y consts (bits w 24 22)) (k.get y consts (bits w 21 19)) (k.get y consts d)) ⟨1, 0⟩
  let v := decodeVal .fp32 r.1
  let fl := k.fl ||| r.2.fl
  match d with
  | 0 => { k with x := v, fl := fl }
  | 1 => { k with t := v, fl := fl }
  | _ => { k with u := v, fl := fl }

/-- One element through the chain (R221). -/
def ChainTable.run (t : ChainTable) (x y : Val) (c : Rnd) : Nat × Rnd :=
  let k := (t.ops.take t.nops).foldl (fun k w => k.apply y t.consts w) (⟨x, Val.zero, Val.zero, 0⟩ : Chain)
  roundTo (fmtOf t.ztag) k.x t.rnd (.reg t.clamp) (c.set k.fl)

/-- The bytes of a stream of `n` elements. -/
def streamBytes (tag n : Nat) : Nat := memBytes tag n

/-- The bytes of Z are undefined (R226): Z overlaps X or Y, and not as an in-place chain. -/
def ChainTable.undef (t : ChainTable) (x y z n : Nat) : Bool :=
  let zs : Span := (z, streamBytes t.ztag n)
  let hit (off tag : Nat) : Bool :=
    Span.meets (off, streamBytes tag n) zs && !(off == z && memBits tag == memBits t.ztag)
  hit x t.xtag || (t.ytag != 0 && hit y t.ytag)

/-- The first unit of VCHAIN: the table is read and checked, and noted (R225). -/
def State.chainStart (s : State) (x : Cmd) : Res State :=
  let n := x.arg 3
  if s.lmBytes < x.arg 4 + 64 then .error (.trap 2 0, s.broken)
  else
    match s.lmRead (x.arg 4) 64 with
    | .error e => .error e
    | .ok bs =>
      let t := ChainTable.read bs
      if !t.ok bs || !t.countOk n then .error (.trap 6 0, s)
      else
        let fits (off tag : Nat) : Bool := n == 0 || decide (off + streamBytes tag n ≤ s.lmBytes)
        if !(fits (x.arg 0) t.xtag && (t.ytag == 0 || fits (x.arg 1) t.ytag) && fits (x.arg 2) t.ztag) then
          .error (.trap 2 0, s.broken)
        else .ok (s.upCmd .vector x.prod (fun c => { c with
          pieces := b2n (t.undef (x.arg 0) (x.arg 1) (x.arg 2) n) :: bs.map BitVec.toNat }))

/-- The bytes of an element of Z after its store, which are undefined: each the byte that stood there, the one
written, or another that R11 allows (R226). -/
def State.blurElem (before s : State) (tag off e : Nat) : State :=
  let sp := elemSpan tag off 0 false e
  let a := s.lmAt sp.1.toNat
  let n := (sp.2 - sp.1).toNat
  let d := State.drawBytes (((memRead s.mem.cells a n).zip (memRead before.mem.cells a n)).map (fun p => [p.1, p.2])) s
  d.2.poke a d.1

/-- Elements `e` onwards of a chain, `k` of them. -/
def State.chainElems (t : ChainTable) (undef : Bool) (x : Cmd) : Nat → Nat → State → Res State
  | 0, _, s => .ok s
  | k + 1, e, s =>
    match s.elemLoad t.xtag (x.arg 0) 0 false e with
    | .error r => .error r
    | .ok a =>
      let y : Res Nat := if t.ytag = 0 then .ok 0 else s.elemLoad t.ytag (x.arg 1) 0 false e
      match y with
      | .error r => .error r
      | .ok b =>
        let r := t.run (tagVal t.xtag a) (if t.ytag = 0 then Val.zero else tagVal t.ytag b) ⟨s.stream .vector, 0⟩
        match s.elemStore t.ztag (x.arg 2) 0 false e r.1 with
        | .error r => .error r
        | .ok u =>
          let s := if undef then State.blurElem s u t.ztag (x.arg 2) e else u
          State.chainElems t undef x k (e + 1) ((s.rounding .vector x.prod r.2).upCmd .vector x.prod (fun c =>
            { c with part := c.part + 1 }))

/-- VCHAIN: unit 0 checks the table, each further unit runs 128 elements (R188). -/
def unitVchain : UnitFn := fun x u s =>
  match u with
  | 0 => s.chainStart x
  | u + 1 =>
    let l := s.noted x
    let t := ChainTable.read ((l.drop 1).map (BitVec.ofNat 8))
    State.chainElems t (l.headD 0 == 1) x (min 128 (x.arg 3 - 128 * u)) (128 * u) s

/-- One unit that does not touch memory. -/
def once (f : UnitFn) : Nat × UnitFn := (1, f)

/-- Units of a vector instruction, with what each does. -/
def vectorUnits (s : State) (c : Cmd) : Nat × UnitFn :=
  match c.instr with
  | .vld o => (o.g * elemsPerReg o.ldTag / 128, unitVld o false)
  | .vlds o => (o.g * elemsPerReg o.ldTag / 128, unitVld o true)
  | .vst o => (o.g * elemsPerReg (s.tagAt c o.d.toNat) / 128, unitVst o false)
  | .vsts o => (o.g * elemsPerReg (s.tagAt c o.d.toNat) / 128, unitVst o true)
  | .vgath o => (1 + o.g * elemsPerReg o.t / 128, unitVgath o)
  | .vscat o => (1 + o.g * elemsPerReg o.t / 128, unitVscat o)
  | .vchain _ => (1 + groups 128 (c.arg 3), unitVchain)
  | .vmov o => once (unitVmov o)
  | .vbcast o => once (unitVbcast o)
  | .vextr o => once (unitVextr o)
  | .vins o => once (unitVins o)
  | .vadd o => once (unitArith .add o true false)
  | .vsub o => once (unitArith .sub o true false)
  | .vmul o => once (unitArith .mul o true false)
  | .vfma o => once (unitArith .fma o true true)
  | .vfms o => once (unitArith .fms o true true)
  | .vmin o => once (unitArith .min o true false)
  | .vmax o => once (unitArith .max o true false)
  | .vabs o => once (unitArith .abs o false false)
  | .vneg o => once (unitArith .neg o false false)
  | .vand o => once (unitLogic Nat.land o true)
  | .vor o => once (unitLogic Nat.lor o true)
  | .vxor o => once (unitLogic Nat.xor o true)
  | .vnot o => once (unitLogic (fun a _ => Nat.xor a (2 ^ elemBits (s.tagAt c o.a.toNat) - 1)) o false)
  | .vshl o => once (unitShift (fun w a k => a * 2 ^ k % 2 ^ w) o)
  | .vshr o => once (unitShift (fun _ a k => a / 2 ^ k) o)
  | .vshrA o => once (unitShift (fun w a k => wrapTo w (sext w a / (2 ^ k : Nat))) o)
  | .vcmpEq o => once (unitCmp .eq o)
  | .vcmpNe o => once (unitCmp .ne o)
  | .vcmpLt o => once (unitCmp .lt o)
  | .vcmpLe o => once (unitCmp .le o)
  | .vcmpGt o => once (unitCmp .gt o)
  | .vcmpGe o => once (unitCmp .ge o)
  | .vsel o => once (unitVsel o)
  | .vcvt o => once (unitVcvt o)
  | .vcvtBs o => once (unitVcvtBs o)
  | .vscale o => once (unitVscale o)
  | .vreds o => once (unitVreds o)
  | .vredmMax o => once (unitVredm true o)
  | .vredmMin o => once (unitVredm false o)
  | .vscan o => once (unitVscan o)
  | .vperm o => once (unitVperm o)
  | .vslideUp o => once (unitSlide true o)
  | .vslideDn o => once (unitSlide false o)
  | .vzip o => once (unitVzip o)
  | .vunzip o => once (unitVunzip o)
  | .viota o => once (unitViota o)
  | .vexp2 o => once (unitFn exp2V o)
  | .vlog2 o => once (unitFn log2V o)
  | .vrcp o => once (unitFn rcpV o)
  | .vrsq o => once (unitFn rsqrtV o)
  | .vsin o => once (unitFn sinV o)
  | .vcos o => once (unitFn cosV o)
  | .vtanh o => once (unitFn tanhV o)
  | .vsig o => once (unitFn sigV o)
  | .mand o => once (unitMask (fun a b => a &&& b) o)
  | .mor o => once (unitMask (fun a b => a ||| b) o)
  | .mnot o => once (unitMask (fun a _ => ~~~a) o)
  | .mpop o => once (unitMpop o)
  | _ => (0, fun _ _ s => .ok s)

end Sys2Proof.Machine
end

