-- ==== Sys2Proof/Machine/Table.lean ====
section
/-! DEFINITION. Step tables (10 R251 to R255, 11 R287 and R288, 13 R346 and R347): the table instructions,
the micro-orders, and the run of a table. -/

namespace Sys2Proof.Machine

/-! ## Table instructions (R251) -/

/-- TBLSTART: a table run queued; a copy run joins the open group and takes the handle registers (R325,
R346). -/
def State.tableStart (s : State) (e : Eng) (i : Instr) (o : OpA) : Res State :=
  let p := s.core.prod
  match s.issue e i (o.d.toNat % 32) [] [s.opA o, s.opB o] [] o.len [] (if e = .copy then s.core.live.h else []) with
  | .error r => .error r
  | .ok t => .ok (if e = .copy then t.upRegs (fun g => { g with openGroup := g.openGroup ++ [p] }) else t)

/-- TBLSTART (R251). -/
def execTblstart (e : BitVec 2) (o : OpA) (s : State) : Outcome :=
  retire (s.tableStart (Eng.ofCode e.toNat) (.tblstart e o) o)

/-- Whether a queue entry is a table run. -/
def Cmd.isRun (c : Cmd) : Bool :=
  match c.instr with
  | .tblstart _ _ => true
  | _ => false

/-- A run stands inside a micro-order: some of its pieces are done (R346). -/
def Cmd.inStep (c : Cmd) : Bool := c.isRun && c.started && c.cursor != 0

/-- The oldest unfinished run of an engine stopped (R251): one that stands between two micro-orders ends here, one
inside a micro-order at the end of it, one not started at its turn. -/
def State.tableStop (s : State) (e : Eng) : State :=
  match (s.core.queue e).find? Cmd.isRun with
  | none => s
  | some x =>
    if x.fail.isSome then s
    else if x.started && !x.inStep then s.finishCmd e x 0 0
    else s.upCmd e x.prod (fun c => { c with fail := some (0, 0) })

/-- TBLSTOP (R251). -/
def execTblstop (e : BitVec 2) (o : OpA) (s : State) : Outcome :=
  .next ((s.tableStop (Eng.ofCode e.toNat)).advance o.len)

/-- TBLBASE (R251). -/
def execTblbase (e : BitVec 2) (o : OpA) (s : State) : Outcome :=
  let off := (s.opA o).toNat
  let n := (s.opB o).toNat
  retire (if off % 4 ≠ 0 ∨ 65535 < n ∨ s.lmBytes < off + 4 * n then .error (.trap 2 0, s)
    else s.issue (Eng.ofCode e.toNat) (.tblbase e o) 0 [] [s.opA o, s.opB o] [] o.len [] [])

/-! ## Run registers -/

/-- The run registers of an engine. -/
def State.table (s : State) (e : Eng) : TableRun := s.core.tables.getD e.code TableRun.reset

/-- The run registers of an engine changed. -/
def State.upTable (s : State) (e : Eng) (f : TableRun → TableRun) : State :=
  s.upCore (fun c => { c with tables := upd TableRun.reset c.tables e.code (f (c.tables.getD e.code TableRun.reset)) })

/-- An address register. -/
def TableRun.addr (t : TableRun) (a : Nat) : Nat := t.address.getD a 0

/-- An address register set. -/
def TableRun.setAddr (t : TableRun) (a v : Nat) : TableRun := { t with address := upd 0 t.address a v }

/-- The width of an engine's run address registers (R254, R346). -/
def addrBits (e : Eng) : Nat := if e = .copy then 42 else 21

/-- The registers of a run that begins at an entry (R252). -/
def TableRun.begin (start : Nat) (t : TableRun) : TableRun :=
  { t with pos := start, steps := 0, address := [0, 0, 0, 0], loops := [0, 0, 0, 0] }

/-- The step after this one. -/
def TableRun.next (t : TableRun) : TableRun := { t with pos := t.pos + 1 }

/-- What a micro-order does: its bits 26 to 0, the run, the state. A failure is a status (R255). -/
abbrev MicroFn := Nat → Cmd → State → Res State

/-- The failure of a malformed micro-order. -/
def badMicro (s : State) : Res State := .error (.trap 6 0, s)

/-- Fields that most micro-orders share. -/
def mA (m : Nat) : Nat := bits m 26 25

/-- SETA (R254). -/
def microSeta (e : Eng) : MicroFn := fun m _ s =>
  if bits m 24 21 ≠ 0 then badMicro s
  else .ok (s.upTable e (fun t => (t.setAddr (mA m) (bits m 20 0)).next))

/-- ADDA (R254, R346). -/
def microAdda (e : Eng) : MicroFn := fun m _ s =>
  if bits m 24 21 ≠ 0 then badMicro s
  else .ok (s.upTable e (fun t =>
    (t.setAddr (mA m) (wrapTo (addrBits e) ((t.addr (mA m) : Int) + sext 21 (bits m 20 0)))).next))

/-- SETL (R254). -/
def microSetl (e : Eng) : MicroFn := fun m _ s =>
  if bits m 24 16 ≠ 0 then badMicro s
  else .ok (s.upTable e (fun t => ({ t with loops := upd 0 t.loops (mA m) (bits m 15 0) } : TableRun).next))

/-- BACK (R254, R255). -/
def microBack (e : Eng) : MicroFn := fun m _ s =>
  let dist := bits m 11 0
  if bits m 24 12 ≠ 0 ∨ dist = 0 ∨ (s.table e).pos < dist then badMicro s
  else .ok (s.upTable e (fun t =>
    let n := t.loops.getD (mA m) 0 - 1
    let t := { t with loops := upd 0 t.loops (mA m) n }
    if n ≠ 0 then { t with pos := t.pos - dist } else t.next))

/-- A range of local memory lies within h0 (R255). -/
def State.inLm (s : State) (off n : Nat) : Bool := decide (off + n ≤ s.lmBytes)

/-- A failure of an access outside h0's LENGTH. -/
def outside (s : State) : Res State := .error (.trap 2 0, s.broken)

/-- WROW (R254). -/
def microWrow : MicroFn := fun m _ s =>
  let a := s.core.arrays
  let t := s.table .matrix
  let k := bits m 24 17
  let rb := rowBytesW a.wtag
  let off := t.addr (mA m)
  let so := t.addr 3
  let scales := a.wbs && k % 32 == 0
  if bits m 15 0 ≠ 0 ∨ depthKP a.wtag ≤ k then badMicro s
  else if !s.inLm off rb || (scales && !s.inLm so 64) then outside s
  else
    match s.lmRead off rb with
    | .error e => .error e
    | .ok bs =>
      let sc : Res (List Byte) := if scales then s.lmRead so 64 else .ok []
      match sc with
      | .error e => .error e
      | .ok sc =>
        let put (a : Arrays) : Arrays :=
          let a := a.loadRow k false (unpack a.wtag 64 bs)
          let old := a.w1.scales
          if scales then
            { a with w1 := { a.w1 with
                scales := (List.range (64 * (k / 32))).map (fun i => old.getD i 0) ++ sc.map BitVec.toNat ++
                  old.drop (64 * (k / 32) + 64) } }
          else a
        .ok ((s.upArrays put).upTable .matrix (fun t =>
          let t := if scales then t.setAddr 3 ((t.addr 3 + 64) % 2 ^ 21) else t
          let t := if bit m 16 then t.setAddr (mA m) ((t.addr (mA m) + rb) % 2 ^ 21) else t
          t.next))

/-- AROW (R254). -/
def microArow : MicroFn := fun m x s =>
  let a := s.core.arrays
  let t := s.table .matrix
  let kp := depthKP a.atag
  let rb := rowBytesA a.atag
  let off := t.addr (mA m)
  let so := t.addr 3
  if bits m 15 0 ≠ 0 then badMicro s
  else if !s.inLm off rb || (a.abs_ && !s.inLm so (kp / 32)) then outside s
  else if !mulReady a false then .error (.trap 7 0, s)
  else
    match s.lmRead off rb with
    | .error e => .error e
    | .ok bs =>
      let sc : Res (Option (List Nat)) :=
        if a.abs_ then
          match s.lmRead so (kp / 32) with
          | .error e => .error e
          | .ok l => .ok (some (l.map BitVec.toNat))
        else .ok none
      match sc with
      | .error e => .error e
      | .ok sc =>
        let row := activations a.atag sc (unpack a.atag kp bs)
        let r := a.mulRow (bits m 24 23) (bits m 22 17) row (s.stream .matrix)
        .ok ((((s.countFor s.core.job 0x10 1).upArrays (fun _ => r.1)).rounding .matrix x.prod r.2).upTable .matrix (fun t =>
          let t := if a.abs_ then t.setAddr 3 ((t.addr 3 + kp / 32) % 2 ^ 21) else t
          let t := if bit m 16 then t.setAddr (mA m) ((t.addr (mA m) + rb) % 2 ^ 21) else t
          t.next))

/-- SWAP (R254). -/
def microSwap : MicroFn := fun m _ s =>
  if m ≠ 0 then badMicro s
  else .ok ((s.upArrays (fun a => { a with w0 := a.w1, w1 := a.w0 })).upTable .matrix TableRun.next)

/-- ZTILE (R254). -/
def microZtile : MicroFn := fun m _ s =>
  if bits m 26 25 ≠ 0 ∨ bits m 22 0 ≠ 0 then badMicro s
  else .ok ((s.upArrays (fun a => a.setTile (bits m 24 23) { Tile.reset with live := true })).upTable .matrix
    TableRun.next)

/-- PROW (R287). -/
def microProw : MicroFn := fun m x s =>
  let t := s.table .plait
  let fmt := bits m 24 23
  let nc := bits m 22 18 + 1
  let nb := bits m 17 14
  let n := (nc + nb) * plWidth fmt
  let off := t.addr (mA m)
  let log := bit m 13
  if bits m 11 0 ≠ 0 ∨ fmt = 0 ∨ 9 < nb then badMicro s
  else if !s.inLm off n || (log && !s.inLm (t.addr 3) 128) then outside s
  else
    match s.qrRow x.prod fmt nc nb off (if log then some (t.addr 3) else none) false with
    | .error e => .error e
    | .ok s => .ok (s.upTable .plait (fun t =>
        let t := if log then t.setAddr 3 ((t.addr 3 + 128) % 2 ^ 21) else t
        let t := if bit m 12 then t.setAddr (mA m) ((t.addr (mA m) + n) % 2 ^ 21) else t
        t.next))

/-- PAPP (R287). -/
def microPapp : MicroFn := fun m x s =>
  let t := s.table .plait
  let fmt := bits m 24 23
  let nb := bits m 17 14
  let n := nb * plWidth fmt
  let off := t.addr (mA m)
  if bits m 22 18 ≠ 0 ∨ bit m 13 ∨ bits m 11 0 ≠ 0 ∨ fmt = 0 ∨ nb = 0 ∨ 9 < nb then badMicro s
  else if !s.inLm off n || !s.inLm (t.addr 3) 128 then outside s
  else
    match s.applyRow x.prod fmt nb off (t.addr 3) with
    | .error e => .error e
    | .ok s => .ok (s.upTable .plait (fun t =>
        let t := t.setAddr 3 ((t.addr 3 + 128) % 2 ^ 21)
        let t := if bit m 12 then t.setAddr (mA m) ((t.addr (mA m) + n) % 2 ^ 21) else t
        t.next))

/-- SETH (R346). -/
def microSeth : MicroFn := fun m _ s =>
  if bits m 24 21 ≠ 0 then badMicro s
  else .ok (s.upTable .copy (fun t =>
    (t.setAddr (mA m) (t.addr (mA m) % 2 ^ 21 + bits m 20 0 * 2 ^ 21)).next))

/-- A failure without its detail: the token of a run takes the code alone (R347, R367). -/
def Stop.bare : Stop → Stop
  | .trap c _ => .trap c 0
  | r => r

/-- A check made on the handle registers a run took at its issue (R346). -/
def State.withSnap (s : State) (x : Cmd) (check : State → Res (View × State)) : Res (View × State) :=
  let live := s.core.live.h
  let back (t : State) : State := t.upRegs (fun g => { g with h := live })
  match check (s.upRegs (fun g => { g with h := x.snap })) with
  | .error (e, t) => .error (e.bare, back t)
  | .ok (v, t) => .ok (v, back t)

/-- ReadHandle on the handle registers a run took at its issue (R346). -/
def State.readSnap (s : State) (x : Cmd) (h off n : Nat) (r : Right) : Res (View × State) :=
  s.withSnap x (fun t => t.readHandle h off n r 0)

/-- The same for a tile, whose bytes its table names (R344, R346). -/
def State.tileSnap (s : State) (x : Cmd) (h tile : Nat) : Res (View × State) :=
  s.withSnap x (fun t => t.openHandle h tile .rd 0)

/-- The number of the next piece of the micro-order a run stands in. -/
def State.runCursor (s : State) (x : Cmd) : Nat := ((s.cmd? .copy x.prod).getD x).cursor

/-- The piece a run does next noted. -/
def State.setRunCursor (s : State) (x : Cmd) (k : Nat) : State :=
  s.upCmd .copy x.prod (fun c => { c with cursor := k, part := 0 })

/-- Pieces `k` onwards of a unit function, `n` of them; the run's cursor counts those done (R329). -/
def State.pieceLoop (f : UnitFn) (x : Cmd) : Nat → Nat → State → Res State
  | 0, _, s => .ok (s.setRunCursor x 0)
  | n + 1, k, s =>
    match f x k s with
    | .error e => .error e
    | .ok s => State.pieceLoop f x n (k + 1) (s.setRunCursor x (k + 1))

/-- MOVE (R346): one row of CPY. -/
def microMove : MicroFn := fun m x s =>
  let t := s.table .copy
  let b := bits m 24 23
  let n := 64 * (bits m 14 7 + 1)
  let a := t.addr (mA m)
  let d := t.addr b
  let hs := bits m 22 19
  let hd := bits m 18 15
  if bits m 5 0 ≠ 0 then badMicro s
  else
    match s.readSnap x hs a n .rd with
    | .error e => .error e
    | .ok (v, s) =>
      match s.readSnap x hd d n .w with
      | .error e => .error e
      | .ok (w, s) =>
        if !v.local_ || !w.local_ then .error (.trap 3 0, s)
        else
          let y := { x with views := [v, w], scal := [a, n, 1, n, d, n, 0, 0].map (BitVec.ofNat 64) }
          let k := s.runCursor x
          match State.pieceLoop unitCpy y (n / 64 - k) k s with
          | .error e => .error e
          | .ok s => .ok (s.upTable .copy (fun t =>
              let up (t : TableRun) (r : Nat) : TableRun := t.setAddr r ((t.addr r + n) % 2 ^ 42)
              (if bit m 6 then up (up t (mA m)) b else t).next))

/-- DECT (R346): CPDEC with the default stride and without scales. -/
def microDect : MicroFn := fun m x s =>
  let t := s.table .copy
  let b := bits m 24 23
  let tile := t.addr (mA m)
  let d := t.addr b
  if bits m 14 7 ≠ 0 ∨ bits m 5 0 ≠ 0 then badMicro s
  else
    match s.tileSnap x (bits m 22 19) tile with
    | .error e => .error e
    | .ok (v, s) =>
      match v.param with
      | none => .error (.trap 6 0, s)
      | some p =>
        let n := 64 * memBytes p.tag 64
        match s.readSnap x (bits m 18 15) d n .w with
        | .error e => .error e
        | .ok (w, s) =>
          if !v.local_ then .error (.trap 3 0, s)
          else if !p.cmp then .error (.trap 6 0, s)
          else if w.kind ≠ 0 then .error (.trap 3 0, s)
          else if p.tiles ≤ tile then .error (.trap 2 0, s)
          else
            match s.decodeTile v { p with bs := false } tile with
            | .error e => .error e
            | .ok (bs, _, s) =>
              match s.vwrite w x.prod d bs with
              | .error e => .error e
              | .ok s => .ok (s.upTable .copy (fun t =>
                  (if bit m 6 then
                    let t := t.setAddr (mA m) ((t.addr (mA m) + 1) % 2 ^ 42)
                    t.setAddr b ((t.addr b + n) % 2 ^ 42)
                  else t).next))

/-- What the micro-order that a copy run stands in has not written: view, offset and length. -/
def State.runRest (s : State) (x : Cmd) : Option (View × Nat × Nat) :=
  let t := s.table .copy
  let u := leNat (memRead s.mem.cells (s.lmAt (t.base + 4 * t.pos)) 4)
  let y := (s.cmd? .copy x.prod).getD x
  let d := t.addr (bits u 24 23)
  let rest (n : Nat) : Option (View × Nat × Nat) :=
    match s.readSnap x (bits u 18 15) d n .w with
    | .ok (w, _) => some (w, d + (64 * y.cursor + y.part), n - (64 * y.cursor + y.part))
    | .error _ => none
  if bits u 31 27 = 0x10 then rest (64 * (bits u 14 7 + 1))
  else if bits u 31 27 = 0x11 then
    match s.tileSnap x (bits u 22 19) (t.addr (bits u 26 25)) with
    | .ok (v, _) => v.param.bind (fun p => rest (64 * memBytes p.tag 64))
    | .error _ => none
  else none

/-- What a started copy command of the acting core has not written from unit `u` on becomes undefined; of a table run,
what its micro-order has not (R432, R486). -/
def State.blurCopy (s : State) (x : Cmd) (u : Nat) : State :=
  if x.isRun then
    match s.runRest x with
    | some (w, off, n) => State.blurView w (n / 64 + 2) off n s
    | none => s
  else s.blurRest x u

/-- The micro-order of an operation code for an engine (R254, R287, R346); none where it is unlisted. The
vector engine lists none but END (log 31). -/
def microOf (e : Eng) (op : Nat) : Option MicroFn :=
  match e, op with
  | .vector, _ => none
  | .matrix, 0x03 => some microWrow
  | .matrix, 0x04 => some microArow
  | .matrix, 0x05 => some microSwap
  | .matrix, 0x06 => some microZtile
  | .plait, 0x10 => some microProw
  | .plait, 0x11 => some microPapp
  | .copy, 0x09 => some microSeth
  | .copy, 0x10 => some microMove
  | .copy, 0x11 => some microDect
  | e, 0x01 => some (microSeta e)
  | e, 0x02 => some (microAdda e)
  | e, 0x07 => some (microSetl e)
  | e, 0x08 => some (microBack e)
  | _, _ => none

/-! ## The run (R252) -/

/-- A micro-order carried out in a run: a success counts one step, a failure ends the run with its status. -/
def microRun (s : State) (e : Eng) (x : Cmd) (r : Res State) : State × Bool :=
  match r with
  | .ok s => (s.upTable e (fun t => { t with steps := t.steps + 1 }), true)
  | .error (.trap c d, s) => (s.finishCmd e x c (d.setWidth 40), false)
  | .error (.poison l i, s) =>
    let t := if e = .copy ∧ s.core.inRegion x.rseq = false ∧ x.orphan = false then s.blurCopy x 0 else s
    (t.restCmd e x 0 (.poison l i), false)
  | .error (r, t) =>
    let r := unitRest s (r, t)
    (r.2.restCmd e x (r.2.runCursor x) r.1, false)

/-- One turn of the loop of TableRun (R252); false when the run ended or rests. -/
def State.tableTick (s : State) (e : Eng) (x : Cmd) : State × Bool :=
  let t := s.table e
  let limit := x.arg 1
  let y := (s.cmd? e x.prod).getD x
  if y.fail.isSome ∧ y.inStep = false then (s.finishCmd e x ((y.fail.map (fun f => f.1.toNat)).getD 0) 0, false)
  else if limit ≠ 0 ∧ t.steps = limit then (s.finishCmd e x 0 0, false)
  else if t.entries ≤ t.pos then (s.finishCmd e x 6 0, false)
  else if !s.inLm (t.base + 4 * t.pos) 4 then (s.broken.finishCmd e x 2 0, false)
  else
    match s.lmRead (t.base + 4 * t.pos) 4 with
    | .error (r, s) => (s.restCmd e x 0 r, false)
    | .ok bs =>
      let u := leNat bs
      if u = 0 then (s.finishCmd e x 0 0, false)
      else
        match microOf e (bits u 31 27) with
        | none => (s.finishCmd e x 6 0, false)
        | some f => microRun s e x (f (bits u 26 0) x s)

/-- Turns of a run until it ends, rests, or `n` of them have passed. -/
def State.tableRun (e : Eng) (x : Cmd) : Nat → State → State
  | 0, s => s
  | n + 1, s =>
    let r := s.tableTick e x
    if r.2 then State.tableRun e x n r.1 else r.1

/-! ## The tiles a region starts with (R248) -/

/-- A matrix command of an earlier region as the sequencer foresees it; a table run is followed step by step. -/
def State.foreseeCmd (s : State) (x : Cmd) : State :=
  if x.fail.isSome then s
  else
    match x.instr with
    | .tblbase _ _ => s.upTable .matrix (fun t => { t with base := x.arg 0, entries := x.arg 1 })
    | .tblstart _ _ =>
      let s := if x.started then s else s.upTable .matrix (TableRun.begin (x.arg 0))
      let t := State.tableRun .matrix x (2 ^ 64) s
      s.upCore (fun c => { c with arrays := t.core.arrays, tables := t.core.tables })
    | _ => s.upCore (fun c => { c with arrays := c.arrays.foresee x })

/-- The current region carries live tile state (R248): some tile is LIVE after every matrix command of earlier
regions. -/
def State.regionLive (s : State) : Bool :=
  let start := s.upCore (fun c => { c with arrays := c.regionArrays })
  let after := (s.core.mq.filter (fun x => !s.core.inRegion x.rseq)).foldl State.foreseeCmd start
  after.core.arrays.a.any (fun t => t.live)

/-! ## Bytes an engine leaves undefined in local memory and in vector registers (20 R432) -/

/-- One element of local memory made undefined: only its own bits change (R196). -/
def State.elemBlur (s : State) (tag off st : Nat) (strided : Bool) (i : Nat) : State :=
  let sp := elemSpan tag off st strided i
  let n := (sp.2 - sp.1).toNat
  let at_ := s.lmAt sp.1.toNat
  let sh := if strided then 0 else i * memBits tag % 8
  let w := memBits tag
  let old := leNat (memRead s.mem.cells at_ n)
  let d := s.drawOver (leBytes 4 (old / 2 ^ sh % 2 ^ w))
  d.2.poke at_
    (leBytes n (old % 2 ^ sh + leNat d.1 % 2 ^ w * 2 ^ sh + old / 2 ^ (sh + w) * 2 ^ (sh + w)))

/-- Active elements of a vector store from element `e` on, `n` in all, made undefined by `f`. -/
def State.blurStore (s : State) (o : OpV) (e n : Nat) (f : Nat → State → State) : State :=
  (List.range (n - e)).foldl (fun s k => if s.core.live.active o (e + k) then f (e + k) s else s) s

/-- Active elements of the 128 of unit `u` of a vector load made undefined. -/
def State.blurUnit (x : Cmd) (o : OpV) (tag : Nat) (s : State) (u : Nat) : State :=
  let d := s.drawOver ((((s.group x o.d.toNat o.g tag).drop (128 * u)).take 128).flatMap (leBytes 4))
  match d.2.loadUnit x o tag u (fun i =>
      .ok (leNat ((d.1.drop (4 * (i - 128 * u))).take 4) % 2 ^ memBits tag)) with
  | .ok t => t
  | .error _ => s

/-- Active elements of a vector load from unit `u` on, of `n` units, made undefined. -/
def State.blurLoad (s : State) (x : Cmd) (o : OpV) (tag u n : Nat) : State :=
  (List.range (n - u)).foldl (fun s k => s.blurUnit x o tag (u + k)) s

/-- Offset and length of what a matrix or plait command writes to local memory from piece `p` of unit `u` on. -/
def Cmd.localRest (x : Cmd) (u p : Nat) : List (Nat × Nat) :=
  let later (n : Nat) : List Nat := (List.range (n - u)).map (fun k => u + k)
  let pairs (o : OpE) : List (Nat × Nat) :=
    let w := plWidth (plO o.w2)
    [(x.arg 1 + 2 * (32 * u + p) * w, 2 * (x.arg 3 - (32 * u + p)) * w)]
  match x.instr with
  | .mret o =>
    (later 64).map (fun m => (x.arg 0 + m * x.arg 1, memBytes (wbits o.w1 15 12) 64)) ++
      (if bit o.w1.toNat 4 then [(x.arg 0 + 64 * x.arg 1, 8)] else [])
  | .plqr o => if plX1 o.w2 then (later (x.arg 3)).map (fun r => (x.arg 2 + 128 * r, 128)) else []
  | .plsolve o =>
    let w := plWidth (plO o.w2)
    (later (plF3 o.w2)).flatMap (fun b =>
      (List.range (plF1 o.w2 + 1)).map (fun i => (x.arg 0 + b * w + i * x.arg 1, w)))
  | .pldrain o => (later (plF1 o.w2 + 1)).map (fun i => (x.arg 0 + i * x.arg 1, plF3 o.w2 * plWidth (plO o.w2)))
  | .pldrainLm o =>
    let w := plWidth (plO o.w2)
    [(x.arg 0 + (128 * u + p) * w, (x.arg 3 - (128 * u + p)) * w)]
  | .plapplySw o => pairs o
  | .plrot o => pairs o
  | .plvec o =>
    let w := plWidth (plO o.w2)
    let q := 32 * u + p
    [(x.arg 1 + q * w, (x.arg 3 - q) * w), (x.arg 2 + 4 * q, 4 * (x.arg 3 - q))]
  | _ => []

/-- What a vector, matrix or plait command of the acting core has not written from unit `u` on becomes
undefined. -/
def State.blurLocal (s : State) (x : Cmd) (u : Nat) (e : Eng) : State :=
  let p := ((s.cmd? e x.prod).getD x).part
  match x.instr with
  | .vld o => s.blurLoad x o o.ldTag u (o.g * elemsPerReg o.ldTag / 128)
  | .vlds o => s.blurLoad x o o.ldTag u (o.g * elemsPerReg o.ldTag / 128)
  | .vgath o => s.blurLoad x o o.t (u - 1) (o.g * elemsPerReg o.t / 128)
  | .vst o =>
    let tag := s.tagAt x o.d.toNat
    s.blurStore o (128 * u + p) (o.g * elemsPerReg tag) (fun i t => t.elemBlur tag (x.arg 0) (x.arg 1) false i)
  | .vsts o =>
    let tag := s.tagAt x o.d.toNat
    s.blurStore o (128 * u + p) (o.g * elemsPerReg tag) (fun i t => t.elemBlur tag (x.arg 0) (x.arg 1) true i)
  | .vscat o =>
    let offs := s.noted x
    s.blurStore o (128 * (u - 1) + p) (o.g * elemsPerReg o.t) (fun i t => t.elemBlur o.t (offs.getD i 0) 0 true 0)
  | .vchain _ =>
    let c := ChainTable.read (((s.noted x).drop 1).map (BitVec.ofNat 8))
    let e := 128 * (u - 1) + p
    if u = 0 then s
    else (List.range (x.arg 3 - e)).foldl (fun s k => State.blurElem s s c.ztag (x.arg 2) (e + k)) s
  | _ => (x.localRest u p).foldl (fun s r =>
      let d := s.drawOver (memRead s.mem.cells (s.lmAt r.1) r.2)
      d.2.poke (s.lmAt r.1) d.1) s

/-- A unit that consumes poison in a command of an earlier region leaves what the command has not written
undefined (R432). -/
def spoilingLocal (e : Eng) (f : UnitFn) : UnitFn := fun x u s =>
  match f x u s with
  | .ok t => .ok t
  | .error (.poison l i, t) =>
    .error (.poison l i, if !t.core.inRegion x.rseq && !x.orphan then t.blurLocal x u e else t)
  | .error e => .error e

/-! ## Driving an engine -/

/-- Units of a command, with what each does. -/
def State.unitsOf (s : State) (e : Eng) (c : Cmd) : Nat × UnitFn :=
  match e with
  | .matrix => ((matrixUnits s.core.arrays c).1, spoilingLocal .matrix (matrixUnits s.core.arrays c).2)
  | .plait => ((plaitUnits c).1, spoilingLocal .plait (plaitUnits c).2)
  | .vector => ((vectorUnits s c).1, spoilingLocal .vector (vectorUnits s c).2)
  | .copy => ((copyUnits c).1, spoiling (copyUnits c).2)

/-- A command starts: the engine reaches its region, its log records it, a run takes its start entry (R66,
R252, R468). -/
def State.startCmd (s : State) (e : Eng) (x : Cmd) : State :=
  if x.started then s
  else
    let s := (s.upCore (fun c => c.reach e x.rseq)).logStart e x
    let s := s.upCmd e x.prod (fun c => { c with started := true })
    if x.isRun then
      s.upTable e (TableRun.begin (x.arg 0))
    else s

/-- The end of a command that failed or was stopped, its writes acknowledged: what the answers report is taken, and the
status delivered (R338, R394, R432). -/
def State.endStopped (s : State) (e : Eng) (x : Cmd) (st det : Nat) : State :=
  let bad := (s.reqsOf x.prod).filter (fun r => r.resp.any (fun p => decide (0xD < p.1.toNat)))
  let s := if e = .copy then s.forget x.prod else s
  let s := bad.head?.elim s (fun r => (s.refusedRec r).loseOwn 1)
  match x.pieces with
  | l :: _ => if st = 9 then s.poisonCmd e x l else s.finishCmd e x st (BitVec.ofNat 40 det)
  | [] => s.finishCmd e x st (BitVec.ofNat 40 det)

/-- A command at its turn: ended at once where a consumed token failed (R368) or where it was stopped, else
carried on by `go`. A run stopped inside a micro-order carries that on (R251). -/
def State.atTurn (s : State) (e : Eng) (x : Cmd) (go : Cmd → State → State) : State :=
  match x.fail with
  | some (st, d) => if st = 0 ∧ x.inStep = true then go x s else s.endStopped e x st.toNat d.toNat
  | none =>
    if !x.started && x.broken then s.finishCmd e x 1 0
    else
      let s := s.startCmd e x
      match x.instr with
      | .tblbase _ _ =>
        (s.upTable e (fun t => { t with base := x.arg 0, entries := x.arg 1 })).finishCmd e x 0 0
      | _ => go ((s.cmd? e x.prod).getD x) s

/-- A command carried to its end, or to where it rests; a table run through at most `n` micro-orders. -/
def State.runCmdFor (n : Nat) (s : State) (e : Eng) (x : Cmd) : State :=
  s.atTurn e x (fun x s =>
    if x.isRun then State.tableRun e x n s
    else
      let u := s.unitsOf e x
      State.runUnits u.2 e x (u.1 - x.cursor) x.cursor s)

/-- A command carried on; a long table run goes on at the engine's next act. -/
def State.runCmd (s : State) (e : Eng) (x : Cmd) : State := s.runCmdFor 65536 e x

/-- One unit of a command. -/
def State.stepCmd (s : State) (e : Eng) (x : Cmd) : State :=
  s.atTurn e x (fun x s =>
    if x.isRun then (s.tableTick e x).1
    else
      let u := s.unitsOf e x
      State.runUnit u.2 e x u.1 x.cursor s)

/-- Whether a command waits for a response from another package; one that failed or was stopped, for the
acknowledgements of its writes. -/
def State.awaiting (s : State) (x : Cmd) : Bool :=
  if x.fail.isSome then s.owesWrites x.prod
  else decide (x.pieces64 ≤ x.cursor) && (s.reqsOf x.prod).any (fun r => r.resp.isNone)

/-- A command that uses the copy engine's table registers waits for a run that has started: there is one set of
them (R346). -/
def Cmd.tableWaits (c : Cmd) (q : List Cmd) : Bool :=
  !c.started && (c.isRun || (match c.instr with
    | .tblbase _ _ => true
    | _ => false)) && q.any (fun x => x.isRun && x.started)

/-- Every tile FREE. -/
def Core.tilesFree (c : Core) : Bool := c.arrays.a.all (fun t => !t.live)

/-- A pre-emption point of the matrix array (R249): every tile FREE, and no entry begun but a table run, which may be
cut between two micro-orders. -/
def Core.arrayPoint (c : Core) : Bool :=
  c.tilesFree && match c.mq with
    | x :: _ => !x.started || x.isRun
    | [] => true

/-- The array stands where a pre-emption that was requested stops it: at its first pre-emption point (R249), or, after
the roll-back at the deadline, with every entry of earlier regions finished (R426). -/
def Core.arrayStops (c : Core) : Bool :=
  c.preempt && if c.stall = .drain then c.tilesFree && c.mq.isEmpty else c.arrayPoint

/-- The commands of an engine that may act now (R183, R235, R267, R324): the head; in the copy engine every
started one and the first that has not started. The matrix array holds at the point where a pre-emption stops it,
and none acts once the core stands there (R249); the copy engine waits while as many requests are outstanding as may be
(R324). -/
def State.runnable (s : State) (e : Eng) : List Cmd :=
  let q := if s.core.preemptReady || (e == .matrix && s.core.arrayStops) || (e == .copy && s.requestsFull) then []
    else s.core.queue e
  let may (c : Cmd) : Bool := c.ready && !s.awaiting c && !c.tableWaits q
  match e with
  | .copy => (q.filter (fun c => c.started) ++ (q.filter (fun c => !c.started)).take 1).filter may
  | _ => (q.take 1).filter may

/-- The head of an engine's queue carried to its end, if it may act. -/
def State.runEngine (s : State) (e : Eng) : State :=
  match s.runnable e with
  | [] => s
  | x :: _ => s.runCmd e x

/-- One unit of the `i`-th entry of an engine's queue, if it may act. -/
def State.unitAct (s : State) (e : Eng) (i : Nat) : State :=
  match (s.core.queue e)[i]? with
  | none => s
  | some x => if (s.runnable e).any (fun c => c.prod == x.prod) then s.stepCmd e x else s

/-! ## Micro-orders and engine acts as steps of their own -/

/-- A micro-order as a step: carried out by the run that an engine of the acting core is in. -/
def State.microAct (s : State) (e : Eng) (f : MicroFn) (m : BitVec 27) : State :=
  match (s.runnable e).find? Cmd.isRun with
  | none => s
  | some x => s.atTurn e x (fun x s => (microRun s e x (f m.toNat x s)).1)

/-- END (R254): the run ends with OK. -/
def execTableEnd (e : Eng) (m : BitVec 27) (s : State) : Outcome :=
  .next (match (s.runnable e).find? Cmd.isRun with
    | none => s
    | some x => s.finishCmd e x (if m = 0 then 0 else 6) 0)

/-- SETA (R254, R346). -/
def execTableSeta (e : Eng) (m : BitVec 27) (s : State) : Outcome := .next (s.microAct e (microSeta e) m)
/-- ADDA (R254, R346). -/
def execTableAdda (e : Eng) (m : BitVec 27) (s : State) : Outcome := .next (s.microAct e (microAdda e) m)
/-- WROW (R254). -/
def execWrow (m : BitVec 27) (s : State) : Outcome := .next (s.microAct .matrix microWrow m)
/-- AROW (R254). -/
def execArow (m : BitVec 27) (s : State) : Outcome := .next (s.microAct .matrix microArow m)
/-- SWAP (R254). -/
def execTableSwap (m : BitVec 27) (s : State) : Outcome := .next (s.microAct .matrix microSwap m)
/-- ZTILE (R254). -/
def execZtile (m : BitVec 27) (s : State) : Outcome := .next (s.microAct .matrix microZtile m)
/-- SETL (R254). -/
def execTableSetl (e : Eng) (m : BitVec 27) (s : State) : Outcome := .next (s.microAct e (microSetl e) m)
/-- BACK (R254). -/
def execTableBack (e : Eng) (m : BitVec 27) (s : State) : Outcome := .next (s.microAct e (microBack e) m)
/-- PROW (R287). -/
def execProw (m : BitVec 27) (s : State) : Outcome := .next (s.microAct .plait microProw m)
/-- PAPP (R287). -/
def execPapp (m : BitVec 27) (s : State) : Outcome := .next (s.microAct .plait microPapp m)
/-- SETH (R346). -/
def execSeth (m : BitVec 27) (s : State) : Outcome := .next (s.microAct .copy microSeth m)
/-- MOVE (R346). -/
def execMove (m : BitVec 27) (s : State) : Outcome := .next (s.microAct .copy microMove m)
/-- DECT (R346). -/
def execDect (m : BitVec 27) (s : State) : Outcome := .next (s.microAct .copy microDect m)

/-- The vector unit runs the head of its queue (R183). -/
def execVectorExecute (c : Nat) (s : State) : Outcome := .next (s.on c (fun s => s.runEngine .vector))
/-- The matrix array runs its head command (R235). -/
def execMatrixExecute (c : Nat) (s : State) : Outcome := .next (s.on c (fun s => s.runEngine .matrix))
/-- The plait array runs its head command (R267). -/
def execPlaitExecute (c : Nat) (s : State) : Outcome := .next (s.on c (fun s => s.runEngine .plait))

/-- The copy engine's first entry not yet started starts, once its tokens are complete (R324). -/
def execCopyStart (c : Nat) (s : State) : Outcome :=
  .next (s.on c (fun s =>
    match (s.runnable .copy).find? (fun x => !x.started) with
    | some x => s.atTurn .copy x (fun _ s => s)
    | none => s))

/-- A started copy command is carried to its end (R324). -/
def execCopyComplete (c i : Nat) (s : State) : Outcome :=
  .next (s.on c (fun s =>
    match s.core.cq[i]? with
    | some x => if x.started && (s.runnable .copy).any (fun y => y.prod == x.prod) then s.runCmd .copy x else s
    | none => s))

end Sys2Proof.Machine
end

