-- ==== Sys2Proof/Machine/Csr.lean ====
section
/-! DEFINITION. The control registers and CSRRD, CSRWR, CSRSET, CSRCLR (07 R135, R136; 08 R181). -/

namespace Sys2Proof.Machine

/-! ## Fields -/

/-- PHASE (R439). -/
def State.phaseWord (s : State) : Word :=
  BitVec.ofNat 64 ((s.sweep.retiring.getD 0) % 16 * 2 ^ 36 + s.sweep.phaseNum.toNat)

/-- MARK (R439): zero while no retirement runs. -/
def State.markWord (s : State) : Word :=
  if s.sweep.phaseNum.toNat % 2 = 0 then 0
  else BitVec.ofNat 64 (s.sweep.win % 512 * 2 ^ 32 + s.sweep.gran % 2 ^ 28)

/-- KEYMARK of a tenant (R447). -/
def State.keymarkWord (s : State) (t : Nat) : Word :=
  match lookup s.sweep.rot t with
  | some r => if r.act then BitVec.ofNat 64 (2 ^ 63 + r.ext % 2 ^ 16 * 2 ^ 32 + r.line % 2 ^ 19) else 0
  | none => 0

/-- RGNCTL (R414). -/
def Core.rgnctl (c : Core) (live : Bool) (lines : Nat) : Word :=
  BitVec.ofNat 64 (b2n live * 2 ^ 63 + b2n c.reexec * 2 ^ 62 + c.lastCause.toNat * 2 ^ 60 +
    lines * 2 ^ 48 + c.rseq.toNat)

/-- The stall counter that STALLSEL selects (R469). -/
def Core.stallCount (c : Core) : Word :=
  let n := c.stallSel.toNat % 256
  if 37 ≤ n % 64 then 0 else (lookup c.stallCnt n).getD 0

/-- A field of the strand the core runs. -/
def State.jobWord (s : State) (f : Job → Word) : Word :=
  match s.core.job with
  | some j => f j
  | none => 0

/-- TRAPVEC of the strand's context (R418). -/
def State.trapVec (s : State) : Word :=
  match s.core.job with
  | some j =>
    match s.ctx? j.ctx with
    | some c => c.trapvec
    | none => 0
  | none => 0

/-- The distinct lines the region store buffer holds (R319). -/
def State.sbufLines (s : State) : Nat := (bufferLines s.core.sbuf).length

/-- A control register read (R135). -/
def State.csr (s : State) (n : Nat) : Word :=
  match n with
  | 0x000 => s.jobWord (fun j => BitVec.ofNat 64 j.ncores)
  | 0x001 => BitVec.ofNat 64 s.coreId
  | 0x002 => BitVec.ofNat 64 (clusterOf s.coreId)
  | 0x003 => BitVec.ofNat 64 (dieOf s.coreId)
  | 0x004 => s.jobWord (fun j => j.workid)
  | 0x005 => s.jobWord (fun j => BitVec.ofNat 64 j.tenant)
  | 0x006 => BitVec.zeroExtend 64 Config.ownRank
  | 0x007 => s.cycle
  | 0x008 => BitVec.ofNat 64 s.xl.capacity
  | 0x010 => s.core.live.flags
  | 0x011 => s.core.live.flagen
  | 0x012 => s.core.live.rnglo
  | 0x013 => s.core.live.rnghi
  | 0x800 => s.trapVec
  | 0x801 => s.core.trapCause
  | 0x802 => s.core.trapInfo
  | 0x803 => s.core.epc
  | 0x804 => s.core.trapScr
  | 0x810 => s.phaseWord
  | 0x811 => s.markWord
  | 0x812 => s.keymarkWord s.tenant
  | 0x820 => s.core.rgnctl s.regionLive s.sbufLines
  | 0x830 => s.core.stallSel
  | 0x831 => s.core.stallCount
  | _ => 0

/-- TRAPVEC of the strand's context set. -/
def State.setTrapVec (s : State) (v : Word) : State :=
  match s.core.job with
  | some j => { s with work := { s.work with
      ctxs := s.work.ctxs.map (fun c => if c.num = j.ctx then { c with trapvec := v } else c) } }
  | none => s

/-- A control register written: RO registers and reserved bits ignore the write (R136). -/
def State.setCsr (s : State) (n : Nat) (v : Word) : State :=
  match n with
  | 0x010 => s.upRegs (fun g => { g with flags := v &&& flagMask })
  | 0x011 => s.upRegs (fun g => { g with flagen := v &&& flagMask })
  | 0x012 => s.upRegs (fun g => { g with rnglo := v })
  | 0x013 => s.upRegs (fun g => { g with rnghi := v })
  | 0x800 => s.setTrapVec v
  | 0x801 => s.upCore (fun c => { c with trapCause := v &&& 0x3FF })
  | 0x802 => s.upCore (fun c => { c with trapInfo := v })
  | 0x803 => s.upCore (fun c => { c with epc := v })
  | 0x804 => s.upCore (fun c => { c with trapScr := v })
  | 0x820 => if v.extractLsb' 60 2 = 0 then s.upCore (fun c => { c with lastCause := 0 }) else s
  | 0x830 => s.upCore (fun c => { c with
      stallSel := v &&& 0xFF
      stallCnt := if v.getLsbD 63 then [] else c.stallCnt })
  | _ => s

/-! ## Instructions (R181) -/

/-- A control-register instruction: PRIV for a strand that names a privileged register (R136), then the old
value in d and the write, if there is one. -/
def State.csrOp (s : State) (i : Instr) (o : OpJ) (write : Option (Word → Word)) : Outcome :=
  let n := o.n.toNat
  if 0x800 ≤ n ∧ s.core.priv = false then retire (.error (.trap 0x11 (privInfo (firstWord i) n), s))
  else
    let old := s.csr n
    let t := match write with
      | some f => s.setCsr n (f old)
      | none => s
    .next ((t.setS o.d.toNat old).advance 1)

/-- The mask of CSRSET and CSRCLR; s0 writes nothing. -/
def State.csrMask (s : State) (o : OpJ) (f : Word → Word → Word) : Option (Word → Word) :=
  if o.a = 0 then none else some (fun old => f old (s.getS o.a.toNat))

/-- CSRRD (R181). -/
def execCsrrd (o : OpJ) (s : State) : Outcome := s.csrOp (.csrrd o) o none

/-- CSRWR (R181). -/
def execCsrwr (o : OpJ) (s : State) : Outcome := s.csrOp (.csrwr o) o (some (fun _ => s.getS o.a.toNat))

/-- CSRSET (R181). -/
def execCsrset (o : OpJ) (s : State) : Outcome := s.csrOp (.csrset o) o (s.csrMask o (fun x m => x ||| m))

/-- CSRCLR (R181). -/
def execCsrclr (o : OpJ) (s : State) : Outcome := s.csrOp (.csrclr o) o (s.csrMask o (fun x m => x &&& ~~~m))

end Sys2Proof.Machine
end

