-- ==== Sys2Proof/Machine/Power.lean ====
section
/-! DEFINITION. Package resets and what leads to them, training, and the loss of a function's contexts (02
R22 to R29, R37, R38; 12 R303; 25 R483). -/

namespace Sys2Proof.Machine

/-! ## Package reset (R22 to R25) -/

/-- The trust core after a package reset: fuses and module flash keep their contents (R24, R485). -/
def Trust.afterReset (t : Trust) : Trust :=
  { Trust.reset with
    lcFuse := t.lcFuse
    lcNow := t.lcFuse
    arbn := t.arbn
    dbgn := t.dbgn
    identityFused := t.identityFused
    parityError := t.parityError
    recovery := t.parityError
    banks := t.banks
    draws := t.draws
    sealNo := t.sealNo + 1 }

/-- A package reset (R22): everything as at reset release but fuses, flash and the host's own memory; a new seal
key. -/
def State.packageReset (s : State) : State :=
  { State.reset with
    inputs := s.inputs
    stepNo := s.stepNo
    resetStep := s.stepNo
    drawn := s.drawn
    trust := s.trust.afterReset
    work := { Work.reset with nextDomain := s.work.nextDomain }
    links := { Links.reset with hoopKey := s.links.hoopKey + 1 }
    host := { State.reset.host with hostMem := s.host.hostMem } }

/-- PACKAGE_RESET (R22): the links of the package hoop are keyed anew (R392); power is back (R483). -/
def execPackageReset (s : State) : Outcome := .next s.packageReset

/-- TRUST_CORE_WATCHDOG (R22). -/
def execTrustCoreWatchdog (s : State) : Outcome := .next s.packageReset

/-- The regulators remove power (R483): all state is lost at once. -/
def State.powerLost (s : State) : State := { s.packageReset with powered := false }

/-- POWER_TRIP (R483). -/
def execPowerTrip (s : State) : Outcome := .next s.powerLost

/-! ## Measurements (R34) -/

/-- A byte string of a fixed length. -/
def fixLen (n : Nat) (l : List Byte) : List Byte := (l ++ List.replicate n 0).take n

/-- A SHAKE256 digest of 64 bytes. -/
def shake (l : List Byte) : List Byte := fixLen 64 (Config.digest l)

/-- A measurement slot extended with a value. -/
def Trust.extend (t : Trust) (slot : Nat) (v : List Byte) : Trust :=
  { t with slots := upd zeroSlot t.slots slot (shake (t.slots.getD slot zeroSlot ++ v)) }

/-- The code of a lifecycle state (R34). -/
def Lifecycle.code : Lifecycle → Nat
  | .blank => 1
  | .provisioned => 2
  | .operational => 3
  | .debug => 4
  | .retired => 5

/-- The fused thermometer code of a lifecycle state (R30). -/
def Lifecycle.fuse : Lifecycle → Nat
  | .blank => 0
  | .provisioned => 1
  | .operational => 3
  | .debug => 0
  | .retired => 7

/-- The fuse fields of R30 but the seed, in their order. -/
def Trust.fuseBytes (t : Trust) : List Byte :=
  fixLen 16 (Config.fuse 0) ++ leBytes 1 t.lcFuse.fuse ++ fixLen 64 (Config.fuse 1) ++
    leBytes 4 (2 ^ t.arbn - 1) ++ leBytes 8 (2 ^ t.dbgn - 1)

/-! ## The steps of the reset (R25 to R27) -/

/-- The flash bank the ROM takes (R27): signed, not below the anti-rollback counter, the higher version; bank 0
where the versions are equal (log 92). -/
def Trust.chooseBank (t : Trust) : Option Nat :=
  let ok (i : Nat) : Option Nat :=
    match t.banks[i]? with
    | some b => if b.signed && decide (t.arbn ≤ b.version) then some b.version else none
    | none => none
  match ok 0, ok 1 with
  | some a, some b => some (if a < b then 1 else 0)
  | some _, none => some 0
  | none, some _ => some 1
  | none, none => none

/-- The firmware verified and measured and the identity key derived, or the recovery loop (R25 to R27, R30);
in the loop no slot is filled (log 92). -/
def Trust.verified (t : Trust) : Trust :=
  match t.chooseBank with
  | none => { t with recovery := true, boot := 1, fwver := 0 }
  | some i =>
    if t.parityError then { t with recovery := true, boot := 1, fwver := 0 }
    else
      let b := t.banks.getD i ⟨[], 0, false⟩
      let t := { t with running := i, fwver := b.version, boot := 1, slots := List.replicate 5 zeroSlot }
      let t := t.extend 0 (fixLen 4 (Config.fuse 3) ++ t.fuseBytes)
      let t := t.extend 1 (shake b.image)
      let t := { t with identity := Config.identityKey (fixLen 32 (Config.fuse 4)) (t.slots.getD 1 zeroSlot) }
      t.extend 2 (leBytes 1 t.lcNow.code)

/-- FIRMWARE_VERIFIED (R27): the first step after the reset's release (R25). -/
def execFirmwareVerified (s : State) : Outcome :=
  .next (if s.trust.boot = 0 then { s with trust := s.trust.verified } else s)

/-- The adopter of a stack's slice (R296): the sibling if it is live and serves one slice, else the live
stack that serves the fewest slices, the lowest number first. -/
def adopter (surv whome : List Nat) (st : Nat) : Nat :=
  let serves (x : Nat) : Nat := (whome.filter (fun h => h == x)).length
  let sib := st / 2 * 2 + 1 - st % 2
  if surv.contains sib ∧ serves sib = 1 then sib
  else
    match surv with
    | [] => st
    | x :: l => l.foldl (fun b y => if serves y < serves b then y else b) x

/-- WHOME after training (R303): each trained stack serves its own slice, the others' slices go to adopters
in increasing number. -/
def trainedHome (surv : List Nat) : List Nat :=
  let own := (List.range 16).map (fun i => if surv.contains i then i else 16)
  let h := (List.range 16).foldl (fun h i => if surv.contains i then h else upd 0 h i (adopter surv h i)) own
  h.map (fun x => if x = 16 then 0 else x)

/-- The latency table where it is fixed: 0xFFFF for the pseudo-channels of stacks that are not live (R306). -/
def deadLat (surv : List Nat) : List (Nat × Nat) :=
  ((List.range 1024).filter (fun p => !surv.contains (p / 64))).map (fun p => (p, 0xFFFF))

/-- HBM_TRAINING_DONE (R303). -/
def State.trained (s : State) (mask : BitVec 16) : State :=
  let surv := (List.range 16).filter (fun i => mask.getLsbD i)
  let n := surv.length
  ({ s with
    trust := { s.trust with boot := 2 }
    xl := { s.xl with
      surv := surv
      whome := trainedHome surv
      capacity := if n < 8 then 0 else n * 2 ^ 36 }
    cal := { Cal.reset with lat := deadLat surv } } : State).startScrubSweep

/-- HBM_TRAINING_DONE (R303): once after each reset, after the firmware; the recovery loop trains no stack (R15,
R25, R26). -/
def execHbmTrainingDone (trained : BitVec 16) (s : State) : Outcome :=
  .next (if s.trust.boot = 1 ∧ s.trust.recovery = false then s.trained trained else s)

/-- HOST_LINK_CONFIG_READY (R25): after the stacks are trained, or in the recovery loop (R26). -/
def execHostLinkConfigReady (s : State) : Outcome :=
  .next (if s.trust.boot = 2 ∨ (s.trust.boot = 1 ∧ s.trust.recovery = true) then
    { s with trust := { s.trust with boot := 3 } } else s)

/-! ## Loss of a function's contexts -/

/-- The contexts of a function. -/
def State.ctxsOf (s : State) (f : Nat) : List Nat := (s.work.ctxs.filter (fun c => c.fn == f)).map (fun c => c.num)

/-- Every context of a function declared lost (R38). -/
def State.loseAll (s : State) (f cause : Nat) : State := (s.ctxsOf f).foldl (fun s n => s.loseContext n cause) s

/-- A function leaves RUN (R101, R477): its queue and the records that wait are discarded, with the slots not yet
copied into the queue (log 94). -/
def State.leaveRun (s : State) (f : Nat) : State :=
  let s := (s.upFn f (fun n => { n with waiting := [], submitted := [], lqHead := n.lqTail })).recordsLeft f 0
  { s with work := { s.work with queues := insertKey s.work.queues f [] } }

/-- Entry of a function to TDISP ERROR (R38). -/
def State.toError (s : State) (f : Nat) : State :=
  ((s.upFn f (fun n => { n with tdisp := .error })).leaveRun f).loseAll f 0

/-- FUNCTION_LEVEL_RESET (R23, R453): the function's contexts are lost and scrubbed. -/
def execFunctionLevelReset (f : Nat) (s : State) : Outcome := .next (s.loseAll f 0)

/-- IDE_FAILURE (R37). -/
def execIdeFailure (f : Nat) (s : State) : Outcome := .next (s.toError f)

end Sys2Proof.Machine
end

