-- ==== Sys2Proof/Machine/Mailbox.lean ====
section
/-! DEFINITION. The mailboxes: their commands but SPDM, lifecycle and debug unlock, contexts and handles (02
R31 to R33, R39 to R42, R487 to R489; 04 R76 to R78; 21 R450 to R452). An act of a command is its doorbell
and its service in one (log 33). -/

namespace Sys2Proof.Machine

/-! ## Serving a command -/

/-- The physical function among the 33 (R397). -/
def physFn : Nat := 32

/-- Whether a command code is one that RETIRED and the recovery loop still answer (R26, R29; assumption 96). -/
def State.answers (s : State) (code : Nat) : Bool :=
  (!s.trust.recovery || code == 1 || code == 4) && (s.trust.lcNow != .retired || code == 1 || code == 2)

/-- The mailboxes serve commands from the end of the reset on; in the recovery loop the physical function's
alone exists (R25, R26). -/
def State.mailOpen (s : State) (f : Nat) : Bool :=
  decide (3 ≤ s.trust.boot) && decide (f ≤ 32) && (!s.trust.recovery || f == physFn)

/-- A HANDLE_REVOKE while another revocation runs, which waits in its mailbox (R435). -/
def State.revokeWaits (s : State) (code : Nat) : Bool := code == 0x33 && s.trust.revoke.isSome

/-- A mailbox has a command that the trust core may take (R32). -/
def State.mailPending (s : State) (f : Nat) : Bool :=
  (s.fn f).mbox.pending.any (fun r => !s.revokeWaits r.code.toNat)

/-- The mailbox served next, if `f` has a command: the first in rising function number, cyclically, after the one
served last (R32). -/
def State.nextMailbox (s : State) (f : Nat) : Nat :=
  (((List.range 33).map (fun i => (s.trust.last + 1 + i) % 33)).find? (fun g => g == f || s.mailPending g)).getD f

/-- A command of function `f` may be accepted, or is the one its mailbox already holds (R31, R32). -/
def Mailbox.accepts (m : Mailbox) (code : Nat) : Bool := !m.busy || m.pending.any (fun r => r.code.toNat == code)

/-- The command that the trust core takes from a mailbox as `code`: the one submitted and waiting, or the one
submitted now (R31). -/
def Mailbox.rung (m : Mailbox) (code : Nat) : Rung :=
  match m.busy, m.pending with
  | true, some r => r
  | _, _ => ⟨BitVec.ofNat 8 code, m.len, m.buf⟩

/-- The trust core takes command `code` of function `f` now: it is accepted, and it is the mailbox's turn (R32). -/
def State.takes (s : State) (f code : Nat) : Bool :=
  s.mailOpen f && (s.fn f).mbox.accepts code && !s.revokeWaits code && s.nextMailbox f == f

/-- A command submitted: it waits for the trust core as it stands (R31, R32). -/
def Mailbox.ring (m : Mailbox) (r : Rung) : Mailbox := { m with busy := true, pending := some r, done := false }

/-- The request bytes of a command. -/
def Rung.request (r : Rung) : List Byte := fixLen r.len.toNat r.buf

/-- The trust core takes a command of function `f` (R32): it is no longer pending, and `f` is the one served last. -/
def State.takeCommand (s : State) (f : Nat) : State :=
  let s := s.upFn f (fun n => { n with mbox := { n.mbox with pending := none } })
  { s with trust := { s.trust with last := f } }

/-- The notice of a context lost, told at the next command of its function (R41). -/
def State.notice (s : State) (f : Nat) : State :=
  (s.upFn f (fun n => { n with mbox := { n.mbox with lostNotice := false } })).respond f 3 []

/-- The codes of the commands of R33 and R77. -/
def knownCommands : List Nat := [1, 2, 3, 4, 0x10, 0x11, 0x20, 0x30, 0x31, 0x32, 0x33, 0x34]

/-- Whether an act of the opcode table serves a command (R33, R35, R77). -/
def Rung.known (r : Rung) : Bool :=
  knownCommands.contains r.code.toNat && (r.code != 2 || Config.spdmKnown r.request)

/-- The response bytes to an SPDM message of a kind. -/
def State.spdmBytes (s : State) (kind : Nat) (q : List Byte) : List Byte :=
  (Config.spdm kind q s.trust.slots.flatten s.trust.identity).take 4096

/-- The kind under which an error response is written: UnsupportedRequest and its like. -/
def spdmError : Nat := 0x7F

/-- A command that no act serves, as the trust core takes it: a notice that is due first (R41), else BAD_COMMAND for
an unknown code (R33, log 92), or the SPDM error for a message outside the flows (R35). -/
def State.unknownCommand (s : State) (f : Nat) (r : Rung) : State :=
  let s := s.takeCommand f
  if (s.fn f).mbox.lostNotice then s.notice f
  else if r.code = 2 ∧ r.len.toNat ≤ 4096 then
    if s.answers 2 then s.respond f 0 (s.spdmBytes spdmError r.request) else s.respond f 3 []
  else s.respond f 2 []

/-- The trust core goes on to the mailboxes that hold a command of no act, until one that an act serves is next
(R32). -/
def State.serveUnknown (s : State) : Nat → State
  | 0 => s
  | n + 1 =>
    let f := s.nextMailbox 33
    match (s.fn f).mbox.pending with
    | some r => if f < 33 ∧ r.known = false then (s.unknownCommand f r).serveUnknown n else s
    | none => s

/-- A command of function `f` rung and served (R32): while BUSY with another the doorbell only sets STATUS; out
of its turn it waits in its mailbox; a notice of a context lost (R41), LEN above 4096, and a code that is not
answered end it first. -/
def State.serve (s : State) (f code : Nat) (act : List Byte → State → State) : State :=
  let m := (s.fn f).mbox
  let r := m.rung code
  if !s.mailOpen f then s
  else if !m.accepts code then s.upFn f (fun n => { n with mbox := { n.mbox with status := 1 } })
  else
    let s := if m.busy then s else s.upFn f (fun n => { n with mbox := { n.mbox with cmd := BitVec.ofNat 8 code } })
    if !s.takes f code then s.upFn f (fun n => { n with mbox := n.mbox.ring r })
    else
      let s := s.takeCommand f
      let t := if m.lostNotice then s.notice f
        else if 4096 < r.len.toNat then s.respond f 2 []
        else if !s.answers code then s.respond f 3 []
        else act r.request s
      t.serveUnknown 33

/-- A write of a register of the physical function, which the host makes once the link answers (R25). -/
def State.hostWrite (s : State) (act : State → State) : State := if s.mailOpen physFn then act s else s

/-- A command allowed from the physical function alone (R33). -/
def State.physOnly (s : State) (f : Nat) (act : State → State) : State := if f = physFn then act s else s.respond f 3 []

/-! ## STATUS, RESET, FW_LOAD (R33, R487) -/

/-- A port's state as LNKSTAT codes it (R393). -/
def PortState.code : PortState → Nat
  | .down => 0
  | .training => 1
  | .attesting => 2
  | .open_ => 3
  | .error => 4

/-- The peer record of a port (R487): zero while it is neither ATTESTING nor OPEN. -/
def Port.peerBytes (p : Port) : List Byte :=
  if p.state = .attesting ∨ p.state = .open_ then
    leBytes 16 p.rec_.devId.toNat ++ leBytes 1 p.rec_.lifecycle.toNat ++ leBytes 1 p.state.code ++
      List.replicate 14 0 ++ (List.range 5).flatMap (fun i => leBytes 64 (p.rec_.slots.getD i 0).toNat)
  else List.replicate 352 0

/-- The live stacks as a bit mask. -/
def liveMask (l : List Nat) : Nat := l.foldl (fun m i => m + 2 ^ i) 0

/-- The STATUS response (R487). -/
def State.statusBytes (s : State) (f : Nat) : List Byte :=
  let t := s.trust
  fixLen 16 (Config.fuse 0) ++ leBytes 1 t.lcFuse.fuse ++ leBytes 1 t.lcNow.code ++ leBytes 1 t.arbn ++
    leBytes 1 t.dbgn ++ leBytes 4 (2 ^ t.arbn - 1) ++ leBytes 8 (2 ^ t.dbgn - 1) ++ fixLen 64 (Config.fuse 1) ++
    leBytes 4 (if t.recovery then 0 else t.fwver) ++ leBytes 2 (liveMask s.xl.surv) ++
    leBytes 1 s.xl.surv.length ++ leBytes 1 (b2n t.recovery + 2 * b2n t.parityError) ++ List.replicate 24 0 ++
    (if f = physFn then (List.range 4).flatMap (fun i => (s.links.ports.getD i Port.reset).peerBytes)
      else List.replicate 1408 0)

/-- STATUS (R487). -/
def execStatus (f : Nat) (s : State) : Outcome := .next (s.serve f 1 (fun _ s => s.respond f 0 (s.statusBytes f)))

/-- RESET (R33). -/
def execReset (f : Nat) (s : State) : Outcome := .next (s.serve f 3 (fun _ s => s.physOnly f State.packageReset))

/-- FW_LOAD (R33): the request is the whole image, which goes into the inactive flash bank; where no bank runs, as in
the recovery loop, that is bank 1 (log 92). -/
def State.loadFirmware (s : State) (img : List Byte) : State :=
  let b : Flash := ⟨img, Config.fwVersion img, Config.signatureOk (Config.fuse 1) img []⟩
  { s with trust := { s.trust with banks := upd ⟨[], 0, false⟩ s.trust.banks (1 - s.trust.running) b } }

/-- FW_LOAD (R33). -/
def execFwLoad (f : Nat) (s : State) : Outcome :=
  .next (s.serve f 4 (fun q s => s.physOnly f (fun s => (s.loadFirmware q).respond f 0 [])))

/-! ## Debug nonce and unlock (R39 to R42) -/

/-- DEBUG_NONCE (R40). -/
def execDebugNonce (f : Nat) (s : State) : Outcome :=
  .next (s.serve f 0x10 (fun _ s => s.physOnly f (fun s =>
    let n := fixLen 32 (Config.nonce s.trust.draws)
    ({ s with trust := { s.trust with nonce := some n, draws := s.trust.draws + 1 } } : State).respond f 0 n)))

/-- The checks of R41 on a request, in order: none when it passes, else the status. -/
def State.tokenCheck (s : State) (q : List Byte) : Option Nat :=
  if q.length ≠ 3374 ∨ field q 0 4 ≠ 0x4B444247 ∨ field q 21 3 ≠ 0 then some 4
  else if (q.drop 4).take 16 ≠ fixLen 16 (Config.fuse 0) then some 4
  else if field q 20 1 ≠ s.trust.lcNow.code then some 5
  else if 64 ≤ s.trust.dbgn then some 6
  else if field q 24 8 ≠ s.trust.dbgn then some 4
  else if s.trust.nonce ≠ some ((q.drop 32).take 32) then some 4
  else if !Config.signatureOk (Config.fuse 2) (q.take 64) ((q.drop 64).take 3309) then some 4
  else if s.work.ctxs ≠ [] ∧ bit (field q 3373 1) 0 = false then some 7
  else none

/-! ## Lifecycle transitions (R28, R488, R489) -/

/-- A phase number raised to even when it is odd (R489). -/
def evenUp (n : W32) : W32 := if n.toNat % 2 = 1 then n + 1 else n

/-- How many of the sweeps that a transition abandons run: key rotations, a revocation, the scrub (R435, R489). -/
def State.sweepsRun (s : State) : Nat :=
  (s.sweep.rot.filter (fun p => p.2.act)).length + s.sweep.revNum.toNat % 2 + s.sweep.scrNum.toNat % 2

/-- The further effects of R489: identifiers, page table, caches, requests and extents as after a package
reset, with EPOCH, HINT, XLINV and a change in progress among them (log 92); training, calendars and PHASE stay. The end of
each sweep that is abandoned raises vector 2 as every end does (R436). -/
def State.lifecycleEffects (s : State) : State :=
  let s := (List.range s.sweepsRun).foldl (fun s _ => s.raise physFn 2) s
  ({ s with
    xl := { Xlat.reset with surv := s.xl.surv, whome := s.xl.whome, capacity := s.xl.capacity }
    host := { s.host with save := [], queue := [], deficits := [] }
    sweep := { s.sweep with
      rot := s.sweep.rot.map (fun p => (p.1, { p.2 with num := evenUp p.2.num, act := false }))
      revNum := evenUp s.sweep.revNum
      revCore := 0
      scrNum := evenUp s.sweep.scrNum
      scrExt := none
      scrLine := 0
      asked := []
      early := [] } } : State).startScrubSweep

/-- The command of a revocation that a transition abandons ends with NOT_PERMITTED (R489, log 92). -/
def State.dropRevocation (s : State) : State :=
  match s.trust.revoke with
  | some (f, _) => s.respond f 3 []
  | none => s

/-- The wipe of R22 at a transition: SRAM, every register and queue of the cores, key slots and the seal key. A
function's slots submitted and not yet copied and its completion records that wait are its own registers and stay
(log 102). -/
def State.wipeCores (s : State) : State :=
  let s := s.dropRevocation
  { s with
    links := { s.links with reqs := [], refusals := [], unsent := [], arrivals := [], adds := [] }
    core := Core.reset
    parked := []
    mem := Mem.reset
    work := { Work.reset with nextDomain := s.work.nextDomain }
    replays := []
    steals := []
    trust := { s.trust with keys := List.replicate 64 none, sealNo := s.trust.sealNo + 1, revoke := none } }

/-- A transition to a lifecycle state carried out. -/
def State.enterLifecycle (s : State) (l : Lifecycle) : State :=
  let s := (s.wipeCores).lifecycleEffects
  let t := s.trust
  let t := if l = .debug then
      ({ t with dbgn := t.dbgn + 1 } : Trust).extend 3 (shake t.pendingToken)
    else { t with lcFuse := l }
  let t := t.extend 2 (leBytes 1 l.code)
  { s with trust := { t with lcNow := l, debugOpen := l == .debug, pendingLc := none, pendingToken := [] } }

/-- A transition asked for by the mailbox of the physical function: at once, or after the end of a retirement,
the mailbox staying BUSY (R489). -/
def State.requestLifecycle (s : State) (f : Nat) (l : Lifecycle) (token : List Byte) : State :=
  let s := { s with trust := { s.trust with pendingLc := some l, pendingToken := token } }
  if s.sweep.retiringNow then s.upFn f (fun n => { n with mbox := { n.mbox with busy := true, done := false } })
  else (s.enterLifecycle l).respond f 0 []

/-- Every tenant is told at its function's next command (R41, step 7). -/
def State.noticeAll (s : State) : State :=
  s.work.ctxs.foldl (fun s c => s.upFn c.fn (fun n => { n with mbox := { n.mbox with lostNotice := true } })) s

/-- Every context declared lost, each tenant told at its function's next command (R41, step 7). -/
def State.loseForced (s : State) : State :=
  let t := s.noticeAll
  (t.work.ctxs.map (fun c => c.num)).foldl (fun s n => s.loseContext n 0) t

/-- DEBUG_UNLOCK (R41). DEBUG is entered from PROVISIONED or OPERATIONAL alone (R28). -/
def State.unlock (s : State) (f : Nat) (q : List Byte) : State :=
  match s.tokenCheck q with
  | some st => s.respond f st []
  | none =>
    if s.trust.lcNow ≠ .provisioned ∧ s.trust.lcNow ≠ .operational then s.respond f 5 []
    else s.loseForced.requestLifecycle f .debug (q.take 3373)

/-- The current nonce lapses (R40). -/
def State.lapse (s : State) : State := { s with trust := { s.trust with nonce := none } }

/-- DEBUG_UNLOCK (R41): the nonce lapses at every attempt that the trust core takes, whatever its outcome (R40). -/
def execDebugUnlock (f : Nat) (s : State) : Outcome :=
  let t := s.serve f 0x11 (fun q s => s.physOnly f (fun s => s.unlock f q))
  .next (if s.takes f 0x11 then t.lapse else t)

/-- The transition LIFECYCLE_ADVANCE may make (R28). -/
def Lifecycle.advance : Lifecycle → Option Lifecycle
  | .blank => some .provisioned
  | .provisioned => some .operational
  | .operational => some .retired
  | .debug => none
  | .retired => none

/-- LIFECYCLE_ADVANCE (R488): the checks in their order. -/
def State.advanceLifecycle (s : State) (f : Nat) (q : List Byte) : State :=
  if f ≠ physFn then s.respond f 3 []
  else if q.length ≠ 1 ∨ field q 0 1 = 0 ∨ 5 < field q 0 1 then s.respond f 2 []
  else
    match s.trust.lcNow.advance with
    | none => s.respond f 5 []
    | some l =>
      if l.code ≠ field q 0 1 then s.respond f 5 []
      else if s.work.ctxs ≠ [] then s.respond f 7 []
      else if s.trust.lcNow = .blank ∧ s.trust.identityFused = false then s.respond f 5 []
      else s.requestLifecycle f l []

/-- LIFECYCLE_ADVANCE (R488). -/
def execLifecycleAdvance (f : Nat) (s : State) : Outcome := .next (s.serve f 0x20 (fun q s => s.advanceLifecycle f q))

/-- LIFECYCLE_TRANSITION (R489): a transition that waits takes place once no retirement is in progress. Until then
the other mailboxes are served (log 102). -/
def execLifecycleTransition (s : State) : Outcome :=
  .next (match s.trust.pendingLc with
    | some l => if s.sweep.retiringNow then s else (s.enterLifecycle l).respond physFn 0 []
    | none => s)

/-! ## Contexts and handles (R76 to R78) -/

/-- The two conditions of R77 and the lifecycle (R29, R37): RUN, then the tenant's session. -/
def State.tenantCmd (s : State) (f : Nat) (sess : Option Nat) (act : State → State) : State :=
  let n := s.fn f
  if f = physFn ∨ n.tdisp ≠ .run then s.respond f 3 []
  else if n.session = 0 ∨ sess ≠ some n.session then s.respond f 0x0A []
  else act s

/-- The context a request names: created through the same function within the same session (R77). -/
def State.ctxOf (s : State) (f : Nat) (q : List Byte) : Option Ctx :=
  s.work.ctxs.find? (fun c => c.num == field q 0 2 && c.fn == f && c.sess == (s.fn f).session)

/-- The identifier that has been FREE longest (R301). -/
def Xlat.freeTid (x : Xlat) : Option Nat :=
  let free := ((List.range 255).drop 1).filter (fun t => (x.tid t).state == .free)
  match free with
  | [] => none
  | t :: l => some (l.foldl (fun b u => if (x.tid u).freedAt < (x.tid b).freedAt then u else b) t)

/-- The lowest number that no context has. -/
def State.freeCtxNum (s : State) : Nat :=
  ((List.range 33).find? (fun n => s.work.ctxs.all (fun c => c.num != n))).getD 0

/-- CTX_CREATE (R77, R301). Table sizes are 1 to 16384 (R76); BLANK, PROVISIONED and RETIRED admit no context
(R29), and fewer than 8 live stacks admit none (R303). The spec gives no amount of table space; the model's never runs out
(log 105). -/
def State.createCtx (s : State) (f : Nat) (q : List Byte) : State :=
  let size := field q 0 4
  if q.length ≠ 4 ∨ size = 0 ∨ 16384 < size then s.respond f 2 []
  else if s.trust.lcNow ≠ .operational ∧ s.trust.lcNow ≠ .debug then s.respond f 3 []
  else if 32 ≤ s.work.ctxs.length ∨ s.xl.capacity = 0 then s.respond f 8 []
  else
    match s.xl.freeTid, s.trust.keys.findIdx? (fun k => k == none) with
    | some t, some slot =>
      let d := s.work.nextDomain
      let n := s.freeCtxNum
      let c : Ctx := ⟨n, f, (s.fn f).session, t, d, d, slot, size, [], 0⟩
      let tid := s.xl.tid t
      let s := { s with
        work := { s.work with ctxs := s.work.ctxs ++ [c], nextDomain := d + 1 }
        trust := { s.trust with keys := upd none s.trust.keys slot (some d) }
        xl := { s.xl with
          tids := insertKey s.xl.tids t { tid with state := .live, epoch := tid.epoch + 1, swept := false, fn := f } } }
      s.respond f 0 (leBytes 2 n ++ leBytes 1 t)
    | _, _ => s.respond f 8 []

/-- CTX_CREATE (R77). -/
def execCtxCreate (f : Nat) (sess : Option Nat) (s : State) : Outcome :=
  .next (s.serve f 0x30 (fun q s => s.tenantCmd f sess (fun s => s.createCtx f q)))

/-- A command on a context of this function and session, with a request of a given length (R77). -/
def State.ctxCmd (s : State) (f len : Nat) (q : List Byte) (act : Ctx → State → State) : State :=
  if q.length ≠ len then s.respond f 2 []
  else
    match s.ctxOf f q with
    | none => s.respond f 3 []
    | some c => act c s

/-- A context ended by its tenant: the mailbox stays BUSY until every record has entered the ring (R479). -/
def State.endByTenant (s : State) (f n : Nat) : State :=
  let s := s.endContext n 0x51 0
  let left := (s.fn f).waiting.length
  if left = 0 then s.respond f 0 []
  else s.upFn f (fun x => { x with endLeft := left, mbox := { x.mbox with busy := true, done := false } })

/-- CTX_END (R479). -/
def execCtxEnd (f : Nat) (sess : Option Nat) (s : State) : Outcome :=
  .next (s.serve f 0x31 (fun q s => s.tenantCmd f sess (fun s =>
    s.ctxCmd f 2 q (fun c s => s.endByTenant f c.num))))

/-- A handle record read from bytes 0 to 47 (R73). -/
def HRec.read (q : List Byte) : HRec where
  base := field q 0 8
  length := field q 8 8
  rights := BitVec.ofNat 16 (field q 16 2)
  tenant := field q 18 1
  keyslot := field q 19 1
  guard := field q 20 8
  param := field q 28 4
  gen := field q 32 2
  kind := field q 34 1
  local_ := bit (field q 35 2) 15
  rank := bits (field q 35 2) 11 0
  sealTag := 0

/-- Whether a tenant address is mapped (R78, step 4). -/
def State.maps (s : State) (t ta kind : Nat) : Bool :=
  match s.walk t ta kind with
  | .at _ _ _ _ => true
  | .miss _ => false

/-- The form of a guard: KIND BM or HBM, an address that is a multiple of 8 (R73). -/
def guardForm (g : Nat) : Bool := (g / 2 ^ 48 == 2 || g / 2 ^ 48 == 3) && g % 8 == 0

/-- The step of R78 that a proposed record fails first. L = 1 with a RANK that is not zero is reported in step 3; no step
names that rule of R73 (log 105). -/
def State.mintFails (s : State) (c : Ctx) (e : Nat) (q : List Byte) (r : HRec) : Option Nat :=
  let g := r.guard
  if r.rights.toNat / 128 ≠ 0 ∨ r.tenant ≠ 0 ∨ r.keyslot ≠ 0 ∨ r.gen ≠ 0 ∨ bits (field q 35 2) 14 12 ≠ 0 ∨
      field q 37 11 ≠ 0 then some 1
  else if r.base % 64 ≠ 0 ∨ 2 ^ 48 ≤ r.base ∨ r.length = 0 ∨ r.length % 64 ≠ 0 ∨ 2 ^ 48 < r.base + r.length then some 2
  else if (r.kind ≠ 2 ∧ r.kind ≠ 3) ∨ (r.local_ = true ∧ r.rank ≠ 0) then some 3
  else if g ≠ unguarded ∧ ¬(guardForm g = true ∧
      s.maps c.tenant (g % 2 ^ 48) (g / 2 ^ 48) = true) then some 4
  else if r.param ≠ 0xFFFFFFFF ∧ ¬(r.param % 32 = 0 ∧ r.param + 32 ≤ r.length) then some 5
  else if r.local_ = false ∧ ¬(bit (s.links.rank r.rank).toNat 63 = true ∧
      (s.partOf c.fn).map s.partKey = some (bits (s.links.rank r.rank).toNat 47 32)) then some 6
  else if c.size ≤ e then some 7
  else none

/-- A context changed. -/
def State.upCtx (s : State) (n : Nat) (f : Ctx → Ctx) : State :=
  { s with work := { s.work with ctxs := s.work.ctxs.map (fun c => if c.num = n then f c else c) } }

/-- Whether a command holds a view that came from an entry, or is a copy table run whose handles do (R450). -/
def Cmd.uses (c : Cmd) (e gen : Nat) : Bool :=
  c.views.any (fun v => v.entry == some e) ||
    c.snap.any (fun h => match h with
      | .valid x g => x == e && g != gen
      | .revoked x _ => x == e
      | .built => false
      | .empty => false)

/-- A copy command stopped or cancelled by a revocation: its token takes REVOKED when the engine next reaches
it; one paused on a page goes on to that (R450, R456). -/
def Cmd.revoke (c : Cmd) : Cmd :=
  match c.fail with
  | some _ => c
  | none => { c with fail := some (0xB, 0), paused := none, full := none, waits := [] }

/-- A handle register turned REVOKED by the sweep (R450). -/
def HReg.sweep (e gen : Nat) (h : HReg) : HReg :=
  match h with
  | .valid x g => if x = e ∧ g ≠ gen then .revoked x g else h
  | _ => h

/-- One core swept: the core after, and its counts CACHE, REGS, CANCEL, STOP, BUF (R450, R452). -/
def Core.sweep (c : Core) (e gen : Nat) : Core × List Nat :=
  let dropped := (c.hcache.filter (fun x => x.entry == e)).length
  let turns (h : HReg) : Bool := h.sweep e gen != h
  let hit := c.cq.filter (fun x => x.uses e gen && x.fail.isNone && !(match x.instr with
    | .cpagentCas128 _ | .cpagentCas256 _ | .cpagentEnq _ | .cpagentChase _ => x.started
    | _ => false))
  let ps := hit.map (fun x => x.prod)
  let f (g : Regs) : Regs := { g with h := g.h.map (HReg.sweep e gen) }
  let c' := { c with
    hcache := c.hcache.filter (fun x => x.entry != e)
    live := f c.live
    ckpt := f c.ckpt
    cq := c.cq.map (fun x => if ps.contains x.prod then x.revoke else x) }
  (c', [dropped, (c.live.h.filter turns).length, (hit.filter (fun x => !x.started)).length,
    (hit.filter (fun x => x.started)).length, b2n (c.sbuf.any (fun b => b.view.entry == some e))])

/-- Counts added up, each saturating at 0xFFFF (R452). -/
def addCounts (a b : List Nat) : List Nat := (List.range 5).map (fun i => satAdd 0xFFFF (a.getD i 0) (b.getD i 0))

/-- The lines of a code handle's entry dropped from a core's instruction cache (R131). -/
def Core.dropEntryCode (c : Core) (tenant e : Nat) : Core :=
  { c with icache := c.icache.filter (fun l => !(l.tenant == tenant && l.entry == e)) }

/-- Every core swept, in rising number (R450): each drops the entry's code (R131), and one that runs a strand of the
context all it holds of the entry. -/
def State.sweepCores (s : State) (ctx tenant e gen : Nat) : State × List Nat :=
  let hit (c : Core) : Bool := c.runs (fun j => j.ctx == ctx)
  let s := s.onCores (fun c => c.dropEntryCode tenant e)
  (List.range 768).foldl (fun (p : State × List Nat) n =>
    let c := p.1.coreAt n
    if hit c then
      let r := c.sweep e gen
      (p.1.setCoreAt n r.1, addCounts p.2 r.2)
    else p) (s, [0, 0, 0, 0, 0])

/-- HANDLE_MINT (R78): the first step that fails is the reason, and a walk that met a poisoned line is logged (R444); while
the walk unit has no slot the command waits in its mailbox (R16). The last asks that the index lies in the table. Where
a record was live at the entry, what the cores hold of it goes as at a revocation (R88). -/
def State.mint (s : State) (f : Nat) (q : List Byte) (c : Ctx) : State :=
  let e := field q 2 4
  let p := q.drop 6
  let r := HRec.read p
  match s.mintFails c e p r with
  | some k =>
    if k = 4 ∧ guardForm r.guard = true ∧ s.walk c.tenant (r.guard % 2 ^ 48) (r.guard / 2 ^ 48) = .miss 8 then
      s.upFn f (fun n => { n with mbox := n.mbox.ring ⟨0x32, BitVec.ofNat 13 q.length, q⟩ })
    else
    let s := if k = 4 ∧ s.walk c.tenant (r.guard % 2 ^ 48) (r.guard / 2 ^ 48) = .miss 6 then
        s.logRec .walkPoison c.tenant (r.guard % 2 ^ 48) s.cycle.toNat else s
    s.respond f 9 (leBytes 1 k)
  | none =>
    let t := c.entry e
    if t.closed ∨ t.gen = 0xFFFF then s.respond f 8 []
    else
      let g := t.gen + 1
      let r := ({ r with tenant := c.tenant, keyslot := c.keyslot, gen := g } : HRec).sealed s.trust.sealNo
      let s := s.upCtx c.num (fun c => { c with table := insertKey c.table e ⟨some r, g, false⟩ })
      let s := if t.rec_.any (fun x => x.gen == t.gen) then (s.sweepCores c.num c.tenant e g).1 else s
      s.respond f 0 (leBytes 2 g)

/-- HANDLE_MINT (R78). -/
def execHandleMint (f : Nat) (sess : Option Nat) (s : State) : Outcome :=
  .next (s.serve f 0x32 (fun q s => s.tenantCmd f sess (fun s => s.ctxCmd f 54 q (fun c s => s.mint f q c))))

/-- HANDLE_READ (R77): the record's bytes 0 to 47 and the entry's current generation; zeros for an entry never
minted (log 92). -/
def execHandleRead (f : Nat) (sess : Option Nat) (s : State) : Outcome :=
  .next (s.serve f 0x34 (fun q s => s.tenantCmd f sess (fun s => s.ctxCmd f 6 q (fun c s =>
    let e := field q 2 4
    if c.size ≤ e then s.respond f 9 [7]
    else
      let t := c.entry e
      let bs := match t.rec_ with
        | some r => r.bytes
        | none => List.replicate 48 0
      s.respond f 0 (bs ++ leBytes 2 t.gen)))))

/-! ## Revocation (R450 to R452) -/

/-- Whether a strand that watches belongs to a context. -/
def State.watcherOf (s : State) (ctx : Nat) (w : Watcher) : Bool :=
  s.work.pool.any (fun r => r.strand == w.strand &&
    match s.launch? r.launch with
    | some l => l.ctx == ctx
    | none => false)

/-- The bytes of the response of R452: CACHE, REGS, CANCEL, STOP, WATCH, BUF. -/
def revokeBytes (counts : List Nat) (watch : Nat) : List Byte :=
  let c (i : Nat) : List Byte := leBytes 2 (counts.getD i 0)
  c 0 ++ c 1 ++ c 2 ++ c 3 ++ leBytes 2 (min watch 0xFFFF) ++ c 4 ++ List.replicate 4 0

/-- Revoke (R450) up to its wait: the generation rises, then every core is swept; the response follows at
REVOCATION_END. A closed entry has no live record and runs no sweep (R76). -/
def State.revoke (s : State) (f : Nat) (q : List Byte) (c : Ctx) : State :=
  let e := field q 2 4
  if c.size ≤ e then s.respond f 9 [7]
  else
    let t := c.entry e
    if t.closed then s.respond f 0 (List.replicate 16 0)
    else
      let t := if t.gen = 0xFFFF then { t with gen := 0, closed := true } else { t with gen := t.gen + 1 }
      let s := s.upCtx c.num (fun c => { c with table := insertKey c.table e t })
      let (s, counts) := s.sweepCores c.num c.tenant e t.gen
      let (s, w) := s.dropWatchers (fun w => w.entry == e && s.watcherOf c.num w)
      let s := { s with
        trust := { s.trust with revoke := some (f, c.num, e, w, counts) }
        sweep := { s.sweep with revNum := s.sweep.revNum + 1, revCore := 767 } }
      s.upFn f (fun n => { n with mbox := { n.mbox with busy := true, done := false } })

/-- HANDLE_REVOKE (R450). One revocation runs at a time; a later request waits in its mailbox (R435). -/
def execHandleRevoke (f : Nat) (sess : Option Nat) (s : State) : Outcome :=
  .next (s.serve f 0x33 (fun q s => s.tenantCmd f sess (fun s => s.ctxCmd f 6 q (fun c s => s.revoke f q c))))

/-- REVOCATION_END (R450): once every command the sweep stopped has completed its token, REVSTAT becomes even
and the response is written. -/
def execRevocationEnd (s : State) : Outcome :=
  .next (match s.trust.revoke with
    | none => s
    | some (f, ctx, _, w, counts) =>
      let cores := s.core :: s.parked.map (fun p => p.2)
      if cores.any (fun c => c.runs (fun j => j.ctx == ctx) && c.cq.any (fun x => x.fail == some (0xB, 0))) then s
      else
        let s := { s with
          trust := { s.trust with revoke := none }
          sweep := { s.sweep with revNum := s.sweep.revNum + 1, revCore := 0 } }
        (s.respond f 0 (revokeBytes counts w)).raise physFn 2)

end Sys2Proof.Machine
end

