-- ==== Sys2Proof/Machine/Launch.lean ====
section
/-! DEFINITION. Launches: the header, admission, the queues, graphs and completion (05, 24 R475 to R478). -/

namespace Sys2Proof.Machine

/-! ## The header (R92) -/

/-- A header read from its 256 bytes (R92). -/
def Header.read (h : List Byte) : Header where
  mode := bits (field h 3 1) 3 2
  prio := bits (field h 3 1) 5 4
  codeIx := field h 4 2
  entry := field h 8 8
  hlStart := field h 16 4
  hlCount := field h 20 4
  widths := (List.range 6).map (fun i => field h (24 + i) 1)
  nf := field h 30 1
  cl := bits (field h 31 1) 7 4
  kl := bits (field h 31 1) 3 0
  ext := (List.range 6).map (fun i => field h (32 + 8 * i) 8 + 1)
  lmBytes := field h 80 4
  cpBytes := field h 84 4
  vregs := field h 88 1
  kregs := field h 89 1
  rots := field h 90 1
  rotv := field h 91 1
  rotk := field h 92 1
  depth := field h 93 1
  rsb := field h 94 2
  tables := (List.range 4).map (fun i => (field h (96 + 8 * i) 4, field h (100 + 8 * i) 2))
  planIx := field h 128 2
  planSteps := field h 132 4
  planClk := field h 136 8
  boundCores := field h 144 4
  node := field h 148 2
  npred := field h 150 1
  succ := (List.range 4).map (fun i => field h (152 + 2 * i) 2)
  gparIx := field h 160 2
  gparOff := field h 164 4
  ctag := BitVec.ofNat 64 (field h 168 8)
  args := (List.range 4).map (fun i => BitVec.ofNat 64 (field h (176 + 8 * i) 8))

/-- Step 2 of R97: MAGIC, VERSION, MODE, reserved fields and DEPTH. -/
def headerOk (h : List Byte) : Bool :=
  field h 0 2 == 0x4B4C && field h 2 1 == 1 && bits (field h 3 1) 3 2 != 3 && bits (field h 3 1) 7 6 == 0 &&
    bits (field h 3 1) 1 0 == 0 && field h 6 2 == 0 && field h 93 1 == 0 &&
    (List.range 4).all (fun i => field h (102 + 8 * i) 2 == 0) && field h 130 2 == 0 && field h 151 1 == 0 &&
    field h 162 2 == 0 && field h 208 48 == 0

/-- Step 3 of R97: fields, widths, extents and levels (R93, R94), and for a gang launch its groups (R114). -/
def Header.workOk (h : Header) (clusters : Nat) : Bool :=
  let ws := h.widths.take h.nf
  decide (1 ≤ h.nf ∧ h.nf ≤ 6) && ws.all (fun w => decide (1 ≤ w ∧ w ≤ 64)) &&
    (h.widths.drop h.nf).all (fun w => w == 0) && decide (ws.foldl (· + ·) 0 ≤ 64) &&
    (ws.zip h.ext).all (fun p => decide (p.2 ≤ 2 ^ p.1)) && (h.ext.drop h.nf).all (fun e => e == 1) &&
    decide (h.cl ≤ h.kl ∧ h.kl ≤ h.nf) &&
    (h.mode == 0 ||
      (h.kl == h.nf && h.strands == h.boundCores && decide (h.perCluster ≤ 4) && decide (h.groups ≤ clusters)))

/-- The field values of the strand of a position, most significant first (R93). -/
def fieldsOf : List Nat → Nat → List Nat
  | [], _ => []
  | _ :: l, n => (n / l.foldl (· * ·) 1) :: fieldsOf l (n % l.foldl (· * ·) 1)

/-- WorkId of field values (R93). -/
def workId (ws xs : List Nat) : Word :=
  BitVec.ofNat 64 ((ws.zip xs).foldl (fun w p => w * 2 ^ p.1 + p.2) 0)

/-- WORKID of the strand generated in position `n` (R93). -/
def Header.workidAt (h : Header) (n : Nat) : Word := workId (h.widths.take h.nf) (fieldsOf (h.ext.take h.nf) n)

/-- A field of an installed descriptor of a partition (R107). -/
def State.partField (s : State) (p off n : Nat) : Nat := field s.part.iDescr (64 * p + off) n

/-- Step 8 of R97: the ranges of R92 and R95 and the partition's limits. -/
def State.fits (s : State) (p : Nat) (h : Header) : Bool :=
  decide (h.lmBytes % 4096 = 0 ∧ 4096 ≤ h.lmBytes ∧ h.lmBytes ≤ 1536 * 1024) &&
    decide (h.cpBytes % 65536 = 0 ∧ h.cpBytes ≤ 2 ^ 24) &&
    decide (1 ≤ h.vregs ∧ h.vregs ≤ 64) && decide (1 ≤ h.kregs ∧ h.kregs ≤ 32) &&
    decide (h.rots ≤ 30 ∧ h.rotv ≤ 32 ∧ h.rotk ≤ 16) && decide (1 ≤ h.rsb ∧ h.rsb ≤ 1024) &&
    (h.rotv == 0 || decide (32 + h.rotv ≤ h.vregs)) && (h.rotk == 0 || decide (16 + h.rotk ≤ h.kregs)) &&
    h.tables.all (fun t => t.1 % 4 == 0 && (decide (t.1 + 4 * t.2 ≤ h.lmBytes) || (t.1 == 0 && t.2 == 0))) &&
    decide (h.lmBytes ≤ 4096 * s.partField p 36 2) && decide (h.cpBytes ≤ 65536 * s.partField p 38 2) &&
    decide (h.rsb ≤ s.partField p 40 2) && decide (h.vregs ≤ s.partField p 42 1) &&
    decide (h.kregs ≤ s.partField p 43 1)

/-! ## Records of a context's table -/

/-- A live record of a context's entry (R76), with rights. -/
def State.liveRec (s : State) (c : Ctx) (e : Nat) : Option HRec :=
  let t := c.entry e
  match t.rec_ with
  | some r => if r.gen = t.gen ∧ t.closed = false ∧ r.sealOk s.trust.sealNo = true ∧ e < c.size then some r else none
  | none => none

/-- Where a queued entry's header lies (R97, step 1): context, kind and tenant address; none where it fails. Any
known context passes, another function's too, and the launch is that context's function's (log 103). -/
def State.headerPlace (s : State) (q : Queued) (off : Nat) : Option (Ctx × Nat × Nat) :=
  match s.ctx? q.ctx with
  | none => none
  | some c =>
    match q.view with
    | some v =>
      if v.kind < 2 ∨ v.local_ = false ∨ v.rights.getLsbD 0 = false ∨ (v.base + off) % 256 ≠ 0 ∨
          v.length < off + 256 ∨ (v.entry.bind (s.liveRec c)).isNone = true ∨ s.entryGen q.ctx q.hentry ≠ q.gen then none
      else some (c, v.kind, v.base + off)
    | none =>
      match s.liveRec c q.hentry with
      | none => none
      | some r =>
        if r.kind < 2 ∨ r.local_ = false ∨ r.rights.getLsbD 0 = false ∨ (r.base + off) % 256 ≠ 0 ∨ r.length < off + 256 then
          none
        else some (c, r.kind, r.base + off)

/-! ## Partitions as the launch unit sees them (R107, R108) -/

/-- The unfenced cores of a partition, in increasing number. -/
def State.partCores (s : State) (p : Nat) : List Nat :=
  ((s.partClusters p).flatMap (fun c => (List.range 4).map (fun i => c * 4 + i))).filter
    (fun n => !s.part.iFence.getLsbD n)

/-- The clusters of a partition with at least `n` unfenced cores: those a gang's group of `n` strands may be
bound to (R400). -/
def State.gangClusters (s : State) (p n : Nat) : List Nat :=
  (s.partClusters p).filter (fun c =>
    decide (n ≤ ((List.range 4).filter (fun i => !s.part.iFence.getLsbD (c * 4 + i))).length))

/-- The clk of one budget period of a function (R109). -/
def State.period (s : State) (f : Nat) : Nat := bits (s.part.iBudget.getD f 0).toNat 57 48 * 1600

/-- A function is within its budget (R103). -/
def State.within_ (s : State) (f : Nat) : Bool := decide ((s.fn f).used < bits (s.part.iBudget.getD f 0).toNat 47 0)

/-- The clk since a step. -/
def State.since (s : State) (step : Nat) : Nat := cycleAfter s.stepNo - cycleAfter step

/-- The effective priority of something that waits since a step (R104). -/
def State.effPrio (s : State) (f prio step : Nat) : Nat := min 3 (prio + s.since step / max 1 (4 * s.period f))

/-! ## Admission (R97) -/

/-- Why admission does not go on: a refusal with status, step, the header as far as it was read and the poisoned
line met, or a page request to wait for. -/
inductive NoAdmit where
  | refuse (status step : Nat) (hdr : Option Header) (line : Option Nat)
  | wait (m : Miss)
deriving DecidableEq, Repr

/-- A plan step read from its 32 bytes (R126). -/
def PlanStep.read (b : List Byte) : PlanStep :=
  ⟨field b 0 2, field b 2 2, field b 4 1, field b 5 1, field b 6 2, field b 8 8, field b 16 8, field b 24 4, field b 28 2⟩

/-- The parameter record of a handle as the Fill of ReadHandle checks it (R81, R85). -/
def State.paramRead (s : State) (c : Ctx) (r : HRec) : DevRead :=
  if r.param = 0xFFFFFFFF then .ok []
  else
    match s.devRead c (r.base + r.param) r.kind 32 0 with
    | .ok bs => if (Param.read bs).ok bs r.param r.length then .ok [] else .bad none
    | e => e

/-- One side of a plan step: its range lies in the share, or ReadHandle grants it (R126). A side lies in this
package (log 97). -/
def State.planSide (s : State) (c : Ctx) (h : Header) (kind hix off len : Nat) (need : Right) : DevRead :=
  let yes (b : Bool) : DevRead := if b then .ok [] else .bad none
  if kind = 0 then yes (decide (off + len ≤ h.lmBytes))
  else if kind = 1 then yes (decide (off + len ≤ h.cpBytes))
  else
    match s.liveRec c (h.hlStart + hix) with
    | none => .bad none
    | some r =>
      if r.local_ && rightsOk r.rights r.local_ need && decide (off + len ≤ r.length) then s.paramRead c r else .bad none

/-- A plan step keeps the table of R126: its sides checked last, which may wait for a page. -/
def State.planStepOk (s : State) (c : Ctx) (h : Header) (b : List Byte) : DevRead :=
  let p := PlanStep.read b
  if decide (p.src < h.boundCores ∧ p.dst < h.boundCores ∧ p.skind ≤ 2 ∧ p.dkind ≤ 2) &&
      (if p.skind = 2 ∨ p.dkind = 2 then decide (p.hix < h.hlCount) else p.hix == 0xFFFF) &&
      p.len != 0 && p.len % 64 == 0 && decide (p.start < h.planClk) && field b 30 2 == 0 then
    match s.planSide c h p.skind p.hix p.soff p.len .rd with
    | .ok _ => s.planSide c h p.dkind p.hix p.doff p.len .w
    | e => e
  else .bad none

/-- The steps of a plan read one after the other (R126). -/
def State.readPlan (s : State) (c : Ctx) (h : Header) (r : HRec) : Nat → Nat → Except NoAdmit (List PlanStep)
  | 0, _ => .ok []
  | k + 1, i =>
    if r.length < 32 * (i + 1) then .error (.refuse 0x46 6 (some h) none)
    else
      match s.devRead c (r.base + 32 * i) r.kind 32 with
      | .miss m => .error (.wait m)
      | .bad l => .error (.refuse 0x46 6 (some h) l)
      | .ok b =>
        match s.planStepOk c h b with
        | .miss m => .error (.wait m)
        | .bad l => .error (.refuse 0x46 6 (some h) l)
        | .ok _ =>
          match s.readPlan c h r k (i + 1) with
          | .error e => .error e
          | .ok l => .ok (PlanStep.read b :: l)

/-- Step 6 of R97. -/
def State.planCheck (s : State) (c : Ctx) (h : Header) (raw : List Byte) : Except NoAdmit (List PlanStep) :=
  if h.mode ≠ 1 then (if field raw 128 16 = 0 then .ok [] else .error (.refuse 0x46 6 (some h) none))
  else if h.hlCount ≤ h.planIx then .error (.refuse 0x46 6 (some h) none)
  else
    match s.liveRec c (h.hlStart + h.planIx) with
    | none => .error (.refuse 0x46 6 (some h) none)
    | some r =>
      if !(rightsOk r.rights r.local_ .rd && r.local_) then .error (.refuse 0x46 6 (some h) none)
      else s.readPlan c h r h.planSteps 0

/-- Step 4 of R97: the list and the code handle; the code as the sequencer will hold it. -/
def State.listCheck (s : State) (c : Ctx) (h : Header) : Option Code :=
  if h.hlCount = 0 ∨ c.size < h.hlStart + h.hlCount ∨ h.hlCount ≤ h.codeIx ∨
      (List.range h.hlCount).any (fun i => (c.entry (h.hlStart + i)).closed) then none
  else
    match s.liveRec c (h.hlStart + h.codeIx) with
    | none => none
    | some r =>
      if r.rights.getLsbD 2 = true ∧ 2 ≤ r.kind ∧ h.entry % 4 = 0 ∧ h.entry < r.length then
        some ⟨h.hlStart + h.codeIx, r.gen, r.base, r.length, r.kind⟩
      else none

/-- Step 7 of R97 (R105). `node`: the node of a replay, its node count and its entry of the block. -/
def Header.graphOk (h : Header) (node : Option (Nat × Nat × List Byte)) : Bool :=
  match node with
  | none => h.node == 0xFFFF && h.npred == 0 && h.succ.all (fun x => x == 0xFFFF) && h.gparIx == 0 && h.gparOff == 0
  | some (j, n, e) =>
    h.node == j && h.succ.all (fun x => x == 0xFFFF || decide (x < n)) && h.gparOff % 64 == 0 &&
      (j != 0 || h.npred == 0) && field e 40 24 == 0

/-- The fields a node's entry of the parameter block replaces (R105). -/
def Header.patch (h : Header) (e : List Byte) : Header :=
  { h with
    args := (List.range 4).map (fun i => BitVec.ofNat 64 (field e (8 * i) 8))
    hlStart := field e 32 4
    hlCount := field e 36 4 }

/-- The node a queued entry stands for, with the replay's count and its parameter entry. -/
def State.nodeOf (s : State) (q : Queued) : Option (Nat × Nat × List Byte) :=
  match q.replay with
  | none => none
  | some (r, j) =>
    match s.replays.find? (fun x => x.num == r) with
    | none => none
    | some x => some (j, x.nodes, x.params.getD j [])

/-- Steps 1 to 5 of R97, in their order, on a header of a known place: the launch as its header was read, and the
header. A read whose page request was refused fails step 1. -/
def State.admitHeader (s : State) (p : Nat) (q : Queued) : Except NoAdmit (Launch × List Byte) :=
  let unread (l : Option Nat) : Except NoAdmit (Launch × List Byte) := .error (.refuse 0x41 1 none l)
  match s.headerPlace q q.hoff with
  | none => unread none
  | some (c, kind, ta) =>
    if q.refused then unread none
    else
      match s.devRead c ta kind 256 with
      | .miss m => .error (.wait m)
      | .bad l => unread l
      | .ok raw =>
        let node := s.nodeOf q
        let h := Header.read raw
        let h := match node with
          | some (_, _, e) => h.patch e
          | none => h
        let no (st step : Nat) : Except NoAdmit (Launch × List Byte) := .error (.refuse st step (some h) none)
        if !headerOk raw then no 0x40 2
        else if !h.workOk (s.gangClusters p h.perCluster).length then no 0x42 3
        else
          match s.listCheck c h with
          | none => no 0x43 4
          | some code =>
            if h.boundCores ≠ (s.partCores p).length then no 0x44 5
            else
              .ok ({
                num := s.work.nextLaunch, ctx := c.num, fn := c.fn, part := p, hdr := h, prio := q.prio,
                depth := q.depth, enteredAt := q.enteredAt,
                admitted := (List.range h.hlCount).map (fun i => (c.entry (h.hlStart + i)).gen),
                code := code, state := if h.mode = 0 then .running else .reserving, bound := [], coreBound := [],
                groupLeft := [], coreLeft := [], reserved := [], generated := 0, live := 0, arrived := [],
                exited := [], spawned := [], plan := [], planDone := [], status := none, bad := none, exits := 0,
                device := q.device, hdrView := q.view, replay := q.replay, readyAt := s.stepNo,
                evicted := false, arrivedAt := 0, stepAt := 0, overruns := 0, planPage := none }, raw)

/-- Steps 6 to 9 of R97, in their order, on a launch whose header was read: it goes on from there after a page of its
plan, the header and the generations as they were. A refused page of the plan fails step 6 (log 103). -/
def State.admitRest (s : State) (p : Nat) (q : Queued) (l : Launch) (raw : List Byte) : Except NoAdmit Launch :=
  let no (st step : Nat) : Except NoAdmit Launch := .error (.refuse st step (some l.hdr) none)
  match s.ctx? l.ctx with
  | none => .error (.refuse 0x41 1 none none)
  | some c =>
    if q.seen.isSome ∧ q.refused = true then no 0x46 6
    else
      match s.planCheck c l.hdr raw with
      | .error e => .error e
      | .ok plan =>
        if !l.hdr.graphOk (s.nodeOf q) then no 0x48 7
        else if !s.fits p l.hdr then no 0x45 8
        else if q.device ∧ 15 < q.depth then no 0x49 9
        else .ok { l with plan := plan }

/-- The nine steps of R97, in their order. -/
def State.admission (s : State) (p : Nat) (q : Queued) : Except NoAdmit Launch :=
  match s.admitHeader p q with
  | .error e => .error e
  | .ok (l, raw) => s.admitRest p q l raw

/-! ## Completion (R475 to R478) -/

/-- A record stamped as it is written: ENDCLK and the validity bit (R476). -/
def stampRecord (r : List Byte) (clk : Nat) (v : Bool) : List Byte :=
  r.take 24 ++ leBytes 4 (clk % 2 ^ 32) ++ (r.drop 28).take 3 ++ leBytes 1 (b2n v)

/-- The die of a function's launch unit (R101): the lowest that holds a cluster of its partition. -/
def State.homeDie (s : State) (f : Nat) : Nat :=
  (((s.partOf f).bind (fun p => (s.partClusters p).head?)).map (fun c => c / 24)).getD 0

/-- Bytes of a share of a context's launches, as they stand in LM or in a pool. -/
def State.shareHolds (s : State) (ctx a n : Nat) : Bool :=
  let holds (launch base len : Nat) : Bool := s.launchOf ctx launch && decide (base ≤ a ∧ a + n ≤ base + len)
  s.work.shares.any (fun h => holds h.launch (lmPlace h.core h.off) h.len) ||
    s.work.cps.any (fun h => holds h.launch (cpPlace h.cluster h.off) h.len)

/-- A header record written in another package (R478): a posted write of the launch unit, and its number; none where
the rank cannot be reached. -/
def State.sendRecord (s : State) (l : Launch) (c : Ctx) (v : View) (bs : List Byte) : State × Option Nat :=
  let e := (s.links.rank v.rank).toNat
  if (s.rankFault v.rank true).isSome then (s, none)
  else
    let id := s.links.nextReq
    let die := s.homeDie l.fn
    let r : Req := ⟨id, 768 + die, none, 0, .write, v.rank, false, v.base + v.off + 224, bs, 32, 0, false, true, none, l.ctx,
      BitVec.ofNat 16 (((s.partOf l.fn).map (fun p => s.partKey p)).getD 0), BitVec.ofNat 8 c.tenant,
      BitVec.ofNat 3 (bits e 13 11), BitVec.ofNat 5 (bits e 23 19), 0, s.outPort die (bits e 23 19)⟩
    (({ s with links := { s.links with reqs := s.links.reqs ++ [r], nextReq := id + 1 } } : State).depart r, some id)

/-- Step 3 of R478: the record written into the child's header when its handle carries W and the header lies in its
range; its page may be missing, and the step then waits for it. In a share it is written while the share stands, and
in another package by a write whose number is given (log 103). -/
def State.headerRecord (s : State) (l : Launch) : Except Miss (State × Option Nat) :=
  match l.hdrView, s.ctx? l.ctx with
  | some v, some c =>
    let bs := stampRecord l.record s.cycle.toNat true
    let ta := v.base + v.off + 224
    let put (pa : Nat) : Except Miss (State × Option Nat) :=
      match s.ordWrite (s.keyFor c) pa bs 0 with
      | .ok s => .ok (s, none)
      | .error (.wait w, _) => .error ⟨ta, c.tenant, v.kind == 2, 2, w.code.1, BitVec.ofNat 64 w.code.2⟩
      | .error (_, s) => .ok (s, none)
    if !(l.device && rightsOk v.rights v.local_ .w && decide (v.off + 256 ≤ v.length)) then .ok (s, none)
    else if !v.local_ then .ok (s.sendRecord l c v bs)
    else if v.kind ≤ 1 then (if s.shareHolds c.num ta 32 then put ta else .ok (s, none))
    else
      match s.walk c.tenant ta v.kind with
      | .miss why => .error ⟨ta, c.tenant, v.kind == 2, 2, why, 0⟩
      | .at f z r _ => if (pageFault s.xl.capacity v.kind f z ta r 2).isSome then .ok (s, none) else put (pagePlace f z ta)
  | _, _ => .ok (s, none)

/-- The entry of a replay's node in its function's queue, PRIO read at once where it can be, and its waiting time
counted from now on (R104, R105, log 103). -/
def State.submitNode (s : State) (r : Replay) (j : Nat) : State :=
  let q : Queued := {
    ctx := r.ctx, kind := 0, hentry := r.hentry, hoff := r.hoff + 256 * j, nodes := 0, prio := 0, depth := 0,
    device := false, enteredAt := s.stepNo, bad := false, replay := some (r.num, j), view := none,
    waitsFor := none, refused := false, gen := 0, held := none,
    seen := none, root := none }
  let (p, s) := s.readPrio (s.headerPlace q q.hoff)
  { s with work := { s.work with
      queues := insertKey s.work.queues r.fn ((lookup s.work.queues r.fn).getD [] ++ [{ q with prio := p }]) } }

/-- A replay changed. -/
def State.upReplay (s : State) (n : Nat) (f : Replay → Replay) : State :=
  { s with replays := s.replays.map (fun r => if r.num = n then f r else r) }

/-- NPRED of a node's header, read once its first predecessor has ended (R105). A node whose handle is no longer
live, or whose read fails, is bad: it is submitted, and refused there. -/
def State.readNpred (s : State) (r : Replay) (j : Nat) : DevRead :=
  match s.ctx? r.ctx with
  | none => .bad none
  | some c =>
    match s.liveRec c r.hentry with
    | none => .bad none
    | some h => if r.refused.contains j then .bad none else s.devRead c (h.base + r.hoff + 256 * j + 150) h.kind 1

/-- Host entries a queue holds: launches and replays that the host submitted, and nodes of replays (R101). -/
def hostEntries (q : List Queued) : Nat := (q.filter (fun x => !x.device)).length

/-- A function's queue has room for a host entry (R101). -/
def State.hostRoom (s : State) (f : Nat) : Bool :=
  let q := (lookup s.work.queues f).getD []
  decide (hostEntries q < 56) && decide (q.length < queueSize)

/-- Nodes that may be due: a predecessor has ended with OK, and they are not submitted; a node whose NPRED is known
and not yet reached is not due (R105). -/
def Replay.due (r : Replay) : List Nat :=
  (r.counts.filter (fun p => decide (p.1 < r.nodes) && !r.submitted.contains p.1 &&
    (lookup r.npreds p.1).all (fun k => k == p.2))).map (fun p => p.1)

/-- A node that is due submitted as soon as its NPRED is read and the queue has room: it counts as a host entry (R101,
R105, log 103). -/
def State.tryNode (s : State) (n j : Nat) : State :=
  match s.replays.find? (fun r => r.num == n) with
  | none => s
  | some r =>
    let count := (lookup r.counts j).getD 0
    let go (s : State) : State :=
      if s.hostRoom r.fn then
        (s.upReplay n (fun r => { r with submitted := insertNum r.submitted j })).submitNode r j
      else s
    if (lookup r.waits j).isSome then s
    else
      match lookup r.npreds j with
      | some k => if k = count then go s else s
      | none =>
        match s.readNpred r j with
        | .bad l => go (s.marked l)
        | .miss m =>
          match s.unitRequest m (nodeMiss n j) with
          | (some e, s) => s.upReplay n (fun r => { r with waits := insertKey r.waits j e })
          | (none, s) => s
        | .ok b =>
          let k := field b 0 1
          let s := s.upReplay n (fun r => { r with npreds := insertKey r.npreds j k })
          if k = count then go s else s

/-- A successor told that a predecessor ended with OK (R105). -/
def State.predDone (s : State) (n j : Nat) : State :=
  (s.upReplay n (fun r => { r with counts := insertKey r.counts j ((lookup r.counts j).getD 0 + 1) })).tryNode n j

/-- The replay's end: after the record of its last node in flight, one further record (R105, R476). -/
def State.replayEnd (s : State) (n : Nat) : State :=
  match s.replays.find? (fun r => r.num == n) with
  | none => s
  | some r =>
    if s.work.finishing.all (fun x => x.1.replay.all (fun y => y.1 != n)) && r.submitted.all (fun j => r.done.contains j) && r.due.isEmpty then
      let (st, node) := r.status.getD (0, 0xFFFF)
      let s := { s with replays := s.replays.filter (fun x => x.num != n) }
      s.complete r.fn (recordBytes r.root.ctag st false true node 0 0 0 r.depth)
    else s

/-- Every node that is due tried again; a replay in which none is left to come ends (R105). -/
def State.tryNodes (s : State) : State :=
  let t := (s.replays.flatMap (fun r => r.due.map (fun j => (r.num, j)))).foldl (fun s p => s.tryNode p.1 p.2) s
  (t.replays.map (fun r => r.num)).foldl State.replayEnd t

/-- A node of a replay has completed (R105): its successors are told, or its status ends the replay. The spec says
nothing of several that fail: the first to complete gives the status, and nodes that do not follow on a failed one
still run (log 103). -/
def State.nodeDone (s : State) (l : Launch) : State :=
  match l.replay with
  | none => s
  | some (n, j) =>
    let st := l.ending.1
    let s := s.upReplay n (fun r => { r with
      done := insertNum r.done j
      status := if st ≠ 0 ∧ r.status.isNone then some (st, j) else r.status })
    if st = 0 then (l.hdr.succ.filter (fun x => x != 0xFFFF)).foldl (fun s x => s.predDone n x) s else s

/-- Step 2 of R478 is not over: a successor that is due is not submitted (R105). -/
def State.successorsWait (s : State) (l : Launch) : Bool :=
  match l.replay.bind (fun x => s.replays.find? (fun r => r.num == x.1)) with
  | some r => l.ending.1 == 0 && l.hdr.succ.any (fun x => r.due.contains x)
  | none => false

/-- A launch whose record is to be written later, once what it waits for has come. -/
def State.closeLater (s : State) (l : Launch) (w : Closing) : State :=
  { s with work := { s.work with finishing := s.work.finishing ++ [(l, w)] } }

/-- Step 4 of R478: the ring's record; a node's replay may end with it. -/
def State.ringRecord (s : State) (l : Launch) : State :=
  let s := s.complete l.fn l.record
  match l.replay with
  | some (n, _) => s.replayEnd n
  | none => s

/-- Steps 3 and 4 of R478, once step 2 is over: the header record, which may wait for its page, or in another package
for its acknowledgement, and then the ring's. -/
def State.closeLaunch (s : State) (l : Launch) : State :=
  if s.successorsWait l then s.closeLater l .due
  else
    match s.headerRecord l with
    | .ok (s, none) => s.ringRecord l
    | .ok (s, some id) => s.closeLater l (.ack id)
    | .error m =>
      let (e, s) := s.unitRequest m (recordMiss l.num)
      s.closeLater l (e.elim .due .page)

/-- Launch completion (R478), in its order. -/
def State.finishLaunch (s : State) (l : Launch) : State :=
  let s := s.freeLaunch (fun n => n == l.num)
  let s := { s with work := { s.work with launches := s.work.launches.filter (fun x => x.num != l.num) } }
  (s.nodeDone l).closeLaunch l

/-- A launch that has ended goes on with its records, if what it waits for has come (R478). -/
def State.closeOne (s : State) (x : Launch × Closing) : State :=
  let t : State := { s with work := { s.work with finishing := s.work.finishing.filter (fun y => y != x) } }
  match x.2 with
  | .due => t.closeLaunch x.1
  | .page _ => s
  | .ack id => if s.links.reqs.any (fun r => r.id == id) then s else t.ringRecord x.1

/-- The launches that wait for nothing any more closed (R478). -/
def State.closeWaiting (s : State) : State := s.work.finishing.foldl State.closeOne s

/-- LAUNCH_COMPLETE (R475, R478): a launch whose strands have all ended; what waited for a page goes on first. -/
def execLaunchComplete (l : Nat) (s : State) : Outcome :=
  .next (let s := s.closeWaiting
    match s.launch? l with
    | some x => if x.state = .ending then s.finishLaunch x else s
    | none => s)

/-- Records of a completion ring (R477). -/
def Fn.cqRecords (f : Fn) : Nat := 2 ^ (f.cqSize.toNat + 6)

/-- Records the ring holds (R477). -/
def Fn.cqHeld (f : Fn) : Nat := (f.cqTail.toNat + 2 * f.cqRecords - f.cqHead.toNat) % (2 * f.cqRecords)

/-- COMPLETION_RECORD_WRITE (R477): only while the function is in RUN and the ring has room. -/
def State.writeRecord (s : State) (f : Nat) : State :=
  let n := s.fn f
  match n.waiting with
  | [] => s
  | r :: l =>
    if n.tdisp ≠ .run ∨ n.cqRecords ≤ n.cqHeld ∨ 10 < n.cqSize.toNat then s
    else
      let t := n.cqTail.toNat
      let v := !bit t (n.cqSize.toNat + 6)
      let a := n.cqBase.toNat * 4096 + t % n.cqRecords * 32
      let bs := stampRecord r s.cycle.toNat v
      let s := { s with host := { s.host with hostMem := memWrite s.host.hostMem a bs } }
      let s := s.upFn f (fun n => { n with
        waiting := l
        cqTail := BitVec.ofNat 17 ((t + 1) % (2 * n.cqRecords)) })
      (s.raise f 0).recordsLeft f (n.endLeft - 1)

/-- COMPLETION_RECORD_WRITE (R477). -/
def execCompletionRecordWrite (f : Nat) (s : State) : Outcome := .next (s.writeRecord f)

/-! ## Submission (R99 to R101) -/

/-- A slot of the launch window as an entry of the queue (R99, R100); a KIND 1 slot whose NODES is 0 or above 4096 is
refused as one of another KIND is (log 103). -/
def State.queuedOf (s : State) (slot : List Byte) : Queued × State :=
  let kind := field slot 2 1
  let bad := decide (1 < kind) || field slot 3 1 != 0 || field slot 18 14 != 0 || (kind == 0 && field slot 16 2 != 0) ||
    (kind == 1 && (field slot 16 2 == 0 || decide (4096 < field slot 16 2)))
  let q : Queued := {
    ctx := field slot 0 2, kind := kind, hentry := field slot 4 4, hoff := field slot 8 8, nodes := field slot 16 2,
    prio := 0, depth := 0, device := false, enteredAt := s.stepNo, bad := bad, replay := none, view := none,
    waitsFor := none, refused := false, gen := 0, held := none,
    seen := none, root := none }
  let (p, s) := s.readPrio (if bad then none else s.headerPlace q q.hoff)
  ({ q with prio := p }, s)

/-- Submitted slots copied into the queue while it has room, HEAD advanced past each; only in RUN (R99 to R101). A
slot refused at the copy completes at once with HDR_INVALID; its record gives DETAIL 2, as a header that step 2 of R97
refuses does, and REPLAY 0 whatever its KIND (log 103). -/
def State.copySlots (f : Nat) : Nat → State → State
  | 0, s => s
  | k + 1, s =>
    match (s.fn f).submitted with
    | [] => s
    | x :: l =>
      if (s.fn f).tdisp ≠ .run ∨ s.hostRoom f = false then s
      else
        let (e, s) := s.queuedOf x
        let s := s.upFn f (fun n => { n with lqHead := n.lqHead + 1, submitted := l })
        let s := if e.bad then s.complete f (recordBytes 0 0x40 false false 0xFFFF 2 0 0 0)
          else { s with work := { s.work with
            queues := insertKey s.work.queues f ((lookup s.work.queues f).getD [] ++ [e]) } }
        State.copySlots f k s

/-- The slots from HEAD up to a new TAIL (R100): those submitted before as they stood, the rest as they stand. -/
def Fn.submit (n : Fn) (t : BitVec 7) : List (List Byte) :=
  let k := n.submitted.length
  let new := (List.range ((t - n.lqHead).toNat - k)).map (fun i =>
    fixLen 32 (n.slots.drop (32 * ((n.lqHead.toNat + k + i) % 64))))
  n.submitted.take (t - n.lqHead).toNat ++ new

/-- A write of LQPTR.TAIL (R99, R100): outside RUN, or with more than 64 slots submitted, it is ignored and
sets REFUSED; one that leaves TAIL as it is submits nothing. The slots are read as they stand then (log 94). -/
def State.launchSubmit (s : State) (f tail : Nat) : State :=
  let n := s.fn f
  let t := BitVec.ofNat 7 tail
  if t = n.lqTail then s
  else if n.tdisp ≠ .run ∨ 64 < (t - n.lqHead).toNat then s.upFn f (fun n => { n with lqRefused := true })
  else State.copySlots f 64 (s.upFn f (fun n => { n with lqTail := t, submitted := n.submit t }))

/-- LAUNCH_SUBMIT (R99, R100): the physical function has no launch window. -/
def execLaunchSubmit (f : Nat) (tail : Nat) (s : State) : Outcome :=
  .next (if f ≠ physFn ∧ s.mailOpen f = true then s.launchSubmit f tail else s)

/-! ## Taking a launch (R104, R98) -/

/-- The functions whose launches a partition may take: within budget, no record waiting for room, not being
evicted (R104, R429, R477). -/
def State.takeFns (s : State) (p : Nat) : List Nat :=
  (List.range 32).filter (fun f => bit (s.partField p 24 4) f && s.within_ f && (s.fn f).waiting.isEmpty &&
    (s.fn f).evict == 0)

/-- A queued entry with its function, its place in the queue and its effective priority. -/
structure Cand where
  fn : Nat
  ix : Nat
  prio : Nat
  q : Queued
deriving DecidableEq, Repr

/-- One candidate goes before another (R104). -/
def Cand.before (a b : Cand) : Bool := decide (b.prio < a.prio) || (a.prio == b.prio && decide (a.q.enteredAt < b.q.enteredAt))

/-- A candidate put into its place. -/
def insertCand (c : Cand) : List Cand → List Cand
  | [] => [c]
  | d :: l => if c.before d then c :: d :: l else d :: insertCand c l

/-- Every queued entry of the partition's functions, in the order of R104; of two functions' with equal priority and
entry time, the lower-numbered function's first (log 103). -/
def State.candidates (s : State) (p : Nat) : List Cand :=
  let all := (s.takeFns p).flatMap (fun f =>
    let q := (lookup s.work.queues f).getD []
    (q.zip (List.range q.length)).map (fun x => ⟨f, x.2, s.effPrio f x.1.prio x.1.enteredAt, x.1⟩))
  all.foldl (fun l c => insertCand c l) []

/-- A candidate taken out of its queue. -/
def State.unqueue (s : State) (c : Cand) : State :=
  { s with work := { s.work with
      queues := insertKey s.work.queues c.fn (((lookup s.work.queues c.fn).getD []).eraseIdx c.ix) } }

/-- A candidate changed in its queue. -/
def State.requeue (s : State) (c : Cand) (q : Queued) : State :=
  { s with work := { s.work with
      queues := insertKey s.work.queues c.fn (((lookup s.work.queues c.fn).getD []).set c.ix q) } }

/-- Free bytes of a cluster's pool by first fit: the offset of a free range of `len` among taken ranges. -/
def firstFit (taken : List (Nat × Nat)) (len top : Nat) : Option Nat :=
  let starts := 0 :: taken.map (fun t => t.1 + t.2)
  let ok (a : Nat) : Bool := decide (a + len ≤ top) && taken.all (fun t => decide (a + len ≤ t.1) || decide (t.1 + t.2 ≤ a))
  (starts.filter ok).head?

/-- Where a cluster has room for a CP share (R112). -/
def State.cpRoom (s : State) (cl len : Nat) : Option Nat :=
  firstFit ((s.work.cps.filter (fun h => h.cluster == cl)).map (fun h => (h.off, h.len))) len (2 ^ 24)

/-- LM shares a core holds (R112). -/
def State.sharesOn (s : State) (c : Nat) : List Share := s.work.shares.filter (fun h => h.core == c)

/-- Bytes of local memory of a core (R290). -/
def lmSize : Nat := 1536 * 1024

/-- Room for an LM share on a core: at most 8 at once (R112). -/
def State.lmRoom (s : State) (c len : Nat) : Option Nat :=
  if 8 ≤ (s.sharesOn c).length then none
  else firstFit ((s.sharesOn c).map (fun h => (h.off, h.len))) len lmSize

/-- The core of each strand of a gang (R400): its groups over the clusters that have room for one in increasing
number, its strands over the unfenced cores of their cluster. -/
def State.gangCores (s : State) (p : Nat) (h : Header) : List (Nat × Nat) :=
  let cls := s.gangClusters p h.perCluster
  (List.range h.strands).filterMap (fun n =>
    match cls[n / max 1 h.perCluster]? with
    | none => none
    | some cl =>
      let cores := ((List.range 4).map (fun i => cl * 4 + i)).filter (fun c => !s.part.iFence.getLsbD c)
      match cores[n % max 1 h.perCluster]? with
      | some c => some (n, c)
      | none => none)

/-- Cluster groups bound to a cluster (R112). -/
def State.boundGroups (s : State) (cl : Nat) : Nat := (s.work.cps.filter (fun h => h.cluster == cl)).length

/-- The cluster the next cluster group of a launch goes to (R113). -/
def State.chooseCluster (s : State) (p len : Nat) : Option Nat :=
  match (s.partClusters p).filter (fun c => (s.cpRoom c len).isSome && decide (s.boundGroups c < 16)) with
  | [] => none
  | c :: l => some (l.foldl (fun b x => if s.boundGroups x < s.boundGroups b then x else b) c)

/-- A launch unit's refusal of a queued entry (R97): its record, the node's status of a replay. -/
def State.refuse (s : State) (q : Queued) (f status step : Nat) (h : Option Header) : State :=
  let h := h.getD { Header.read [] with node := 0xFFFF, succ := [] }
  let h := { h with succ := [] }
  s.finishLaunch {
    num := 0, ctx := q.ctx, fn := f, part := 0, hdr := h, prio := q.prio, depth := q.depth, enteredAt := q.enteredAt,
    admitted := [], code := ⟨0, 0, 0, 0, 0⟩, state := .ending, bound := [], coreBound := [], groupLeft := [],
    coreLeft := [], reserved := [], generated := 0, live := 0, arrived := [], exited := [], spawned := [], plan := [], planDone := [],
    status := some (status, step, 0), bad := none, exits := 0, device := q.device,
    hdrView := q.view, replay := q.replay, readyAt := s.stepNo, evicted := false,
    arrivedAt := 0, stepAt := 0, overruns := 0, planPage := none }

/-- The root's header of a replay (R105): the handle live with RD, all headers within its LENGTH, and the header of
node 0 read; one read before, as the parameter block waited for a page, stands. -/
def State.rootHeader (s : State) (q : Queued) : Except NoAdmit Header :=
  let no (l : Option Nat) : Except NoAdmit Header := .error (.refuse 0x41 1 none l)
  match q.root, (s.ctx? q.ctx).bind (fun c => (s.liveRec c q.hentry).map (fun r => (c, r))), s.headerPlace q q.hoff with
  | some h, _, _ => .ok h
  | none, some (c, r), some (_, kind, ta) =>
    if r.length < q.hoff + 256 * q.nodes ∨ q.refused = true then no none
    else
      match s.devRead c ta kind 256 with
      | .bad l => no l
      | .miss m => .error (.wait m)
      | .ok raw => .ok (Header.read raw)
  | none, _, _ => no none

/-- An entry of a replay's parameter block (R105), through the handle that GPARIX names. -/
def State.blockEntry (s : State) (c : Ctx) (h : Header) (b : HRec) (j : Nat) : DevRead :=
  if b.length < h.gparOff + 64 * (j + 1) ∨ b.kind < 2 ∨ b.local_ = false ∨ b.rights.getLsbD 0 = false ∨
      h.gparOff % 64 ≠ 0 then .bad none
  else s.devRead c (b.base + h.gparOff + 64 * j) b.kind 64

/-- A replay starts (R105): the parameter block of its root copied. A block that cannot be found or read, or whose
page is refused, ends it here with step 7's status (log 103). -/
def State.startReplay (s : State) (f : Nat) (q : Queued) (h : Header) : Except NoAdmit Replay :=
  let no (l : Option Nat) : Except NoAdmit Replay := .error (.refuse 0x48 7 (some h) l)
  match s.ctx? q.ctx with
  | none => .error (.refuse 0x41 1 none none)
  | some c =>
    match if h.gparIx < h.hlCount then s.liveRec c (h.hlStart + h.gparIx) else none with
    | none => no none
    | some b =>
      let es := (List.range q.nodes).map (s.blockEntry c h b)
      match es.find? (fun e => match e with | .miss _ => true | _ => false), es.find? DevRead.isBad with
      | some (.miss m), _ => if q.root.isSome ∧ q.refused = true then no none else .error (.wait m)
      | _, some (.bad l) => no l
      | _, _ =>
        let ps := es.map (fun e => match e with | .ok bs => bs | _ => [])
        .ok ⟨s.work.nextLaunch, f, q.ctx, q.hentry, q.hoff, q.nodes, h, ps, [], [0], none, 0, [], [], [], []⟩

/-- Replays of the same graph in flight (R106). -/
def State.replaysOf (s : State) (q : Queued) : Nat :=
  (s.replays.filter (fun r => r.ctx == q.ctx && r.hentry == q.hentry && r.hoff == q.hoff)).length

/-- A queued entry waits for the page a read of it missed (R97); it keeps its place, and what was read of it, while no
request can be opened for it. -/
def State.waitForPage (s : State) (c : Cand) (m : Miss) : Option State :=
  match s.unitRequest m (entryMiss c.fn c.q.enteredAt) with
  | (some e, s) => some (s.requeue c { c.q with waitsFor := some e, refused := false })
  | (none, t) =>
    if ((lookup s.work.queues c.fn).getD [])[c.ix]? = some c.q ∧ t.xl.misses = s.xl.misses ∧ t.sweep.stalls = s.sweep.stalls
    then none else some (t.requeue c c.q)

/-- The partition has the LM and CP that a launch needs to start (R98): a cluster for its first group and a core of it
with room for a strand's share; for a gang, every core and every cluster it takes. -/
def State.hasRoom (s : State) (p : Nat) (h : Header) : Bool :=
  let core (c : Nat) : Bool := (s.lmRoom c h.lmBytes).isSome
  let cluster (c : Nat) : Bool := (s.cpRoom c h.cpBytes).isSome && decide (s.boundGroups c < 16)
  if h.mode = 0 then
    (s.partClusters p).any (fun c => cluster c && (s.partCores p).any (fun k => clusterOf k == c && core k))
  else ((s.gangCores p h).map (fun x => x.2)).all (fun k => core k && cluster (clusterOf k))

/-- A launch admitted and taken now: numbered, and READY from now on. -/
def State.take (s : State) (p : Nat) (c : Cand) (l : Launch) : State :=
  let s := s.unqueue c
  let l := { l with num := s.work.nextLaunch, part := p, readyAt := s.stepNo }
  { s with work := { s.work with launches := s.work.launches ++ [l], nextLaunch := s.work.nextLaunch + 1 } }

/-- A launch that has passed every check taken, or kept as it was admitted until there is room (R98). -/
def State.takeOrHold (s : State) (p : Nat) (c : Cand) (l : Launch) : Option State :=
  if s.hasRoom p l.hdr then some (s.take p c l)
  else if c.q.held.isSome then none
  else some (s.requeue c { c.q with held := some l })

/-- A graph replay considered (R105, R106). -/
def State.takeReplay (s : State) (c : Cand) : Option State :=
  let no (st step : Nat) (h : Option Header) (l : Option Nat) : Option State :=
    let tag := match h with
      | some h => h.ctag
      | none => 0
    some (((s.unqueue c).marked l).complete c.fn (recordBytes tag st false true 0xFFFF step 0 0 0))
  match s.rootHeader c.q with
  | .error (.wait m) => s.waitForPage c m
  | .error (.refuse st step h l) => no st step h l
  | .ok h =>
    match s.startReplay c.fn c.q h with
    | .error (.wait m) => s.waitForPage { c with q := { c.q with root := some h } } m
    | .error (.refuse st step h l) => no st step h l
    | .ok r =>
      let s := s.unqueue c
      let s := { s with replays := s.replays ++ [r], work := { s.work with nextLaunch := s.work.nextLaunch + 1 } }
      some (s.submitNode r 0)

/-- A launch considered (R97, R98): its checks go on where they stood. -/
def State.takeLaunch (s : State) (p : Nat) (c : Cand) : Option State :=
  match c.q.held with
  | some l => s.takeOrHold p c l
  | none =>
    let go (r : Except NoAdmit Launch) (seen : Option Launch) : Option State :=
      match r with
      | .error (.wait m) => s.waitForPage { c with q := { c.q with seen := seen } } m
      | .error (.refuse st step h l) => some (((s.unqueue c).marked l).refuse c.q c.fn st step h)
      | .ok l => s.takeOrHold p c l
    match c.q.seen with
    | some l => go (s.admitRest p c.q l []) (some l)
    | none =>
      match s.admitHeader p c.q with
      | .error e => go (.error e) none
      | .ok (l, raw) => go (s.admitRest p c.q l raw) (some l)

/-- One candidate considered: none when nothing can be done with it now and it keeps its place (R97, R98, R106). -/
def State.takeOne (s : State) (p : Nat) (c : Cand) : Option State :=
  if c.q.waitsFor.isSome then none
  else if c.q.kind = 1 then (if 2 ≤ s.replaysOf c.q then none else s.takeReplay c)
  else s.takeLaunch p c

/-- A candidate that cannot be acted on keeps back the later ones of its function and effective priority (R97, R98); a
third replay of a graph only waits (R106). -/
def State.holdsBack (s : State) (c : Cand) : Bool := !(c.q.kind == 1 && decide (2 ≤ s.replaysOf c.q))

/-- The first candidate that can be acted on, none passed by a later one of its function and effective priority
(R98). -/
def State.takeFrom (s : State) (p : Nat) (blocked : List (Nat × Nat)) : List Cand → State
  | [] => s
  | c :: l =>
    if blocked.contains (c.fn, c.prio) then s.takeFrom p blocked l
    else
      match s.takeOne p c with
      | some t => t
      | none => s.takeFrom p (if s.holdsBack c then (c.fn, c.prio) :: blocked else blocked) l

/-- Slots that a full queue held back copied, and nodes of replays that are due submitted (R101, R105). -/
def State.fillQueues (s : State) (p : Nat) : State :=
  ((List.range 32).filter (fun f => bit (s.partField p 24 4) f)).foldl (fun s f => State.copySlots f 64 s) s.tryNodes.closeWaiting

/-- LAUNCH_TAKE (R104). -/
def execLaunchTake (p : Nat) (s : State) : Outcome :=
  .next (if bit (s.partField p 28 1) 0 then
      let s := s.fillQueues p
      (s.takeFrom p [] (s.candidates p)).fillQueues p
    else s)

end Sys2Proof.Machine
end

