-- ==== Sys2Proof/Machine/Placement.lean ====
section
/-! DEFINITION. Placement: groups and strands, dispatch, gangs, budgets and slices, steals, supersteps, and
pre-emption (06, 20 R425 to R431). -/

namespace Sys2Proof.Machine

/-! ## Cluster groups and generation (R112, R113) -/

/-- A CP share allocated and zeroed for a cluster group (R112). -/
def State.bindGroup (s : State) (l : Launch) (g cl : Nat) : State :=
  match s.cpRoom cl l.hdr.cpBytes with
  | none => s
  | some off =>
    let s := { s with
      mem := s.mem.wipe (cpPlace cl off) l.hdr.cpBytes
      work := { s.work with cps := s.work.cps ++ [(⟨cl, off, l.hdr.cpBytes, l.num, g⟩ : CpShare)] } }
    s.upLaunch l.num (fun l => { l with
      bound := l.bound ++ [(g, cl)]
      groupLeft := insertKey l.groupLeft g l.hdr.perCluster })

/-- CLUSTER_GROUP_BIND (R113): the next cluster group in WORKID order goes to the chosen cluster; with none
generation pauses. -/
def execClusterGroupBind (l : Nat) (s : State) : Outcome :=
  .next (match s.launch? l with
    | none => s
    | some x =>
      if x.state ≠ .running ∨ x.evicted = true ∨ x.hdr.mode ≠ 0 ∨ x.hdr.groups ≤ x.bound.length then s
      else
        match s.chooseCluster x.part x.hdr.cpBytes with
        | some cl => s.bindGroup x x.bound.length cl
        | none => s)

/-- The record of a generated strand (R115). -/
def Launch.firstRec (l : Launch) (strand n cl now : Nat) : Rec where
  strand := strand
  launch := l.num
  group := n / max 1 l.hdr.perCluster
  coreGroup := some (n / max 1 l.hdr.perCore)
  cluster := cl
  first := true
  pc := BitVec.ofNat 48 l.hdr.entry
  flags := 0
  state := .ready
  workid := l.hdr.workidAt n
  s1 := l.hdr.args.getD 0 0
  s2 := l.hdr.args.getD 1 0
  s3 := l.hdr.args.getD 2 0
  s4 := l.hdr.args.getD 3 0
  lc0 := 0
  qs := 0
  rot := 0
  rseq := 0
  scope := 0
  y := false
  core := none
  readyAt := now
  save := none

/-- A strand of a launch counted as live, its core group entered (R112). -/
def Launch.born (l : Launch) (n : Nat) : Launch :=
  let cg := n / max 1 l.hdr.perCore
  { l with
    generated := n + 1
    live := l.live + 1
    coreLeft := if (lookup l.coreLeft cg).isNone then insertKey l.coreLeft cg l.hdr.perCore else l.coreLeft }

/-- STRAND_GENERATE (R113): while the pool of its group's cluster holds fewer than 256 records. -/
def execStrandGenerate (l : Nat) (s : State) : Outcome :=
  .next (match s.launch? l with
    | none => s
    | some x =>
      let n := x.generated
      if x.state ≠ .running ∨ x.hdr.mode ≠ 0 ∨ x.hdr.strands ≤ n then s
      else
        match lookup x.bound (n / max 1 x.hdr.perCluster) with
        | none => s
        | some cl =>
          if 256 ≤ s.poolCount cl then s
          else
            let r := x.firstRec s.work.nextStrand n cl s.stepNo
            let s := { s with work := { s.work with
              pool := s.work.pool ++ [r]
              nextStrand := s.work.nextStrand + 1 } }
            s.upLaunch l (fun x => x.born n))

/-! ## The save area (R427, R430, R431) -/

/-- The places of a range of a context's save area, a page of 64 KiB at most at a time; none where an access misses
translation, is refused or lies beyond CAPACITY (R431). -/
def State.areaPieces (s : State) (c : Ctx) (need : PageNeed) : Nat → Nat → Nat → Option (List (Nat × Nat))
  | 0, _, n => if n = 0 then some [] else none
  | k + 1, ta, n =>
    if n = 0 then some []
    else
      let m := min n (65536 - ta % 65536)
      match s.walk c.tenant ta 3 with
      | .miss _ => none
      | .at f z r _ =>
        if (pageFault s.xl.capacity 3 f z ta r need).isSome then none
        else (s.areaPieces c need k (ta + m) (n - m)).map (fun l => (pagePlace f z ta, m) :: l)

/-- The places of `n` bytes of a save area. -/
def State.areaPlaces (s : State) (c : Ctx) (need : PageNeed) (ta n : Nat) : Option (List (Nat × Nat)) :=
  s.areaPieces c need (n / 65536 + 2) ta n

/-- Byte `i` onwards of save `no` written to the given places. -/
def State.areaWrite (c : Ctx) (no : Nat) : Nat → List (Nat × Nat) → State → Option State
  | _, [], s => some s
  | i, (a, m) :: l, s =>
    match s.ordWrite (s.keyFor c) a ((List.range m).map (fun k => Config.saveByte no (i + k))) 0 with
    | .error _ => none
    | .ok s => State.areaWrite c no (i + m) l s

/-- A save of `n` bytes written to a range of the save area, its completion mark last; its number and the state after,
or none where it fails (R431). -/
def State.saveOut (s : State) (c : Ctx) (ta n : Nat) : Option (Nat × State) :=
  match s.areaPlaces c 2 ta n with
  | none => none
  | some l => (State.areaWrite c s.drawn 0 l { s with drawn := s.drawn + 1 }).map (fun t => (s.drawn, t))

/-- The bytes of the completion mark: the last eight of its save. -/
def saveMark (no n : Nat) : List Byte := (List.range 8).map (fun k => Config.saveByte no (n - 8 + k))

/-- The addresses at which the pieces of a range of the save area start. -/
def areaTas (ta n : Nat) : List Nat := if n = 0 then [] else ta :: (List.range ((ta + n - 1) / 65536 - ta / 65536)).map (fun i => (ta / 65536 + 1 + i) * 65536)

/-- A walk of a range of the save area that met a poisoned line is logged (R444). -/
def State.logArea (s : State) (c : Ctx) (ta n : Nat) : State := s.logWalks c.tenant 3 (areaTas ta n)

/-- What the accesses to a range of the save area wait for, each line of it (R16, R442) and where they write, of a line
that has to be scrubbed first (R455). -/
def State.areaWaits (s : State) (c : Ctx) (write : Bool) (ta n : Nat) : List Stall :=
  if (areaTas ta n).any (fun a => s.walk c.tenant a 3 == .miss 8) then [.walk]
  else ((s.areaPlaces c 0 ta n).getD []).flatMap (fun p => (linesOf p.1 p.2).filterMap (fun l =>
    if write then s.writeWaits (l * 64) 64 else (s.transit? (l * 64) 64).map .transit))

/-- Such waits noted, each request by its own (R455, R458). -/
def State.noteArea (s : State) (core : Nat) (l : List Stall) : State := l.foldl (fun s w => s.noteHeld core (2 ^ 32) w) s

/-- A range of the save area can be read and holds the completion mark of a save (R431). -/
def State.marked_ (s : State) (c : Ctx) (no ta n : Nat) : Bool :=
  (s.areaWaits c false ta n).isEmpty &&
  match s.areaPlaces c 0 (ta + n - 8) 8 with
  | some [(a, _)] => memRead s.mem.cells a 8 == saveMark no n
  | _ => false

/-- The first line of a range of the save area whose read consumes poison (R431). -/
def State.areaBad (s : State) (c : Ctx) (ta n : Nat) : Option Nat :=
  ((s.areaPlaces c 0 ta n).getD []).findSome? (fun p => (linesOf p.1 p.2).find? (s.bad (s.keyFor c)))

/-- The bytes of a strand slot (R427). -/
def slotBytes : Nat := 2 ^ 17

/-- The tenant address of a tenant's save area (R430). -/
def State.areaBase (s : State) (t : Nat) : Nat :=
  match lookup s.host.save t with
  | some a => bits a.base.toNat 47 21 * 2 ^ 21
  | none => 0

/-- The address of part `k` of a save area: the 2.5 MiB that belong to a core (R430). -/
def State.corePart (s : State) (t k : Nat) : Nat := s.areaBase t + k * (5 * 2 ^ 19)

/-- The first strand slot of a tenant's save area that holds no save (R427). -/
def State.freeSlot (s : State) (t p : Nat) : Option Nat :=
  ((List.range (s.partCores p).length).flatMap (fun k => (List.range 8).map (fun i => s.corePart t k + i * slotBytes))).find?
    (fun a => s.work.pool.all (fun r => r.save.isNone || r.slot != a ||
      !(r.save.any (fun k => k.runs (fun j => j.tenant == t)))))

/-! ## Starting a strand (R116, R428) -/

/-- The CP share of a cluster group. -/
def State.cpShare (s : State) (launch group : Nat) : Option CpShare :=
  s.work.cps.find? (fun h => h.launch == launch && h.group == group)

/-- The job of a strand on a core, with the LM share at `lm`; under .any its CP handle has LENGTH 0. -/
def State.jobOf (s : State) (l : Launch) (r : Rec) (lm : Nat) (tenant : Nat) : Job :=
  let cp := s.cpShare l.num r.group
  { launch := l.num, strand := r.strand, ctx := l.ctx, fn := l.fn, tenant := tenant, workid := r.workid,
    ncores := l.hdr.boundCores, rank := Config.ownRank.toNat, mode := l.hdr.mode,
    lim := ⟨l.hdr.vregs, l.hdr.kregs, l.hdr.rots, l.hdr.rotv, l.hdr.rotk⟩, rsb := l.hdr.rsb, code := l.code,
    hlStart := l.hdr.hlStart, admitted := l.admitted, lmBase := lm, lmBytes := l.hdr.lmBytes,
    cpCluster := match cp with
      | some h => h.cluster
      | none => r.cluster
    cpBase := match cp with
      | some h => h.off
      | none => 0
    cpBytes := if r.scope = 2 then 0 else l.hdr.cpBytes
    group := r.group, coreGroup := r.coreGroup, tables := l.hdr.tables, readyAt := r.readyAt }

/-- A rotation base as it stands in a region of `n` registers (R169). -/
def rotIn (n base : Nat) : Nat := if n = 0 then 0 else base % n

/-- The registers a strand starts or resumes with (R115, R116). -/
def Regs.ofRec (l : Limits) (r : Rec) : Regs :=
  { Regs.reset with
    s := (Regs.reset.s.set 1 r.s1).set 2 r.s2 |>.set 3 r.s3 |>.set 4 r.s4
    q := r.qs
    lc := [r.lc0, 0, 0, 0]
    lsp := [r.pipe0, false, false, false]
    rbs := rotIn l.rots r.rot.toNat
    rbv := rotIn l.rotv r.rot.toNat
    rbk := rotIn l.rotk r.rot.toNat
    h := .built :: .built :: List.replicate 14 .empty
    flags := BitVec.zeroExtend 64 r.flags }

/-- The step tables bound by the launch header (R251). -/
def TableRun.ofHeader (t : Nat × Nat) : TableRun := { TableRun.reset with base := t.1, entries := t.2 }

/-- A strand started on an idle core from its record (R116): its region starts, its substreams are seeded. -/
def Core.start (c : Core) (j : Job) (r : Rec) : Core :=
  let t := (List.range 4).map (fun i => TableRun.ofHeader (j.tables.getD i (0, 0)))
  let c := ({ c.idle with
    pc := r.pc, live := Regs.ofRec j.lim r, rseq := r.rseq, job := some j, tables := t, tablesCkpt := t,
    stopped := false } : Core).mark
  { c with
    sub := (List.range 5).map c.seed
    subSeq := List.replicate 5 r.rseq }

/-- A handle register as a restore leaves it (R84). -/
def HReg.restore (c : Option Ctx) (h : HReg) : HReg :=
  match h, c with
  | .valid e g, some c => if (c.entry e).gen = g then h else .revoked e g
  | h, _ => h

/-- A save restored on core `k` at a READY time (R428, R84, R172); the caches and the command logs are the core's
own. -/
def Core.restore (c k : Core) (x : Option Ctx) (readyAt : Nat) : Core :=
  let f (g : Regs) : Regs := { g with h := (g.h.take 2) ++ (g.h.drop 2).map (HReg.restore x) }
  { c with
    live := f c.live, ckpt := f c.ckpt, preempt := false, preemptReady := false, stall := .none,
    job := c.job.map (fun j => { j with readyAt := readyAt }), prod := max c.prod k.prod,
    hcache := [], icache := k.icache, cmdLog := k.cmdLog }

/-- A fresh zeroed share on a core (R112, R116): its offset and the state after. -/
def State.newShare (s : State) (c : Nat) (l : Launch) (cg alone : Option Nat) : Option (Nat × State) :=
  match s.lmRoom c l.hdr.lmBytes with
  | none => none
  | some off => some (off, { s with
      mem := s.mem.wipe (lmPlace c off) l.hdr.lmBytes
      work := { s.work with shares := s.work.shares ++ [⟨c, off, l.hdr.lmBytes, l.num, cg, alone⟩] } })

/-- The share a record finds bound on a core: its own alone, or its core group's. -/
def State.shareFor (s : State) (c : Nat) (r : Rec) : Option Share :=
  match s.work.shares.find? (fun h => h.core == c && h.launch == r.launch && h.alone == some r.strand) with
  | some h => some h
  | none => s.work.shares.find? (fun h => h.core == c && h.launch == r.launch && h.alone.isNone &&
      h.coreGroup.isSome && h.coreGroup == r.coreGroup)

/-- A record dispatched on an idle core (R112, R116 to R118): its share found or bound, its strand started, or
its save restored; poison in the slot of the save loses the context (R431). -/
def State.dispatch (s : State) (c : Nat) (r : Rec) : State :=
  match s.launch? r.launch with
  | none => s
  | some l =>
    match s.ctx? l.ctx with
    | none => s
    | some x =>
      let drop (s : State) : State :=
        { s with work := { s.work with pool := s.work.pool.filter (fun y => y.strand != r.strand) } }
      match r.save with
      | some k =>
        match s.areaBad x r.slot slotBytes with
        | some line => ((s.marked line).logRec .consumed (line * 64) c 0).loseContext x.num 9
        | none =>
          ((drop s).setCoreAt c (k.restore (s.coreAt c) (some x) r.readyAt)).on c (fun s => s.traceLoop 3 s.core.pc)
      | none =>
        let got : Option (Nat × State) :=
          if r.scope = 0 then
            match s.shareFor c r with
            | some h => some (h.off, s)
            | none => s.newShare c l r.coreGroup none
          else s.newShare c l none (some r.strand)
        match got with
        | none => s
        | some (off, s) =>
          let s := match r.coreGroup with
            | some g => s.upLaunch l.num (fun l => { l with coreBound :=
                if (lookup l.coreBound g).isNone then insertKey l.coreBound g c else l.coreBound })
            | none => s
          let j := s.jobOf l r off x.tenant
          let k := (s.coreAt c).start j r
          let t := (drop s).setCoreAt c k
          if r.first then t else t.on c (fun s => s.traceLoop 3 s.core.pc)

/-! ## Choosing a record (R118) -/

/-- A core waits for a gang that has reserved it (R114). -/
def State.reservedCore (s : State) (c : Nat) : Bool :=
  s.work.launches.any (fun l => (l.state == .reserving) && l.reserved.any (fun p => p.2 == c))

/-- Another strand of a record's core group holds a save: no other strand of the group is dispatched (R427). -/
def State.groupSaved (s : State) (r : Rec) : Bool :=
  r.coreGroup.isSome &&
    s.work.pool.any (fun y => y.strand != r.strand && y.launch == r.launch && y.coreGroup == r.coreGroup && y.save.isSome)

/-- A strand of a record's core group runs: the group's strands run one after another (R94). -/
def State.groupRuns (s : State) (r : Rec) : Bool :=
  r.coreGroup.isSome && (s.core :: s.parked.map (fun p => p.2)).any (fun k =>
    k.runs (fun j => j.launch == r.launch && j.coreGroup == r.coreGroup))

/-- A core that no fence bars to a launch: unfenced, or fenced while a strand of that launch occupied it (R108). -/
def State.unfenced (s : State) (c launch : Nat) : Bool :=
  !s.part.iFence.getLsbD c || s.part.deferred.contains (c, launch)

/-- A gang holds a core (R401). -/
def Launch.holds (l : Launch) (c : Nat) : Bool :=
  l.hdr.mode != 0 && l.state != .reserving && l.state != .done && l.reserved.any (fun p => p.2 == c)

/-- A gang launch other than `n` holds a core: no other strand runs on it until that launch ends or is
pre-empted as a whole (R401). -/
def State.heldCore (s : State) (c n : Nat) : Bool := s.work.launches.any (fun l => l.num != n && l.holds c)

/-- A gang is being pre-empted: a request has reached its running strands, or some of them are saved already. Its
strands run again together (R114). -/
def State.gangStops (s : State) (l : Launch) : Bool :=
  l.hdr.mode != 0 &&
    (s.gangHasSave l ||
      (s.core :: s.parked.map (fun p => p.2)).any (fun k => k.preempt && k.runs (fun j => j.launch == l.num)))

/-- The slot of a record's save carries its completion mark (R431). -/
def State.slotMarked (s : State) (l : Launch) (r : Rec) : Bool :=
  match s.ctx? l.ctx with
  | some c => s.marked_ c r.saveNo r.slot slotBytes
  | none => false

/-- Whether a gang's own strands leave a core to a strand of it (R114, R401). Each of those placed on its cores comes
back to its own, so that none waits for another; one that SPAWN made runs where none of them is to come back to, or
once the gang is pre-empted (log 55). -/
def State.gangAllows (s : State) (l : Launch) (c : Nat) (r : Rec) : Bool :=
  l.hdr.mode == 0 ||
    if l.isSpawned r then
      l.state == .reserving || (!s.gangStops l && s.work.pool.all (fun y => y.launch != l.num || l.isSpawned y || y.core != some c))
    else l.state != .reserving && !s.gangStops l && r.core == some c

/-- Whether a core may run a READY record, the cores that gangs hold or have reserved aside (R118, R94, R108, R114,
R427). The strands of a gang that was pre-empted are restored together only, but for those that SPAWN made. -/
def State.couldRun (s : State) (c : Nat) (r : Rec) : Bool :=
  r.state == .ready && s.unfenced c r.launch &&
    match s.launch? r.launch with
    | none => false
    | some l =>
      l.state != .ending && (l.state != .reserving || l.isSpawned r) && !l.evicted && s.within_ l.fn &&
        (s.fn l.fn).evict == 0 && s.gangAllows l c r &&
        match r.save with
        | some _ => r.core == some c && (l.hdr.mode == 0 || l.isSpawned r) && s.slotMarked l r
        | none =>
          !s.groupSaved r &&
            (if r.first then
              !s.groupRuns r &&
                match r.coreGroup.bind (lookup l.coreBound) with
                | some k => k == c
                | none => r.cluster == clusterOf c && (s.lmRoom c l.hdr.lmBytes).isSome
            else if r.scope = 0 then r.core == some c
            else (s.lmRoom c l.hdr.lmBytes).isSome &&
              (if r.scope = 1 then r.cluster == clusterOf c else (s.partClusters l.part).contains (clusterOf c)))

/-- Whether a core may run a READY record (R118, R401): on a core that a gang has reserved, only a strand of the gang
that still holds the core (R114). -/
def State.mayRun (s : State) (c : Nat) (r : Rec) : Bool :=
  !s.heldCore c r.launch && (!s.reservedCore c || (s.launch? r.launch).any (fun l => l.holds c)) && s.couldRun c r

/-- The effective priority of a record, from the time it became READY (R118). -/
def State.recPrio (s : State) (r : Rec) : Nat :=
  match s.launch? r.launch with
  | some l => s.effPrio l.fn l.prio r.readyAt
  | none => 0

/-- How far a cluster lies in the order of R118 from the cluster of a core: the rule orders the other dies, and within
one of them the model goes by cluster number (log 103). -/
def clusterDist (own cl : Nat) : Nat :=
  if own / 24 = cl / 24 then (cl + 24 - own) % 24 else 24 + (cl / 24 + 8 - own / 24) % 8 * 24 + cl % 24

/-- Whether record `a` goes before record `b` on a core (R118). -/
def State.recBefore (s : State) (c : Nat) (a b : Rec) : Bool :=
  let pa := s.recPrio a
  let pb := s.recPrio b
  decide (pb < pa) || (pa == pb && (decide (a.readyAt < b.readyAt) ||
    (a.readyAt == b.readyAt && decide (clusterDist (clusterOf c) a.cluster < clusterDist (clusterOf c) b.cluster))))

/-- The record an idle core takes (R118); of two that the order of R118 leaves equal, the earlier in the pool (log
103). -/
def State.chooseRec (s : State) (c : Nat) : Option Rec :=
  match s.work.pool.filter (s.mayRun c) with
  | [] => none
  | r :: l => some (l.foldl (fun b x => if s.recBefore c x b then x else b) r)

/-- A core free to take a strand. -/
def State.coreFree (s : State) (c : Nat) : Bool := decide (c < 768) && (s.coreAt c).job.isNone

/-- The restores that a core would make wait for the memory, and each of their reads is noted (R442, R458). -/
def State.noteRestores (s : State) (c : Nat) : State :=
  (s.work.pool.filter (fun r => r.save.isSome && r.core == some c && r.state == .ready)).foldl (fun s r =>
    match (s.launch? r.launch).bind (fun l => s.ctx? l.ctx) with
    | some x => s.noteArea c (s.areaWaits x false r.slot slotBytes)
    | none => s) s

/-- STRAND_DISPATCH (R118). -/
def execStrandDispatch (c : Nat) (s : State) : Outcome :=
  .next (if s.coreFree c then
      match s.chooseRec c with
      | some r => s.dispatch c r
      | none => s.noteRestores c
    else s)

/-! ## Gangs (R114) -/

/-- A gang whose function is within budget and not evicted competes for cores (R103, R114, R429). -/
def State.gangMay (s : State) (l : Launch) : Bool :=
  l.state == .reserving && !l.evicted && s.within_ l.fn && (s.fn l.fn).evict == 0

/-- A READY strand, or another pre-empted gang, stands before a gang that competes again (R114, R118). -/
def State.gangWaits (s : State) (l : Launch) : Bool :=
  let mine := s.effPrio l.fn l.prio l.readyAt
  let before (prio readyAt : Nat) : Bool := decide (mine < prio) || (mine == prio && decide (readyAt < l.readyAt))
  !l.bound.isEmpty &&
    (s.work.pool.any (fun r => (r.launch != l.num || l.isSpawned r) && (s.partCores l.part).any (fun c => s.mayRun c r) &&
        before (s.recPrio r) r.readyAt) ||
      s.work.launches.any (fun x => x.num != l.num && x.part == l.part && s.gangMay x && !x.bound.isEmpty &&
        before (s.effPrio x.fn x.prio x.readyAt) x.readyAt))

/-- The cores a gang takes: those its strands are bound to, or the choice of R400 (R114, R427). -/
def State.coresFor (s : State) (x : Launch) : List (Nat × Nat) :=
  if x.bound.isEmpty then s.gangCores x.part x.hdr else x.coreBound

/-- GANG_RESERVE (R114): every unfenced core of the partition is reserved for the launch, when no other gang reserves
one of them. -/
def execGangReserve (l : Nat) (s : State) : Outcome :=
  .next (match s.launch? l with
    | none => s
    | some x =>
      if s.gangMay x = false ∨ s.gangWaits x = true ∨
          (s.coresFor x).any (fun p => s.work.launches.any (fun y => y.num != l && y.state == .reserving &&
            y.reserved.any (fun q => q.2 == p.2))) = true then s
      else s.upLaunch l (fun x => { x with reserved := s.coresFor x }))

/-- The strands of a gang of a launch new to its cores (R114): groups bound, records made and dispatched. -/
def State.gangFirst (s : State) (x : Launch) : State :=
  let s := (List.range x.hdr.groups).foldl (fun s g =>
    match (s.gangClusters x.part x.hdr.perCluster)[g]? with
    | some cl => s.bindGroup x g cl
    | none => s) s
  x.reserved.foldl (fun s p =>
    let r := x.firstRec s.work.nextStrand p.1 (clusterOf p.2) s.stepNo
    let s := { s with work := { s.work with nextStrand := s.work.nextStrand + 1 } }
    (s.upLaunch x.num (fun y => { y.born p.1 with state := .running })).dispatch p.2 r) s

/-- The strands of a gang that was pre-empted restored together (R114). -/
def State.gangAgain (s : State) (x : Launch) : State :=
  let rs := s.work.pool.filter (fun r => r.launch == x.num && r.save.isSome && !x.isSpawned r)
  let s := s.upLaunch x.num (fun y => { y with state := .running })
  rs.foldl (fun s r =>
    match r.core with
    | some c => s.dispatch c r
    | none => s) s

/-- GANG_START (R114): the last reserved core is free, with room for the shares. -/
def execGangStart (l : Nat) (s : State) : Outcome :=
  .next (match s.launch? l with
    | none => s
    | some x =>
      let free := x.reserved.all (fun p => (s.coreAt p.2).job.isNone && !s.heldCore p.2 x.num)
      if s.gangMay x = false ∨ x.reserved.length ≠ x.hdr.strands ∨ free = false then s
      else if !x.bound.isEmpty then
        (if s.work.pool.all (fun r => r.launch != l || r.save.isNone || x.isSpawned r || s.slotMarked x r) then s.gangAgain x
          else x.reserved.foldl (fun s p => s.noteRestores p.2) s)
      else if x.reserved.all (fun p => (s.lmRoom p.2 x.hdr.lmBytes).isSome) &&
          x.reserved.all (fun p => (s.cpRoom (clusterOf p.2) x.hdr.cpBytes).isSome && decide (s.boundGroups (clusterOf p.2) < 16))
        then s.gangFirst x
      else s)

/-! ## Slices and budgets (R103, R117, R425) -/

/-- A pre-emption request reaches the strand of a core; of a gang launch, every strand of it, and where a gang holds
the core and none of its strands runs, it is pre-empted as a whole at once (R114, R425). -/
def State.requestPreempt (s : State) (c : Nat) : State :=
  match (s.coreAt c).job with
  | none => (s.work.launches.filter (fun l => l.holds c)).foldl (fun s l => s.gangSaved l.num) s
  | some j =>
    if j.mode = 0 then s.setCoreAt c { s.coreAt c with preempt := true }
    else s.onCores (fun k => if k.runs (fun x => x.launch == j.launch) then { k with preempt := true } else k)

/-- Whether a READY strand of the partition may run on a core at the end of a slice, once a gang that holds the core
is pre-empted (R114, R117). -/
def State.othersReady (s : State) (c : Nat) : Bool :=
  s.work.pool.any (s.couldRun c) || s.reservedCore c

/-- SLICE_END (R117). -/
def execSliceEnd (c : Nat) (s : State) : Outcome := .next (if s.othersReady c then s.requestPreempt c else s)

/-- The cores that run strands of a function. -/
def State.coresOf (s : State) (f : Nat) : List Nat :=
  (List.range 768).filter (fun c => (s.coreAt c).runs (fun j => j.fn == f))

/-- Every running strand of a function pre-empted, and its gangs that hold cores with none running (R103, R114,
R429). -/
def State.preemptFn (s : State) (f : Nat) : State :=
  (s.work.launches.filter (fun l => l.fn == f)).foldl (fun s l => s.gangSaved l.num)
    ((s.coresOf f).foldl (fun s c => s.requestPreempt c) s)

/-- BUDGET_EXHAUSTED (R103): at the moment the consumption reaches the budget. -/
def execBudgetExhausted (f : Nat) (s : State) : Outcome := .next (if s.within_ f then s else s.preemptFn f)

/-- BUDGET_PERIOD_START (R103). -/
def execBudgetPeriodStart (f : Nat) (s : State) : Outcome := .next (s.upFn f (fun n => { n with used := 0 }))

/-! ## Pre-emption (R425 to R428) -/

/-- A gather or scatter carried on to the end of the row it stands in, unless it comes to rest before (R329). -/
def State.toRow (s : State) (x : Cmd) : State :=
  let u := s.unitsOf .copy x
  (List.range x.rowLeft).foldl (fun s k =>
    match s.cmd? .copy x.prod with
    | some y => if y.cursor = x.cursor + k ∧ (s.runnable .copy).contains y = true then s.runUnit u.2 .copy y u.1 y.cursor else s
    | none => s) s

/-- The engines cut, each command at a cursor where it may be (R329), and the line buffer written back (R425, steps 3
and 4). -/
def State.cutHere (s : State) : State :=
  match (s.core.cq.foldl (fun s x => s.toRow x) s).dropLines (fun _ => true) 0 with
  | .ok s => s.upCore (fun c => { c with preemptReady := true })
  | .error (e, s) => s.stop e

/-- Step 2 of R425 on the acting core: a region boundary, but none where a page is awaited or the strand was rolled
back at the deadline (R426). A thief that waits is saved as one (R176). -/
def State.preemptPoint (s : State) : State :=
  match s.core.stall with
  | .page _ => s.cutHere
  | .pageFull => s.cutHere
  | .drain => s.cutHere
  | w =>
    match (s.upCore (fun c => { c with stall := .none })).boundary with
    | .ok s => (if w = .steal then s.upCore (fun c => { c with stall := w }) else s).cutHere
    | .error (e, s) => s.stop e

/-- The acting core's strand is to be pre-empted and the array stands where that stops it (R425, R426). A stopped
strand waits until it resumes (R460). -/
def State.preemptNow (s : State) : Bool :=
  s.core.arrayStops && !s.core.preemptReady && !s.core.stopped && s.core.job.isSome

/-- PREEMPT_POINT_REACHED (R425). -/
def execPreemptPointReached (c : Nat) (s : State) : Outcome :=
  .next (s.on c (fun s => if s.preemptNow then s.orHeld s.preemptPoint else s))

/-- The save area of a tenant is checked OK and covers the partition (R430, R431). -/
def State.saveAreaOk (s : State) (t p : Nat) : Bool :=
  match lookup s.host.save t with
  | none => false
  | some a =>
    a.state == 2 &&
      decide (5 * (s.partCores p).length * 2 ^ 19 + (s.partClusters p).length * 2 ^ 24 ≤ a.size.toNat * 2 ^ 21)

/-- A strand's save (R427): its record with scope .core, naming the core. Steal requests held here go on along their
route (R124). -/
def State.saveRec (s : State) (j : Job) : Rec :=
  let r := s.record j s.core.pc 0 false .ready
  { r with rseq := s.core.rseq, readyAt := s.stepNo, save := some { s.core with heldSteals := [] } }

/-- Some request of the acting core is not answered yet (R425, step 4). -/
def State.unanswered (s : State) : Bool :=
  !s.core.posted.isEmpty || s.links.reqs.any (fun r => r.core == s.coreId && r.resp.isNone)

/-- The acting core's strand saved (R427): the slot written and marked, the record in the pool. A write of the slot
that fails, or an area that is not usable, loses the context (R431); one that waits for the memory is made later (R442). -/
def State.saveStrand (s : State) (j : Job) (p : Nat) : State :=
  let lost := (s.logRec .saveFault j.ctx s.coreId 0).loseContext j.ctx 0x17
  if !s.saveAreaOk j.tenant p then lost
  else
    match s.ctx? j.ctx, s.freeSlot j.tenant p with
    | some c, some a =>
      match s.areaWaits c true a slotBytes, s.saveOut c a slotBytes with
      | w :: l, _ => s.noteArea s.coreId (w :: l)
      | [], none => ((s.logArea c a slotBytes).logRec .saveFault j.ctx s.coreId 0).loseContext j.ctx 0x17
      | [], some (no, t) =>
        let r := { s.saveRec j with slot := a, saveNo := no }
        let t := { t with work := { t.work with pool := t.work.pool ++ [r] } }
        (t.upCore Core.idle).gangSaved j.launch
    | _, _ => lost

/-- PREEMPT_SAVE_COMPLETE (R425 to R427, R431): every request of the core answered, the save is written. -/
def execPreemptSaveComplete (c : Nat) (s : State) : Outcome :=
  .next (s.on c (fun s =>
    match s.core.job with
    | none => s
    | some j =>
      if !s.core.preemptReady || s.unanswered then s
      else s.saveStrand j (((s.launch? j.launch).map (fun l => l.part)).getD 0)))

/-- PREEMPT_DEADLINE (R426): without live tile state the strand rolls back and stops once the array has finished the
entries of earlier regions; else it keeps draining. -/
def execPreemptDeadline (c : Nat) (s : State) : Outcome :=
  .next (s.on c (fun s =>
    if !(s.core.preempt && !s.core.preemptReady && !s.core.stopped && s.core.job.isSome) || s.core.stall == .drain then s
    else if s.regionLive then s
    else
      let t := (s.rollBack 3).upCore (fun c => { c with stall := .drain })
      if t.core.arrayStops then t.orHeld t.cutHere else t))

/-- The copy commands of the acting core that have started leave undefined what they had not written (R486,
step 2). -/
def State.blurStarted (s : State) : State :=
  (s.core.cq.filter (fun x => x.started && x.fail.isNone)).foldl (fun s x => s.blurCopy x x.cursor) s

/-- The commands of the acting core abandoned, its requests with them (R486, step 2). -/
def State.abandonHere (s : State) : State :=
  let s := s.blurStarted
  { s with links := { s.links with reqs := s.links.reqs.filter (fun r => r.core != s.coreId) } }

/-- The commands of every strand of the given launches abandoned, running or saved, where the context survives
(R486, step 2). A saved strand has no request left: each was answered before its save (R425). -/
def State.abandon (s : State) (p : Nat → Bool) : State :=
  let ids := (s.coreId :: s.parked.map (fun x => x.1)).filter (fun n => (s.coreAt n).runs (fun j => p j.launch))
  let s := ids.foldl (fun s n => s.on n State.abandonHere) s
  (s.work.pool.filter (fun r => p r.launch)).foldl (fun s r =>
    match r.save, r.core with
    | some k, some n => s.on n (fun s => { ({ s with core := k } : State).blurStarted with core := s.core })
    | _, _ => s) s

/-- WATCHDOG (R426): the launch ends, every strand of it stopped, once no write-back of theirs waits for the memory (R442,
R486); the context survives. -/
def execWatchdog (c : Nat) (s : State) : Outcome :=
  .next (match (s.coreAt c).job with
    | none => s
    | some j =>
      let k := s.coreAt c
      if !k.preempt || k.preemptReady || k.stopped then s
      else
        s.onceLoose (fun k => k.runs (fun x => x.launch == j.launch)) fun s =>
        let s := ((s.logRec .watchdog c j.launch 0).abandon (fun n => n == j.launch)).stopStrands (fun n => n == j.launch) true
        s.upLaunch j.launch (fun l => { l with state := .ending, status := some (0x18, c, j.workid.toNat) }))

/-! ## Eviction (R429) -/

/-- FUNCTION_EVICT (R429). -/
def execFunctionEvict (f : Nat) (s : State) : Outcome :=
  .next (s.hostWrite (fun s => if (s.fn f).evict = 0 then (s.upFn f (fun n => { n with evict := 1 })).preemptFn f else s))

/-- The cells of a range of places. -/
def cellsIn (m : List Host.Cell) (a n : Nat) : List Host.Cell :=
  m.filter (fun c => decide (a ≤ c.1) && decide (c.1 < a + n))

/-- The poisoned lines of a range of places, those among them that the read of the share finds beyond ECC (R313). -/
def poisonIn (m : Mem) (a n : Nat) : List Nat :=
  (m.faulty.foldl insertNum m.poison).filter (fun l => decide (a ≤ l * 64) && decide (l * 64 < a + n))

/-- The place and length of an image's share. -/
def Image.range (i : Image) : Nat × Nat :=
  match i.lm, i.cp with
  | some h, _ => (lmPlace h.core h.off, h.len)
  | none, some h => (cpPlace h.cluster h.off, h.len)
  | none, none => (0, 0)

/-- The images of every share that a context's launches hold (R429), each at its part of the save area: of a core after
its slots, of a cluster after every core. -/
def State.imagesOf (s : State) (c : Ctx) (p : Nat) : List Image :=
  let fill (i : Image) : Image :=
    { i with cells := cellsIn s.mem.cells i.range.1 i.range.2, poison := poisonIn s.mem i.range.1 i.range.2 }
  let cores := s.partCores p
  ((s.work.shares.filter (fun h => s.launchOf c.num h.launch)).map (fun h => fill ⟨c.fn, c.num, some h, none, [], [],
      s.corePart c.tenant (cores.idxOf h.core) + 2 ^ 20 + h.off, 0⟩)) ++
    ((s.work.cps.filter (fun h => s.launchOf c.num h.launch)).map (fun h => fill ⟨c.fn, c.num, none, some h, [], [],
      s.corePart c.tenant cores.length + (s.partClusters p).idxOf h.cluster * 2 ^ 24 + h.off, 0⟩))

/-- Images written to the save area one after the other, or none where a write fails (R431). -/
def State.writeImages (c : Ctx) : List Image → State → Option State
  | [], s => some s
  | i :: l, s =>
    match s.saveOut c i.slot i.range.2 with
    | none => none
    | some (no, s) => State.writeImages c l { s with work := { s.work with images := s.work.images ++ [{ i with saveNo := no }] } }

/-- The shares of a context written out and freed; with no usable area, or where a write fails, the context is lost
(R429, R431). -/
def State.evictCtx (s : State) (c : Ctx) : State :=
  let p := (s.partOf c.fn).getD 32
  let lost (s : State) : State := (s.logRec .saveFault c.num s.coreId 0).loseContext c.num 0x17
  match s.imagesOf c p with
  | [] => s
  | im =>
    if !s.saveAreaOk c.tenant p then lost s
    else
      match State.writeImages c im s with
      | none => lost (im.foldl (fun s i => s.logArea c i.slot i.range.2) s)
      | some t => (t.freeShares (fun h => s.launchOf c.num h.launch)).freeCps (fun h => s.launchOf c.num h.launch)

/-- What the writes of an eviction wait for (R442, R455). -/
def State.evictWaits (s : State) (f : Nat) : List Stall :=
  (s.work.ctxs.filter (fun c => c.fn == f)).flatMap (fun c =>
    (s.imagesOf c ((s.partOf c.fn).getD 32)).flatMap (fun i => s.areaWaits c true i.slot i.range.2))

/-- EVICTION_DONE (R429): with no strand of the function on a core, its shares are written out and freed, once none of
the writes waits for the memory. -/
def execEvictionDone (f : Nat) (s : State) : Outcome :=
  .next (if (s.fn f).evict ≠ 1 ∨ s.coresOf f ≠ [] then s
    else if s.evictWaits f ≠ [] then s.noteArea 768 (s.evictWaits f)
    else
      let s := (s.work.ctxs.filter (fun c => c.fn == f)).foldl (fun s c => s.evictCtx c)
        (s.upFn f (fun n => { n with evict := 2 }))
      { s with work := { s.work with
          launches := s.work.launches.map (fun l => if l.fn = f then { l with evicted := true } else l) } })

/-- Whether the space of an image is free on its core or cluster (R429). -/
def State.imageFits (s : State) (i : Image) : Bool :=
  let apart (a b : Nat × Nat) : Bool := decide (a.1 + a.2 ≤ b.1) || decide (b.1 + b.2 ≤ a.1)
  (match i.lm with
    | none => true
    | some h => decide ((s.sharesOn h.core).length < 8) && (s.sharesOn h.core).all (fun x => apart (x.off, x.len) (h.off, h.len))) &&
    (match i.cp with
      | none => true
      | some h => decide (s.boundGroups h.cluster < 16) &&
          (s.work.cps.filter (fun x => x.cluster == h.cluster)).all (fun x => apart (x.off, x.len) (h.off, h.len)))

/-- An image reloaded onto its core or cluster (R429): whole lines are written, which clears their marks (R314), and those
that were poisoned are so again. -/
def State.reloadImage (s : State) (i : Image) : State :=
  let m := s.mem.wipe i.range.1 i.range.2
  { s with
    mem := { m with
      cells := i.cells.foldl (fun m c => memSet m c.1 c.2) m.cells
      domain := s.mem.domain
      poison := i.poison.foldl insertNum m.poison }
    work := { s.work with
      shares := s.work.shares ++ i.lm.toList
      cps := s.work.cps ++ i.cp.toList
      images := s.work.images.filter (fun x => x != i) } }

/-- An image reloaded, if it still stands and carries its completion mark; poison in it loses the context (R431). -/
def State.reload (s : State) (i : Image) : State :=
  match s.ctx? i.ctx with
  | none => s
  | some c =>
    if !(s.work.images.contains i && s.marked_ c i.saveNo i.slot i.range.2) then
      s.noteArea 768 (s.areaWaits c false i.slot i.range.2)
    else
      match s.areaBad c i.slot i.range.2 with
      | some line => ((s.marked line).logRec .consumed (line * 64) s.coreId 0).loseContext c.num 9
      | none => s.reloadImage i

/-- FUNCTION_RESUME (R429): each share reloaded once its space is free; then the saves are READY again. -/
def execFunctionResume (f : Nat) (s : State) : Outcome :=
  .next (s.hostWrite (fun s => if (s.fn f).evict = 2 ∨ (s.fn f).evict = 3 then
      let s := (s.work.images.filter (fun i => i.fn == f)).foldl
        (fun s i => if s.imageFits i then s.reload i else s) s
      if s.work.images.any (fun i => i.fn == f) then s.upFn f (fun n => { n with evict := 3 })
      else
        let s := s.upFn f (fun n => { n with evict := 0 })
        { s with work := { s.work with launches := s.work.launches.map (fun l =>
            if l.fn = f then { l with evicted := false } else l) } }
    else s))

/-! ## Watching (R119) -/

/-- The bank wakes a watcher whose word a write covered (R119). -/
def State.wakeHit (s : State) (w : Watcher) : State := if w.hit then (s.dropWatchers (fun x => x == w)).1 else s

/-- WATCH_WAKE (R119). -/
def execWatchWake (i : Nat) (s : State) : Outcome :=
  .next (match s.mem.watchers[i]? with
    | some w => s.wakeHit w
    | none => s)

/-! ## Steal requests (R124, R176) -/

/-- The core that runs a strand, if one does. -/
def State.coreOfStrand (s : State) (n : Nat) : Option Nat :=
  (List.range 768).find? (fun c => (s.coreAt c).runs (fun j => j.strand == n))

/-- A request held at some core. -/
def State.isHeld (s : State) (id : Nat) : Bool :=
  (s.core :: s.parked.map (fun p => p.2)).any (fun c => c.heldSteals.contains id)

/-- A request moved along its route: held at the first strand of the launch that runs and is no thief, or back
ungranted after the last (R124). -/
def State.routeSteal (s : State) (t : Steal) : List Nat → State
  | [] => { s with steals := s.steals.map (fun (x : Steal) => if x.id = t.id then { x with route := [], back := true } else x) }
  | c :: l =>
    let k := s.coreAt c
    if k.runs (fun j => j.launch == t.launch) && !k.thief then
      let s := { s with steals := s.steals.map (fun (x : Steal) => if x.id = t.id then { x with route := l } else x) }
      s.setCoreAt c { k with heldSteals := k.heldSteals ++ [t.id] }
    else s.routeSteal t l

/-- STEAL_REQUEST_ARRIVE (R124). -/
def execStealRequestArrive (i : Nat) (s : State) : Outcome :=
  .next (match s.steals[i]? with
    | none => s
    | some t => if t.back || s.isHeld t.id then s else s.routeSteal t t.route)

/-- What a returned request sets in the thief (R176). -/
def Core.stealBack (c : Core) (g : Option (Word × Word)) : Core := { c with stealReturned := true, grant := g }

/-- What a returned request sets in the save of a thief that was pre-empted (R176). A thief saved in its SPLITCHK has
the granted range in its registers and resumes after the SPLITCHK, in the region that starts there; one that a trap
had taken out of it finds the answer as it comes back to it. -/
def Core.stealSaved (c : Core) (g : Option (Word × Word)) : Core :=
  let regs := match g with
    | some (lo, hi) => { c.live with rnglo := lo, rnghi := hi }
    | none => c.live
  if c.stall = .steal then ({ c with live := regs, thief := false, stall := .none, pc := c.pc + 4 } : Core).openRegion
  else c.stealBack g

/-- STEAL_GRANT_ARRIVE (R176): the thief's range, in its save if it was pre-empted. -/
def execStealGrantArrive (i : Nat) (s : State) : Outcome :=
  .next (match s.steals[i]? with
    | none => s
    | some t =>
      if !t.back then s
      else
        let s := { s with steals := s.steals.filter (fun x => x.id != t.id) }
        match s.coreOfStrand t.thief with
        | some c => s.setCoreAt c ((s.coreAt c).stealBack t.granted)
        | none => { s with work := { s.work with pool := s.work.pool.map (fun r =>
            if r.strand = t.thief then { r with save := r.save.map (fun k => k.stealSaved t.granted) } else r) } })

/-! ## Stepped launches (R125 to R127) -/

/-- Every strand of a stepped launch has arrived or exited (R125). -/
def Launch.allArrived (l : Launch) : Bool :=
  l.hdr.mode == 1 && !l.arrived.isEmpty &&
    decide (l.hdr.strands ≤ ((l.arrived ++ l.exited.filter (fun x => !l.arrived.contains x)).filter
      (fun x => !l.spawned.contains x)).length)

/-- The strand of a position of a gang launch: the core its core group is bound to (R94, R112). -/
def Launch.coreAt (l : Launch) (n : Nat) : Option Nat := lookup l.coreBound (n / max 1 l.hdr.perCore)

/-! ## The exchange (R126, R127) -/

/-- How an exchange step's access ends early: with a status, or at a page to wait for. -/
inductive PlanStop where
  | status (st : Nat)
  | miss (m : Miss)
  | held (why : Stall)
deriving DecidableEq, Repr

/-- The place of `n` bytes of a side of an exchange step (R126), and its cluster where the crossbar must join it (R111).
A handle of the list is the record admitted with the launch, and is checked as ReadHandle checks it (R83, R85). -/
def State.planPlace (s : State) (l : Launch) (c : Ctx) (strand kind hix off n : Nat) (need : Right) :
    Except PlanStop (Nat × Option Nat) :=
  if kind = 0 then
    match l.coreAt strand with
    | none => .error (.status 1)
    | some k =>
      match s.work.shares.find? (fun h => h.core == k && h.launch == l.num && h.coreGroup.isSome && h.alone.isNone) with
      | some h => .ok (lmPlace k (h.off + off), some (clusterOf k))
      | none => .error (.status 1)
  else if kind = 1 then
    match s.cpShare l.num (strand / max 1 l.hdr.perCluster) with
    | some h => .ok (cpPlace h.cluster (h.off + off), some h.cluster)
    | none => .error (.status 1)
  else
    match s.liveRec c (l.hdr.hlStart + hix) with
    | none => .error (.status 4)
    | some r =>
      if r.gen ≠ l.admitted.getD hix 0 then .error (.status 4)
      else if !(r.local_ && rightsOk r.rights r.local_ need) then .error (.status 3)
      else if r.length < off + n then .error (.status 2)
      else
        match s.walk c.tenant (r.base + off) r.kind with
        | .miss why => .error (.miss ⟨r.base + off, c.tenant, r.kind == 2, need.page, why, 0⟩)
        | .at f z rr _ =>
          match pageFault s.xl.capacity r.kind f z (r.base + off) rr need.page with
          | some st => .error (.status st)
          | none => .ok (pagePlace f z (r.base + off), none)

/-- The clusters of both sides, where both have one, are joined (R111). -/
def State.joined (s : State) (a b : Option Nat) : Bool :=
  match a, b with
  | some x, some y => s.connects x y
  | _, _ => true

/-- The runs of 64 bytes that cross no line on either side, by the offsets at which the sides start: first byte and
length. -/
def planCuts (a b : Nat) : List (Nat × Nat) :=
  let x := 64 - a % 64
  let y := 64 - b % 64
  [(0, min x y), (min x y, max x y - min x y), (max x y, 64 - max x y)].filter (fun r => r.2 != 0)

/-- Bytes `o` to `o + n - 1` of an exchange step copied; they cross no line. -/
def State.planRun (s : State) (l : Launch) (c : Ctx) (p : PlanStep) (o n : Nat) : Except (PlanStop × State) State :=
  match s.planPlace l c p.src p.skind p.hix (p.soff + o) n .rd, s.planPlace l c p.dst p.dkind p.hix (p.doff + o) n .w with
  | .ok (a, x), .ok (b, y) =>
    if !s.joined x y then .error (.status 1, s)
    else
      match s.ordRead (s.keyFor c) a n 0 with
      | .error (.wait w, s) => .error (.held w, s)
      | .error (_, s) => .error (.status 9, s)
      | .ok bs =>
        match s.ordWrite (s.keyFor c) b bs 0 with
        | .error (.wait w, s) => .error (.held w, s)
        | .error (_, s) => .error (.status 9, s)
        | .ok s => .ok s
  | .error e, _ => .error (e, s)
  | _, .error e => .error (e, s)

/-- The runs of 64 bytes copied one after the other. -/
def State.planRuns (l : Launch) (c : Ctx) (p : PlanStep) (i : Nat) : List (Nat × Nat) → State → Except (PlanStop × State) State
  | [], s => .ok s
  | (o, n) :: r, s =>
    match s.planRun l c p (64 * i + o) n with
    | .error e => .error e
    | .ok s => State.planRuns l c p i r s

/-- 64 bytes of an exchange step copied, both ends translated line by line. -/
def State.planLine (s : State) (l : Launch) (c : Ctx) (p : PlanStep) (i : Nat) : Except (PlanStop × State) State :=
  State.planRuns l c p i (planCuts p.soff p.doff) s

/-- The lines of an exchange step. -/
def State.planLines (s : State) (l : Launch) (c : Ctx) (p : PlanStep) : Nat → Nat → Except (PlanStop × State) State
  | 0, _ => .ok s
  | k + 1, i =>
    match s.planLine l c p i with
    | .error e => .error e
    | .ok s => s.planLines l c p k (i + 1)

/-- No entry of the page-request queue: the exchange of a launch names it whose page was refused. -/
def noEntry : Nat := 2 ^ 16

/-- A step of the exchange that faults ends its launch with the step's status (R127, R475), once no write-back of its
strands waits for the memory (R442, R486). -/
def State.planFails (s : State) (l k st : Nat) : State :=
  s.onceLoose (fun c => c.runs (fun j => j.launch == l)) fun s =>
  let s := (s.abandon (fun n => n == l)).stopStrands (fun n => n == l) true
  s.upLaunch l (fun x => { x with state := .ending, planPage := none, status := some (st, k, 0) })

/-- A step that misses waits for its page and is issued again (R415). -/
def State.planWaits (s : State) (l k : Nat) (m : Miss) : State :=
  match s.unitRequest m (stepMiss l k) with
  | (some e, s) => s.upLaunch l (fun x => { x with planPage := some (e, k) })
  | (none, s) => s

/-- EXCHANGE_STEP_ISSUE (R127): after the last arrival; a step that faults ends the launch with its status, one whose page
was refused with HANDLE_RIGHTS (R417). -/
def execExchangeStepIssue (l : Nat) (k : Nat) (s : State) : Outcome :=
  .next (match s.launch? l with
    | none => s
    | some x =>
      match x.plan[k]?, s.ctx? x.ctx with
      | some p, some c =>
        if x.planPage = some (noEntry, k) ∧ x.state = .running then s.planFails l k 3
        else if !x.allArrived || x.planDone.contains k || x.state != .running || x.planPage.isSome then s
        else
          match s.planLines x c p (p.len / 64) 0 with
          | .ok s => s.upLaunch l (fun x => { x with planDone := insertNum x.planDone k, stepAt := s.cycle.toNat })
          | .error (.miss m, s) => s.planWaits l k m
          | .error (.held w, _) => s.noteHeld 768 (stepMiss l k) w
          | .error (.status st, s) => s.planFails l k st
      | _, _ => s)

/-- The exchange origin (R127): the first rotation boundary at least 512 clk after the last arrival. -/
def Launch.origin (l : Launch) : Nat := (l.arrivedAt + 512 + 511) / 512 * 512

/-- The exchange was late: its last step completed after the plan's time (R127). -/
def Launch.late (l : Launch) : Bool := !l.plan.isEmpty && decide (l.origin + l.hdr.planClk < l.stepAt)

/-- SSTEP_RELEASE (R125): every strand has arrived and every step has completed; a late exchange is counted (R127). -/
def execSstepRelease (l : Nat) (s : State) : Outcome :=
  .next (match s.launch? l with
    | none => s
    | some x =>
      if x.allArrived && x.state == .running && (List.range x.plan.length).all (fun k => x.planDone.contains k) then
        s.upLaunch l (fun x => { x with
          arrived := [], planDone := [], overruns := if x.late then x.overruns + 1 else x.overruns })
      else s)

end Sys2Proof.Machine
end

