-- ==== Sys2Proof/Machine/Spdm.lean ====
section
/-! DEFINITION. The SPDM flows and the TDISP state of the functions (02 R35 to R38). The formats of the
messages are SPDM's: their bytes are `Config.spdm` (assumption 4). -/

namespace Sys2Proof.Machine

/-- An SPDM message served through mailbox `f` (R33, R35): outside the order of the flows it is answered with
an SPDM error and changes nothing. -/
def State.spdm (s : State) (f kind : Nat) (ok : Fn → Bool) (act : State → State) : State :=
  s.serve f 2 (fun q s =>
    if ok (s.fn f) then (act s).respond f 0 (s.spdmBytes kind q) else s.respond f 0 (s.spdmBytes spdmError q))

/-- How far the flow has come, as a number. -/
def SpdmStage.rank : SpdmStage → Nat
  | .none => 0
  | .version => 1
  | .capabilities => 2
  | .algorithms => 3
  | .exchanging => 4
  | .session => 5

/-- The flow has come at least so far. -/
def atLeast (st : SpdmStage) (n : Fn) : Bool := decide (st.rank ≤ n.spdm.rank)

/-- The flow's stage set. -/
def State.setStage (s : State) (f : Nat) (st : SpdmStage) : State := s.upFn f (fun n => { n with spdm := st })

/-- GET_VERSION (R35): the flow starts; a secured session stays. -/
def execGetVersion (f : Nat) (s : State) : Outcome :=
  .next (s.spdm f 0x84 (fun _ => true) (fun s =>
    if (s.fn f).session = 0 then s.setStage f .version else s))

/-- GET_CAPABILITIES (R35). -/
def execGetCapabilities (f : Nat) (s : State) : Outcome :=
  .next (s.spdm f 0xE1 (fun n => n.spdm == .version) (fun s => s.setStage f .capabilities))

/-- NEGOTIATE_ALGORITHMS (R35). -/
def execNegotiateAlgorithms (f : Nat) (s : State) : Outcome :=
  .next (s.spdm f 0xE3 (fun n => n.spdm == .capabilities) (fun s => s.setStage f .algorithms))

/-- GET_DIGESTS (R35). -/
def execGetDigests (f : Nat) (s : State) : Outcome := .next (s.spdm f 0x81 (atLeast .algorithms) id)

/-- GET_CERTIFICATE (R35). -/
def execGetCertificate (f : Nat) (s : State) : Outcome := .next (s.spdm f 0x82 (atLeast .algorithms) id)

/-- CHALLENGE (R35). -/
def execChallenge (f : Nat) (s : State) : Outcome := .next (s.spdm f 0x83 (atLeast .algorithms) id)

/-- GET_MEASUREMENTS (R34, R35). -/
def execGetMeasurements (f : Nat) (s : State) : Outcome := .next (s.spdm f 0xE0 (atLeast .algorithms) id)

/-- KEY_EXCHANGE (R35). -/
def execKeyExchange (f : Nat) (s : State) : Outcome :=
  .next (s.spdm f 0xE4 (fun n => n.spdm == .algorithms) (fun s => s.setStage f .exchanging))

/-- FINISH (R35): a secured session with a number of its own. -/
def execFinish (f : Nat) (s : State) : Outcome :=
  .next (s.spdm f 0xE5 (fun n => n.spdm == .exchanging) (fun s =>
    let s := { s with trust := { s.trust with draws := s.trust.draws + 1 } }
    s.upFn f (fun n => { n with spdm := .session, session := s.trust.draws })))

/-- END_SESSION (R35). -/
def execEndSession (f : Nat) (s : State) : Outcome :=
  .next (s.spdm f 0xEC (fun n => n.spdm == .session) (fun s =>
    s.upFn f (fun n => { n with spdm := .algorithms, session := 0 })))

/-- IDE_KM (R35): only inside the function's secured session, over which the message came. -/
def execIdeKm (f : Nat) (s : State) : Outcome :=
  .next (s.serve f 2 (fun q s =>
    if (s.fn f).spdm = .session ∧ Config.securedIn (s.fn f).session q = true then
      (s.upFn f (fun n => { n with ideKeyed := true })).respond f 0 (s.spdmBytes 0x100 q)
    else s.respond f 0 (s.spdmBytes spdmError q)))

/-- KEY_UPDATE (R393): a rack port's keys replaced, without stopping traffic. -/
def execKeyUpdate (p : Nat) (s : State) : Outcome :=
  .next { s with links := { s.links with ports :=
    match s.links.ports[p]? with
    | none => s.links.ports
    | some x => if x.state = .open_ then s.links.ports.set p { x with keyNo := x.keyNo + 1, groups := 0 } else s.links.ports } }

/-! ## TDISP (R37, R38) -/

/-- LOCK_INTERFACE_REQUEST (R37). -/
def execLockInterfaceRequest (f : Nat) (s : State) : Outcome :=
  .next (s.spdm f 0x103 (fun n => n.tdisp == .unlocked && f != physFn) (fun s =>
    s.upFn f (fun n => { n with tdisp := .locked, lockedBy := if n.session = 0 then none else some n.session })))

/-- START_INTERFACE_REQUEST (R37): from the tenant's session. -/
def execStartInterfaceRequest (f : Nat) (sess : Option Nat) (s : State) : Outcome :=
  .next (s.spdm f 0x105 (fun n => n.tdisp == .locked && n.session != 0 && sess == some n.session) (fun s =>
    s.upFn f (fun n => { n with tdisp := .run })))

/-- STOP_INTERFACE_REQUEST (R38): no effect in CONFIG_UNLOCKED; else the function enters ERROR, and the answer
waits for the scrub. -/
def execStopInterfaceRequest (f : Nat) (s : State) : Outcome :=
  .next (s.serve f 2 (fun q s =>
    if (s.fn f).tdisp = .unlocked then s.respond f 0 (s.spdmBytes 0x106 q)
    else
      let s := if (s.fn f).tdisp = .error then s else s.toError f
      s.upFn f (fun n => { n with stopping := true, mbox := { n.mbox with busy := true, done := false } })))

/-- Whether the scrub of a function's contexts has ended (R38, R453). -/
def State.scrubbed (s : State) (f : Nat) : Bool :=
  s.xl.extents.all (fun p =>
    p.2.scrub == 0 || p.2.owner == 0 || p.2.owner == 0xFF || (s.xl.tid p.2.owner.toNat).fn != f ||
      (s.xl.tid p.2.owner.toNat).state != .retiring)

/-- STOP_INTERFACE_COMPLETE (R38). -/
def execStopInterfaceComplete (f : Nat) (s : State) : Outcome :=
  .next (if (s.fn f).stopping ∧ (s.fn f).tdisp = .error ∧ s.scrubbed f = true then
      (s.upFn f (fun n => { n with stopping := false, tdisp := .unlocked, lockedBy := none })).respond f 0
        (s.spdmBytes 0x106 [])
    else s)

end Sys2Proof.Machine
end

