-- ==== Sys2Proof/Machine/HostRegs.lean ====
section
/-! DEFINITION. Memory-mapped registers of the host: partitions, calendars, extents, translation, page requests,
save areas, profiling and the plain registers (06 R107 to R110, 12 R298 to R310, 20 R416, R417, R430, 23 R471 to
R473). -/

namespace Sys2Proof.Machine

/-! ## Partition commits (R107 to R110) -/

/-- A function is in CONFIG_LOCKED or RUN: its configuration is frozen (R38). -/
def State.frozen (s : State) (f : Nat) : Bool := (s.fn f).tdisp == .locked || (s.fn f).tdisp == .run

/-- A field of a descriptor in a table. -/
def descrField (d : List Byte) (p off n : Nat) : Nat := field d (64 * p + off) n

/-- A descriptor is VALID. -/
def descrValid (d : List Byte) (p : Nat) : Bool := bit (descrField d p 28 1) 0

/-- The VALID partitions of a table. -/
def validParts (d : List Byte) : List Nat := (List.range 32).filter (descrValid d)

/-- Code 1: a cluster or function in two VALID partitions. -/
def overlaps (d : List Byte) (p : Nat) : Bool :=
  (validParts d).any (fun q => q != p &&
    (descrField d p 0 24 &&& descrField d q 0 24 != 0 || descrField d p 24 4 &&& descrField d q 24 4 != 0))

/-- A value lies in a range. -/
def inRange (lo hi v : Nat) : Bool := decide (lo ≤ v) && decide (v ≤ hi)

/-- Code 2 for a descriptor: reserved bits and limits (R107). -/
def descrOk (d : List Byte) (p : Nat) : Bool :=
  let g := descrField d p
  g 28 1 / 2 == 0 && g 29 1 == 0 && g 44 20 == 0 && inRange 1 65535 (g 32 2) && inRange 10 10000 (g 34 2) &&
    inRange 1 384 (g 36 2) && inRange 0 256 (g 38 2) && inRange 1 1024 (g 40 2) && inRange 1 64 (g 42 1) &&
    inRange 1 32 (g 43 1)

/-- Code 2 for a budget register. -/
def budgetOk (w : Word) : Bool := bits w.toNat 63 58 == 0 && inRange 10 1000 (bits w.toNat 57 48)

/-- Code 3 for a partition: its descriptor changed and names a frozen function. -/
def State.frozenDescr (s : State) (p : Nat) : Bool :=
  let old := (s.part.iDescr.drop (64 * p)).take 64
  let new := (s.part.descr.drop (64 * p)).take 64
  let names (d : List Byte) : Bool :=
    descrValid d p && (List.range 32).any (fun f => bit (descrField d p 24 4) f && s.frozen f)
  fixLen 64 old != fixLen 64 new && (names s.part.descr || names s.part.iDescr)

/-- A launch holds a cluster (R110): by a group bound there, a core reserved or bound there, a share there, a strand
that runs there, or a record in its pool. -/
def State.holds (s : State) (l : Launch) (cl : Nat) : Bool :=
  (l.bound ++ l.coreBound.map (fun b => (b.1, clusterOf b.2)) ++ l.reserved.map (fun b => (b.1, clusterOf b.2))).any
      (fun b => b.2 == cl) ||
    s.work.shares.any (fun h => h.launch == l.num && clusterOf h.core == cl) ||
    (List.range 4).any (fun i => (s.coreAt (4 * cl + i)).runs (fun j => j.launch == l.num)) ||
    s.work.pool.any (fun r => r.launch == l.num && r.cluster == cl)

/-- A launch of a partition holds a cluster (R110). -/
def State.holdsCluster (s : State) (p cl : Nat) : Bool := s.work.launches.any (fun l => l.part == p && s.holds l cl)

/-- Code 4 for a partition: a cluster leaves it while a launch of it holds the cluster. -/
def State.busyPart (s : State) (p : Nat) : Bool :=
  descrValid s.part.iDescr p &&
    (List.range 192).any (fun c => bit (descrField s.part.iDescr p 0 24) c &&
      !(descrValid s.part.descr p && bit (descrField s.part.descr p 0 24) c) && s.holdsCluster p c)

/-- Code 5: a core of a gang launch of the partition that was taken, started or not, is fenced (log 95). -/
def State.fencesGang (s : State) (p : Nat) : Bool :=
  s.work.launches.any (fun l => l.part == p && l.hdr.mode != 0 && (s.coresFor l ++ l.reserved).any (fun r =>
    s.part.fence.getLsbD r.2 && !s.part.iFence.getLsbD r.2))

/-- The launches that occupy a core: by a strand that runs there, or a share bound there (R108). -/
def State.occupants (s : State) (c : Nat) : List Nat :=
  let run := match (s.coreAt c).job with
    | some j => [j.launch]
    | none => []
  run ++ (s.work.launches.filter (fun l => l.coreBound.any (fun b => b.2 == c))).map (fun l => l.num)

/-- The cores that a commit fences while launches occupy them, with those launches: the fence takes effect for each
as it ends (R108). -/
def State.newDeferred (s : State) : List (Nat × Nat) :=
  ((List.range 768).filter (fun c => s.part.fence.getLsbD c && !s.part.iFence.getLsbD c)).flatMap
    (fun c => (s.occupants c).map (fun l => (c, l)))

/-- The first check of R110 that fails: its code and partition. A commit that would change a frozen function's partition or
budget is refused with PT_FROZEN and changes nothing, so that it does not move the function to ERROR besides (log 105). -/
def State.commitFails (s : State) : Option (Nat × Nat) :=
  let d := s.part.descr
  let v := validParts d
  match v.find? (overlaps d) with
  | some p => some (1, p)
  | none =>
    match v.find? (fun p => !descrOk d p) with
    | some p => some (2, p)
    | none =>
      if !s.part.budget.all budgetOk then some (2, 0)
      else
        match (List.range 32).find? s.frozenDescr with
        | some p => some (3, p)
        | none =>
          if (List.range 32).any (fun f => s.part.budget.getD f 0 != s.part.iBudget.getD f 0 && s.frozen f) then some (3, 0)
          else
            match (List.range 32).find? s.busyPart with
            | some p => some (4, p)
            | none => ((List.range 32).find? s.fencesGang).map (fun p => (5, p))

/-- The bytes the partition slot is extended with (R110). -/
def Part.measured (p : Part) : List Byte :=
  shake (fixLen 2048 p.descr ++ leBytes 96 p.fence.toNat ++ (List.range 32).flatMap (fun f => leBytes 8 (p.budget.getD f 0).toNat))

/-- PT_COMMIT (R110): ignored while a commit is being checked. -/
def execPtCommit (s : State) : Outcome := .next (s.hostWrite (fun s => { s with part := { s.part with busy := true } }))

/-- The written table installed as one unit; the periods of changed budgets begin anew (R103, R110). -/
def State.installParts (s : State) : State :=
  let p := s.part
  { s with
    fns := (List.range s.fns.length).map (fun f =>
      if f < 32 ∧ p.budget.getD f 0 ≠ p.iBudget.getD f 0 then { s.fn f with used := 0 } else s.fn f)
    trust := s.trust.extend 4 p.measured
    part := { p with
      iDescr := p.descr
      iFence := p.fence
      iBudget := p.budget
      deferred := s.newDeferred ++ p.deferred
      busy := false
      code := 0
      part := 0 } }

/-- PT_COMMIT_DONE (R110). -/
def execPtCommitDone (s : State) : Outcome :=
  .next (if !s.part.busy then s
    else
      match s.commitFails with
      | some (c, p) => { s with part := { s.part with busy := false, code := BitVec.ofNat 3 c, part := BitVec.ofNat 5 p } }
      | none => s.installParts)

/-! ## Calendars (R304 to R309) -/

/-- The 256 owner bytes of a pseudo-channel in a set of calendars; what no one wrote is unowned. -/
def calBytes (l : List (Nat × List Byte)) (p : Nat) : List Byte :=
  match lookup l p with
  | some b => fixLen 256 b
  | none => List.replicate 256 0xFF

/-- The pseudo-channels of the live stacks. -/
def livePcs (surv : List Nat) : List Nat := surv.flatMap (fun s => (List.range 64).map (fun p => s * 64 + p))

/-- Slots a code owns on one pseudo-channel. -/
def slotsOf (b : List Byte) (code : Nat) : Nat := (b.filter (fun x => x.toNat == code)).length

/-- The partition, VALID and installed, that holds a cluster. -/
def State.partOfCluster (s : State) (c : Nat) : Option Nat :=
  (validParts s.part.iDescr).find? (fun p => bit (descrField s.part.iDescr p 0 24) c)

/-- The stacks a set gives slots on: for a post-retirement set, all but the one stack it names wholly 0xFF (R307). -/
def calStacks (surv : List Nat) (l : List (Nat × List Byte)) (post : Bool) : List Nat :=
  let named (s : Nat) : Bool := (List.range 64).all (fun p => slotsOf (calBytes l (s * 64 + p)) 0xFF == 256)
  if post then
    match surv.find? named with
    | some st => surv.filter (fun s => s != st)
    | none => surv
  else surv

/-- The checks of R307 on a set of calendars, in their order; 0 when it passes. -/
def State.calCheck (s : State) (l : List (Nat × List Byte)) (post : Bool) : Nat :=
  let live := livePcs (calStacks s.xl.surv l post)
  let bad (p : Nat) : Bool := (calBytes l p).any (fun x => inRange 0xC6 0xFE x.toNat || (!live.contains p && x.toNat != 0xFF))
  let owned := (List.range 192).filter (fun c => live.any (fun p => slotsOf (calBytes l p) c != 0))
  let count (m : List (Nat × List Byte)) (pcs : List Nat) (c : Nat) : Nat := (pcs.map (fun p => slotsOf (calBytes m p) c)).foldl (· + ·) 0
  let n := s.xl.surv.length
  let shrinks (c : Nat) : Bool :=
    let before := count s.cal.installed (livePcs s.xl.surv) c
    decide (count l live c < if post then before * (n - 1) / n else before)
  let frozenPart (p : Nat) : Bool := (List.range 32).any (fun f => bit (s.partField p 24 4) f && s.frozen f)
  if (List.range 1024).any bad then 1
  else if live.any (fun p => decide (slotsOf (calBytes l p) 0xC0 < 4)) then 2
  else if owned.any (fun c => (s.partOfCluster c).isNone) then 3
  else if (List.range 192).any (fun c => (s.partOfCluster c).any frozenPart && shrinks c) then 4
  else 0

/-- CALENDAR_GO (R307): ignored while BUSY; a set that passes awaits the rotation boundary. -/
def State.calGo (s : State) : State :=
  if s.cal.busy then s
  else
    let c := s.calCheck s.cal.pending false
    if c = 0 then { s with cal := { s.cal with busy := true, code := 0, staged := some s.cal.pending } }
    else { s with cal := { s.cal with code := BitVec.ofNat 3 c } }

/-- CALENDAR_POST (R307): a set that passes is held for the end of the next retirement. -/
def State.calPost (s : State) : State :=
  if s.cal.busy then s
  else
    let c := s.calCheck s.cal.pending true
    if c = 0 then { s with cal := { s.cal with code := 0, post := some s.cal.pending } }
    else { s with cal := { s.cal with code := BitVec.ofNat 3 c } }

/-- CALENDAR_GO (R307). -/
def execCalendarGo (s : State) : Outcome := .next (s.hostWrite State.calGo)

/-- CALENDAR_POST (R307). -/
def execCalendarPost (s : State) : Outcome := .next (s.hostWrite State.calPost)

/-- CALENDAR_INSTALL (R308): at the boundary, the accepted set whole; the latency table is rewritten (R306). -/
def execCalendarInstall (s : State) : Outcome :=
  .next (match s.cal.staged with
    | none => s
    | some l => { s with cal := { s.cal with installed := l, staged := none, busy := false, lat := deadLat s.xl.surv } })

/-- The mark of a key rotation moved past its line: the next line, or the next extent the tenant owns (R448). -/
def Rotation.advance (r : Rotation) (owned : List Nat) : Rotation :=
  if r.line + 1 < 2 ^ 19 then { r with line := r.line + 1 }
  else
    match owned.find? (fun e => decide (r.ext < e)) with
    | some e => { r with ext := e, line := 0 }
    | none => { r with ext := extents, line := 0 }

/-- The extents a tenant owns, in increasing index. -/
def Xlat.ownedBy (x : Xlat) (t : Nat) : List Nat := (x.extents.filter (fun p => p.2.owner.toNat == t)).map (fun p => p.1)

/-! ## The interleave (R302) -/

/-- Locate (R302): the stack, the pseudo-channel and the local offset of a PA of HBM. -/
def Xlat.locate (x : Xlat) (pa : Nat) : Nat × Nat × Nat :=
  let g := pa / 4096
  let n := max 1 x.surv.length
  let lg := g / n
  (x.surv.getD (g % n) 0, (lg ^^^ (lg / 2 ^ 6) ^^^ (lg / 2 ^ 12) ^^^ (lg / 2 ^ 18)) % 64, lg * 4096 + pa % 4096)

/-- The pseudo-channel, 64 × stack and its number in the stack, of a line of HBM. -/
def Xlat.channelOf (x : Xlat) (line : Nat) : Nat :=
  let (st, pc, _) := x.locate (line * 64)
  64 * st + pc

/-- The stacks as they are when the running retirement ends: the new homes (R439). -/
def State.after (s : State) : Xlat := { s.xl with surv := s.xl.surv.filter (fun x => some x != s.sweep.retiring) }

/-- The pseudo-channel on which a line of HBM lives: of its new home once a retirement has moved its granule (R439). -/
def State.homeOf (s : State) (line : Nat) : Nat :=
  if s.sweep.moved (line / 64) then s.after.channelOf line else s.xl.channelOf line

/-- A line of HBM lies in a granule in transit (R439). -/
def State.lineMoves (s : State) (line : Nat) : Bool := (s.transit? (line * 64) 64).isSome

/-- A sweep-class slot of pseudo-channel `p` can take a line of HBM: it lives there, and its granule is not in transit
(R436, R439). -/
def State.lineAt (s : State) (p line : Nat) : Bool :=
  decide (line * 64 < bmBase) && s.homeOf line == p && !s.lineMoves line

/-- SURV (R302): ENTRY[i] in bits [4i+3:4i]; entries at and above N read 0xF. -/
def Xlat.survWord (x : Xlat) : Word :=
  BitVec.ofNat 64 ((List.range 16).foldl (fun w i => w + (x.surv.getD i 0xF) % 16 * 2 ^ (4 * i)) 0)

/-! ## Work in the sweep-class slots (R436) -/

/-- The first line of a position of KEYMARK (R447). -/
def Rotation.place (r : Rotation) : Nat := if r.ext < 32768 then r.ext * 2 ^ 19 + r.line else bmBase / 64 + (r.ext - 32768) * 2 ^ 19 + r.line

/-- The line at a rotation's mark is re-encrypted under the new key, and the mark moves on (R448); one whose read ECC
cannot correct is marked (R313). -/
def State.rotateLine (s : State) (t : Nat) (r : Rotation) : State :=
  let old := (s.work.ctxs.find? (fun c => c.tenant == t)).map (fun c => c.key)
  let l := r.place
  let d := if (lookup s.mem.domain l).isSome ∧ lookup s.mem.domain l = old then insertKey s.mem.domain l r.newKey
    else s.mem.domain
  let m := if s.mem.faulty.contains l = true ∧ s.unscrubbed l = false then s.mem.mark l else s.mem
  { s with
    mem := { m with domain := d }
    sweep := { s.sweep with rot := insertKey s.sweep.rot t (r.advance (s.xl.ownedBy t)) } }

/-- A rotation has a line to do in a slot of pseudo-channel `p`: the line at its mark lies there, or in bank
memory (log 35). -/
def State.rotatesAt (s : State) (p : Nat) (r : Rotation) : Bool :=
  r.act && decide (r.ext < extents) && (decide (32768 ≤ r.ext) || s.lineAt p r.place)

/-- The patrol of a stack reads a line beyond ECC: marked, and logged with its pseudo-channel (R315). -/
def State.patrolStack (s : State) (p : Nat) : State :=
  match s.mem.faulty.find? (fun l => s.lineAt p l && !s.mem.poison.contains l && !s.unscrubbed l) with
  | none => s
  | some l => ({ s with mem := s.mem.mark l } : State).logRec .poison (l * 64) p s.cycle.toNat

/-- The core, of those that run a strand, whose burst a slot carries in this step, if any (R305): timing, a free value. -/
def State.slotCore (s : State) : Option Nat :=
  let c := Config.slotTaker s.stepNo
  if c < 768 ∧ (s.coreAt c).job.isSome = true then some c else none

/-- The cluster core whose own slot the `k`-th of a calendar is: the owned slots of a cluster go round its four cores
(R305). -/
def slotOwner (b : List Byte) (k : Nat) : Option Nat :=
  let code := (b.getD k 0xFF).toNat
  if code < 192 then some (4 * code + slotsOf (b.take k) code % 4) else none

/-- A core may reclaim a slot that stays idle (R305): of its own cluster, of a cluster of the same partition, or of a
class or no one. -/
def State.reclaims (s : State) (b : List Byte) (k c : Nat) : Bool :=
  let code := (b.getD k 0xFF).toNat
  decide (192 ≤ code) || code == clusterOf c ||
    ((s.partOfCluster code).isSome && s.partOfCluster code == s.partOfCluster (clusterOf c))

/-- The burst that a slot carries for a cluster counted for the function whose strand's it is (R472): in the core's own
slot, or in one that it reclaims. What the access does, it did when it was made (log 35). -/
def State.slotBurst (s : State) (p k : Nat) : State :=
  let b := calBytes s.cal.installed p
  match s.slotCore with
  | none => s
  | some c =>
    if slotOwner b k = some c then s.countFor (s.coreAt c).job 0x41 1
    else if s.reclaims b k c then s.countFor (s.coreAt c).job 0x42 1
    else s

/-- REFRESH_FORCED (R309): the burst in progress is cut, which the function that meets the cut counts (R472), and REFCUT of
the pseudo-channel rises. -/
def execRefreshForced (p : Nat) (k : Nat) (s : State) : Outcome :=
  .next { s.slotCore.elim s (fun c => s.countFor (s.coreAt c).job 0x43 1) with cal := { s.cal with
    refcut := insertKey s.cal.refcut p (BitVec.ofNat 32 (satAdd 0xFFFFFFFF ((lookup s.cal.refcut p).getD 0).toNat 1))
    postponed := eraseKey s.cal.postponed (p * 64 + k) } }

/-! ## Tenant identifiers and extents (R301, R310) -/

/-- PAT_CHANGE (R310): GO is ignored while a change is in progress. -/
def execPatChange (v : Word) (s : State) : Outcome :=
  .next (s.hostWrite (fun s =>
    if s.xl.patBusy || !v.getLsbD 63 then s else { s with xl := { s.xl with patBusy := true, patop := v } }))

/-- Whether a VALID page covers an extent (R310). Extents are 512 frames. -/
def Xlat.covered (x : Xlat) (e : Nat) : Bool :=
  x.entries.any (fun p => p.2.valid &&
    decide (p.1 < (e + 1) * 512 ∧ e * 512 < p.1 + 2 ^ (pageBits p.2.size.toNat - 16)))

/-- The code of R310 for giving extent `e` of all to an owner; 0 where the change takes effect. -/
def State.patCheck (s : State) (bm : Bool) (ix owner : Nat) : Nat :=
  let e := if bm then 32768 + ix else ix
  let x := s.xl.extent e
  let nb := (if ix = 0 then [] else [e - 1]) ++ (if bm then (if ix < 511 then [e + 1] else []) else
    (if ix < 32767 then [e + 1] else []))
  if bm ∧ 512 ≤ ix then 6
  else if 1 ≤ owner ∧ owner ≤ 0xFE ∧ (s.xl.tid owner).state ≠ .live then 1
  else if x.owner ≠ 0 ∧ owner ≠ 0 ∧ x.owner.toNat ≠ owner then 2
  else if owner ≠ 0 ∧ nb.any (fun n => (s.xl.extent n).owner.toNat != 0 && (s.xl.extent n).owner.toNat != owner) then 3
  else if owner = 0 ∧ x.owner ≠ 0 ∧ (s.xl.covered e = true ∨ x.scrub ≠ 0) then 4
  else if owner ≠ 0 ∧ bm = false ∧ s.xl.capacity ≤ ix * 2 ^ 25 then 5
  else 0

/-- PAT_CHANGE_DONE (R310). -/
def execPatChangeDone (s : State) : Outcome :=
  .next (if !s.xl.patBusy then s
    else
      let v := s.xl.patop.toNat
      let owner := bits v 23 16
      let bm := bit v 15
      let ix := bits v 14 0
      let c := s.patCheck bm ix owner
      let e := if bm then 32768 + ix else ix
      let x := { s.xl with patBusy := false, patCode := BitVec.ofNat 3 c }
      if c ≠ 0 then { s with xl := x }
      else
        let x := { x with extents := insertKey x.extents e { s.xl.extent e with owner := BitVec.ofNat 8 owner } }
        ({ s with xl := x } : State).settleTids)

/-! ## Translation (R298, R300) -/

/-- XLINV (R300): GO is ignored while an invalidation is in progress. -/
def execXlinv (v : Word) (s : State) : Outcome :=
  .next (s.hostWrite (fun s =>
    if s.xl.xlBusy || !v.getLsbD 63 then s else { s with xl := { s.xl with xlBusy := true, xlinv := v } }))

/-- A tenant address that the invalidation in progress covers (R300). -/
def Xlat.invalidates (x : Xlat) (t ta : Nat) : Bool :=
  let v := x.xlinv.toNat
  let z := bits v 57 56
  t == bits v 55 48 && (bit v 62 || bits v 47 16 / 2 ^ (pageBits z - 16) == ta / 2 ^ pageBits z)

/-- A store of a core is still buffered under a translation that the invalidation covers (R300). -/
def State.heldBack (s : State) (c : Core) : Bool :=
  c.runs (fun j => c.sbuf.any (fun e =>
    decide (2 ≤ e.view.kind) && e.view.local_ && s.xl.invalidates j.tenant (e.view.base + e.view.off)))

/-- XLINV_COMPLETE (R300): no cache holds the entry, or any entry of the tenant. The invalidation is not over while a
store translated before is buffered or an addition translated before is still to be made, and the dirty lines of the
tenant's cores are written back at their old places first, once none of them waits for the memory (R442, R455). -/
def execXlinvComplete (s : State) : Outcome :=
  .next (if !s.xl.xlBusy || (s.core :: s.parked.map (fun p => p.2)).any s.heldBack || !s.links.adds.isEmpty then s
    else
      let v := s.xl.xlinv.toNat
      let t := bits v 55 48
      let z := bits v 57 56
      let vpn := bits v 47 16
      let hit (e : XlEntry) : Bool :=
        e.tenant == t && (bit v 62 || (e.size == z && e.vpn == vpn / 2 ^ (pageBits z - 16)))
      let mine (c : Core) : Bool := c.runs (fun j => j.tenant == t)
      s.onceLoose mine (fun s =>
        let s := (s.writeBackCores mine).onCores (fun c =>
          if mine c then { c with lines := c.lines.map (fun l => { l with dirty := 0 }) } else c)
        { s with xl := { s.xl with xlBusy := false, cache := s.xl.cache.filter (fun e => !hit e) } }))

/-- Frames of the device (R291). -/
def frames : Nat := 2 ^ 24 + 2 ^ 18

/-- An entry of the inverted page table read from its 16 bytes (R294). -/
def IptEntry.read (b : List Byte) : IptEntry :=
  ⟨BitVec.ofNat 32 (field b 0 4), BitVec.ofNat 8 (field b 4 1), bit (field b 5 1) 7, bit (field b 5 1) 6,
    BitVec.ofNat 2 (field b 5 1), BitVec.ofNat 4 (field b 6 1), BitVec.ofNat 25 (field b 8 4)⟩

/-- The reserved fields of an entry are zero (R294). -/
def iptReserved (b : List Byte) : Bool :=
  bits (field b 5 1) 5 2 == 0 && field b 6 1 / 16 == 0 && field b 7 1 == 0 && field b 8 4 / 2 ^ 25 == 0 && field b 12 4 == 0

/-- A link names the end of the chain or a frame of its slice (R298). -/
def linkOk (slice l : Nat) : Bool := l == linkEnd || (l % 16 == slice && decide (l < frames))

/-- The extent of a frame: 512 frames each, BM after HBM (R310). -/
def extentOf (f : Nat) : Nat := f / 512

/-- The checks of R298 on a write of the entry of frame `f`. -/
def State.entryOk (s : State) (f : Nat) (b : List Byte) : Bool :=
  let e := IptEntry.read b
  let old := s.xl.entry f
  let n := 2 ^ (pageBits e.size.toNat - 16)
  let exts := (List.range ((f + n - 1) / 512 + 1 - f / 512)).map (fun i => f / 512 + i)
  iptReserved b && linkOk (f % 16) e.link.toNat &&
    (!e.valid ||
      ((s.xl.tid e.tenant.toNat).state == .live && f % n == 0 &&
        (if f < 2 ^ 24 then decide ((f + n) * 65536 ≤ s.xl.capacity)
          else decide (f + n ≤ frames) && e.size != 3) &&
        exts.all (fun x => (s.xl.extent x).owner == e.tenant))) &&
    (!old.lock || old == e || (s.xl.tid old.tenant.toNat).state == .retiring)

/-- A write of the walk aperture dropped (R298). -/
def State.apertureDrop (s : State) (place : Nat) : State :=
  { s with xl := { s.xl with xlErr := true, xlWhere := BitVec.ofNat 25 place } }

/-- The entries or anchors of a line of walk space that nothing has written read as empty (R444). -/
def Xlat.blank (x : Xlat) (line : Nat) (written : List Nat) : Xlat :=
  let other (l : Nat → Nat) (p : Nat) : Bool := l p == line && !written.contains p
  if line % 2 ^ 21 < 2 ^ 12 then { x with anchors := x.anchors.filter (fun a => !other anchorLine a.1) }
  else { x with entries := x.entries.filter (fun e => !other entryLine e.1) }

/-- A line of walk space about to take a write of place `p`: a poisoned one is cleared, at once or, while its slice
is being copied, in the copy (R444). -/
def State.mendWalk (s : State) (line p : Nat) : State :=
  let x := if s.xl.walkBad.contains line then { s.xl.blank line [p] with walkBad := eraseNum s.xl.walkBad line } else s.xl
  { s with
    xl := x
    sweep := { s.sweep with
      slice := if s.sweep.retiringNow && s.sweep.retiring == some (s.xl.whome.getD (line / 2 ^ 21) 16) then
          insertKey s.sweep.slice line (insertNum ((lookup s.sweep.slice line).getD []) p)
        else s.sweep.slice
      lost := s.sweep.lost.map (fun l => if l.1 = line then (l.1, insertNum l.2 p) else l) } }

/-- A host write of the walk aperture (R298): whole entries and anchors, checked, or dropped. -/
def State.apertureWrite (s : State) (off : Nat) (b : List Byte) : State :=
  let i := off / 2 ^ 27
  let w := off % 2 ^ 27
  let bucket := w / 4 * 16 + i
  let f := (w - 2 ^ 20) / 16 * 16 + i
  if 16 ≤ i then s.apertureDrop linkEnd
  else if w < 2 ^ 18 then
    let v := field b 0 4
    if b.length ≠ 4 ∨ w % 4 ≠ 0 ∨ ¬(v = 0xFFFFFFFF ∨ linkOk i v = true) then s.apertureDrop bucket
    else
      let s := s.mendWalk (anchorLine bucket) bucket
      { s with xl := { s.xl with anchors :=
        if v = 0xFFFFFFFF then eraseKey s.xl.anchors bucket else insertKey s.xl.anchors bucket v } }
  else if w < 2 ^ 20 ∨ frames ≤ f then s.apertureDrop linkEnd
  else if b.length ≠ 16 ∨ w % 16 ≠ 0 ∨ s.entryOk f b = false then s.apertureDrop f
  else
    let e := IptEntry.read b
    let s := s.mendWalk (entryLine f) f
    ({ s with xl := { s.xl with entries :=
        if e = IptEntry.empty then eraseKey s.xl.entries f else insertKey s.xl.entries f e } } : State).settleTids

/-- WALK_APERTURE_WRITE (R298). -/
def execWalkApertureWrite (off : Nat) (bytes : List Byte) (s : State) : Outcome :=
  .next (s.hostWrite (fun s => s.apertureWrite off bytes))

/-! ## Page requests (R417) -/

/-- Commands of a core that were paused on an entry changed. -/
def Core.unpause (c : Core) (e : Nat) (f : Cmd → Cmd) : Core :=
  let g (x : Cmd) : Cmd := if x.paused = some e then f { x with paused := none } else x
  { c with vq := c.vq.map g, mq := c.mq.map g, pq := c.pq.map g, cq := c.cq.map g }

/-- An operation on every core, and on every save in the pools. -/
def State.onAll (s : State) (f : Core → Core) : State :=
  let s := s.onCores f
  { s with work := { s.work with pool := s.work.pool.map (fun r => { r with save := r.save.map f }) } }

/-- Queued launches that wait for an entry changed. -/
def State.onWaiting (s : State) (e : Nat) (f : Queued → Queued) : State :=
  { s with work := { s.work with queues := s.work.queues.map (fun p =>
      (p.1, p.2.map (fun q => if q.waitsFor = some e then f { q with waitsFor := none } else q))) } }

/-- The header records that wait for an entry are tried again; where it was refused, none is written (R417, R478). -/
def State.onFinishing (s : State) (e : Nat) (refused : Bool) : State :=
  { s with work := { s.work with finishing := s.work.finishing.map (fun l =>
      if l.2 = .page e then (if refused then { l.1 with hdrView := none } else l.1, .due) else l) } }

/-- The replays and the exchanges that wait for an entry go on; where it was refused, a node's NPRED counts as
unreadable, and an exchange ends with HANDLE_RIGHTS (R105, R127, R417). -/
def State.onPlans (s : State) (e : Nat) (refused : Bool) : State :=
  let gone (r : Replay) : List Nat := if refused then (r.waits.filter (fun w => w.2 == e)).map (fun w => w.1) else []
  let f (r : Replay) : Replay := { r with waits := r.waits.filter (fun w => w.2 != e), refused := r.refused ++ gone r }
  let s : State := { s with replays := s.replays.map f }
  let ls := s.work.launches.filter (fun l => l.planPage.any (fun p => p.1 == e))
  ls.foldl (fun s l =>
    let k := (l.planPage.map (fun p => p.2)).getD 0
    if refused then (s.upLaunch l.num (fun l => { l with planPage := some (noEntry, k) })).planFails l.num k 3
    else s.upLaunch l.num (fun l => { l with planPage := none })) s

/-- An entry closed: it leaves the queue. -/
def State.dropRequest (s : State) (e : Nat) : State := { s with xl := { s.xl with prq := eraseKey s.xl.prq e } }

/-- A page-request entry is open. -/
def State.isOpen (s : State) (e : Nat) : Bool := (lookup s.xl.prq e).isSome

/-- PAGE_REQUEST_CLOSE (R417). -/
def execPageRequestClose (e : Nat) (s : State) : Outcome :=
  .next (s.hostWrite (fun s =>
    if !s.isOpen e then s
    else
      let s := (s.dropRequest e).onAll (fun c => c.unpause e id)
      (s.onCores (fun c => if c.stall = .page e then { c with stall := .none } else c)).onWaiting e id |>.onPlans e false |>.onFinishing e false))

/-- A strand that waited for a refused page traps at its region start (R417); where that page held the entry of its
supervisor, the trap has failed (R418). -/
def State.refusedPage (s : State) : State :=
  if s.core.entering then s.failedEntry
  else
    (s.upCore (fun c => { c with stall := .none })).trapEntry 3 ((s.core.awaits.map (fun m => m.info)).getD 0) s.core.pc
      true false

/-- The cores that wait for an entry. -/
def State.waitingOn (s : State) (e : Nat) : List Nat :=
  (s.coreId :: s.parked.map (fun p => p.1)).filter (fun c => (s.coreAt c).stall == .page e)

/-- PAGE_REQUEST_REFUSE (R417). -/
def execPageRequestRefuse (e : Nat) (s : State) : Outcome :=
  .next (s.hostWrite (fun s =>
    if !s.isOpen e then s
    else
      let cores := s.waitingOn e
      let s := (s.dropRequest e).onAll (fun c => c.unpause e (fun x => { x with fail := some (3, 0) }))
      let s := ((s.onWaiting e (fun q => { q with refused := true })).onPlans e true).onFinishing e true
      cores.foldl (fun s c => s.on c State.refusedPage) s))

/-! ## Save areas (R430) -/

/-- The save-area register of a tenant. -/
def State.saveArea (s : State) (t : Nat) : SaveArea := (lookup s.host.save t).getD ⟨0, 0, 0⟩

/-- A save-area register changed. -/
def State.upSave (s : State) (t : Nat) (f : SaveArea → SaveArea) : State :=
  { s with host := { s.host with save := insertKey s.host.save t (f (s.saveArea t)) } }

/-- Writes to a save-area register are ignored while STATE is OK and its tenant is not RETIRING (R430). -/
def State.saveLocked (s : State) (t : Nat) : Bool := (s.saveArea t).state == 2 && (s.xl.tid t).state != .retiring

/-- SAVE_AREA_CHECK (R430). -/
def execSaveAreaCheck (t : Nat) (s : State) : Outcome :=
  .next (s.hostWrite (fun s => if s.saveLocked t then s else s.upSave t (fun a => { a with state := 1 })))

/-- A page of a tenant is locked HBM with RD and W (R430). -/
def State.lockedPage (s : State) (t ta : Nat) : Bool :=
  match s.walk t ta 3 with
  | .miss _ => false
  | .at _ _ r lock => lock && r.getLsbD 0 && r.getLsbD 1

/-- The tenant addresses of the 64 KiB pieces of a save area (R430). -/
def State.savePieces (s : State) (t : Nat) : List Nat :=
  let a := s.saveArea t
  (List.range (a.size.toNat * 32)).map (fun i => bits a.base.toNat 47 21 * 2 ^ 21 + 65536 * i)

/-- GO's conditions (R430). -/
def State.saveAreaPasses (s : State) (t : Nat) : Bool :=
  let a := s.saveArea t
  (s.xl.tid t).state == .live && (s.savePieces t).all (s.lockedPage t) &&
    match s.partOf (s.xl.tid t).fn with
    | none => false
    | some p =>
      decide (5 * (s.partCores p).length * 2 ^ 19 + (s.partClusters p).length * 2 ^ 24 ≤ a.size.toNat * 2 ^ 21)

/-- The check of a save area stands at a piece whose walk waits for a slot (R16). -/
def State.saveCheckWaits (s : State) (t : Nat) : Bool :=
  (s.xl.tid t).state == .live &&
    ((s.savePieces t).find? (fun ta => !s.lockedPage t ta)).any (fun ta => s.walk t ta 3 == .miss 8)

/-- SAVE_AREA_CHECK_DONE (R430); a walk that met a poisoned line is logged (R444). -/
def execSaveAreaCheckDone (t : Nat) (s : State) : Outcome :=
  .next (if (s.saveArea t).state = 1 ∧ s.saveCheckWaits t = false then
      let ok := s.saveAreaPasses t
      let s := if (s.xl.tid t).state = .live then s.logWalks t 3 (s.savePieces t) else s
      s.upSave t (fun a => { a with state := if ok then 2 else 3 })
    else s)

/-! ## Profiling (R471 to R473) -/

/-- The identifiers LN-AZK768 implements (R472). -/
def eventIds : List Nat := [0x01, 0x02, 0x10, 0x20, 0x30, 0x40, 0x41, 0x42, 0x43, 0x50, 0x51, 0x52]

/-- PMEVT_WRITE (R471, R473): an unavailable EVENT sets UNAVAIL, and its counter reads zero. -/
def execPmevtWrite (f : Nat) (i : Nat) (v : Word) (s : State) : Outcome :=
  .next (if 8 ≤ i ∨ f = physFn ∨ s.mailOpen f = false then s
    else
      let id := v.toNat % 65536
      let un := !eventIds.contains id
      let w := BitVec.ofNat 64 (b2n (v.getLsbD 63) * 2 ^ 63 + b2n un * 2 ^ 62 + id)
      s.upFn f (fun n => { n with
        pmevt := upd 0 n.pmevt i w
        pmcnt := if un then upd 0 n.pmcnt i 0 else n.pmcnt }))

/-! ## Plain registers (R6) -/

/-- The low 32 bits of a written value. -/
def lowW (v : Word) : Nat := v.toNat % 2 ^ 32

/-- Bytes of a byte array replaced. -/
def spliceBytes (l : List Byte) (off : Nat) (bs : List Byte) : List Byte :=
  let l := if l.length < off + bs.length then l ++ List.replicate (off + bs.length - l.length) 0 else l
  l.take off ++ bs ++ l.drop (off + bs.length)

/-- A write of MBDOOR (R31, R32): it submits the command that MBCMD and the buffer hold, which its own act serves in
its turn, or the trust core itself where no act does. -/
def State.doorbell (s : State) (f : Nat) (v : Word) : State :=
  let m := (s.fn f).mbox
  if !v.getLsbD 0 || !s.mailOpen f then s
  else if m.busy then s.upFn f (fun n => { n with mbox := { n.mbox with status := 1 } })
  else (s.upFn f (fun n => { n with mbox := n.mbox.ring ⟨n.mbox.cmd, n.mbox.len, n.mbox.buf⟩ })).serveUnknown 33

/-- Registers every function has: mailbox, launch window, completion ring, counters (R31, R99, R477, R471). A write of CQCFG
with SIZE 11 to 15 is ignored whole, BASE with it (log 105). -/
def State.writeFnReg (s : State) (f off : Nat) (v : Word) : State :=
  let up := s.upFn f
  if off = 0 then
    up (fun n => { n with mbox := { n.mbox with cmd := BitVec.ofNat 8 (bits v.toNat 23 16), len := BitVec.ofNat 13 v.toNat } })
  else if off = 4 then up (fun n => { n with mbox := { n.mbox with done := n.mbox.done && !v.getLsbD 30 } })
  else if off = 8 then s.doorbell f v
  else if 0x1000 ≤ off ∧ off + 8 ≤ 0x2000 then
    up (fun n => { n with mbox := { n.mbox with buf := spliceBytes n.mbox.buf (off - 0x1000) (leBytes 8 v.toNat) } })
  else if f = physFn then s
  else if 0x2000 ≤ off ∧ off + 8 ≤ 0x2800 then
    up (fun n => { n with slots := spliceBytes n.slots (off - 0x2000) (leBytes 8 v.toNat) })
  else if off = 0x2800 then
    (up (fun n => { n with lqRefused := n.lqRefused && !v.getLsbD 31 })).launchSubmit f (v.toNat % 128)
  else if off = 0x2880 then
    let b := BitVec.ofNat 52 (v.toNat / 4096)
    let z := BitVec.ofNat 4 v.toNat
    let n := s.fn f
    if 10 < z.toNat ∨ (b = n.cqBase ∧ z = n.cqSize) then s
    else if s.frozen f then s.toError f
    else up (fun n => { n with cqBase := b, cqSize := z })
  else if off = 0x2888 then
    let n := s.fn f
    let h := bits v.toNat 48 32 % (2 * n.cqRecords)
    let d := (n.cqTail.toNat + 2 * n.cqRecords - h) % (2 * n.cqRecords)
    if n.cqHeld < d ∨ n.cqHead.toNat = h then s
    else if n.tdisp = .locked then s.toError f
    else up (fun n => { n with cqHead := BitVec.ofNat 17 h })
  else if 0x3000 ≤ off ∧ off < 0x3080 ∧ off % 16 = 8 then
    let i := (off - 0x3000) / 16
    up (fun n => { n with pmcnt := if (n.pmevt.getD i 0).getLsbD 62 then n.pmcnt else upd 0 n.pmcnt i (BitVec.ofNat 48 v.toNat) })
  else s

/-- The debug port's plain registers (R459, R465); they work in DEBUG alone. -/
def State.writeDbgReg (s : State) (off : Nat) (v : Word) : State :=
  if !s.trust.debugOpen then s
  else if off = 0x8008 then { s with dbg := { s.dbg with err := s.dbg.err && !v.getLsbD 60 } }
  else if off = 0x8010 then { s with dbg := { s.dbg with reg := v } }
  else if off = 0x8030 then
    { s with dbg := { s.dbg with log := BitVec.ofNat 64 (bits v.toNat 34 24 * 2 ^ 24 + bits v.toNat 8 0) } }
  else if off = 0x8040 then
    let keep := BitVec.ofNat 64 (bits v.toNat 39 24 * 2 ^ 24 + bits v.toNat 8 0)
    let en := v &&& s.dbg.trcctl &&& BitVec.ofNat 64 (2 ^ 63)
    { s with dbg := { s.dbg with trcctl := keep ||| en } }
  else if 0x8060 ≤ off ∧ off < 0x80C0 ∧ off % 8 = 0 then
    let i := (off - 0x8060) / 8
    let m := BitVec.ofNat 768 ((2 ^ 64 - 1) * 2 ^ (64 * i))
    { s with dbg := { s.dbg with trcmask := (s.dbg.trcmask &&& ~~~m) ||| BitVec.ofNat 768 (v.toNat * 2 ^ (64 * i)) } }
  else s

/-- Registers of the physical function alone. RES of FNBUDGET is kept as written (R110; assumption 91). -/
def State.writePhysReg (s : State) (off : Nat) (v : Word) : State :=
  if 0x4000 ≤ off ∧ off + 8 ≤ 0x4800 then
    { s with part := { s.part with descr := spliceBytes (fixLen 2048 s.part.descr) (off - 0x4000) (leBytes 8 v.toNat) } }
  else if 0x4810 ≤ off ∧ off + 8 ≤ 0x4870 ∧ off % 8 = 0 then
    let i := (off - 0x4810) / 8
    { s with part := { s.part with fence := s.part.fence ||| BitVec.ofNat 768 (v.toNat * 2 ^ (64 * i)) } }
  else if 0x4900 ≤ off ∧ off < 0x4A00 ∧ off % 8 = 0 then
    { s with part := { s.part with budget := upd budgetReset s.part.budget ((off - 0x4900) / 8) v } }
  else if 0x5100 ≤ off ∧ off < 0x5900 ∧ off % 8 = 0 then
    let t := (off - 0x5100) / 8
    { s with xl := { s.xl with tids := insertKey s.xl.tids t { s.xl.tid t with hint := BitVec.ofNat 4 v.toNat } } }
  else if off = 0x5908 then { s with xl := { s.xl with xlErr := s.xl.xlErr && !v.getLsbD 62 } }
  else if off = 0x5C00 then
    if s.cal.busy then s
    else if v.toNat % 4 = 3 then { s with cal := { s.cal with code := 5 } }
    else if v.toNat % 4 = 1 then s.calGo
    else if v.toNat % 4 = 2 then s.calPost
    else s
  else if 0x5E00 ≤ off ∧ off < 0x6E00 ∧ off % 8 = 0 then
    let t := (off - 0x5E00) / 16
    if s.saveLocked t then s
    else if off % 16 = 0 then s.upSave t (fun a => { a with base := BitVec.ofNat 64 (bits v.toNat 47 21 * 2 ^ 21) })
    else s.upSave t (fun a => { a with size := BitVec.ofNat 24 v.toNat })
  else if 0x7200 ≤ off ∧ off < 0x7300 ∧ off % 8 = 0 then
    let g := (off - 0x7200) / 8
    if s.frozen g then s else s.upFn g (fun n => { n with zero := v.getLsbD 0 })
  else if 0x8000 ≤ off ∧ off < 0x8100 then s.writeDbgReg off v
  else if 0x100000 ≤ off ∧ off + 8 ≤ 0x140000 then
    let p := (off - 0x100000) / 256
    { s with cal := { s.cal with
        pending := insertKey s.cal.pending p (spliceBytes (calBytes s.cal.pending p) (off % 256) (leBytes 8 v.toNat)) } }
  else if 0x1F0000 ≤ off ∧ off < 0x1F0084 ∧ off % 4 = 0 then
    let g := (off - 0x1F0000) / 4
    let w := BitVec.ofNat 8 v.toNat
    if (s.fn g).weight = w then s
    else if s.frozen g then s.toError g
    else s.upFn g (fun n => { n with weight := w })
  else s

/-- REGISTER_WRITE (R6): a plain register under its access codes; one that has none, or a read-only one, ignores
the write. No function is reached before the host link is up, and in the recovery loop the physical one alone (R25,
R26). -/
def execRegisterWrite (f : Nat) (off : Nat) (v : Word) (s : State) : Outcome :=
  .next (if !s.mailOpen f then s else if f = physFn ∧ 0x4000 ≤ off then s.writePhysReg off v else s.writeFnReg f off v)

/-- The key of a line for the host on behalf of a function: that of the tenant that owns the extent, when its context
is one of the function's; else none of any tenant (log 36). -/
def State.hostKey (s : State) (f line : Nat) : Nat :=
  let owner := (s.xl.extent (extentLine line).1).owner.toNat
  match s.work.ctxs.find? (fun c => c.tenant == owner && c.fn == f) with
  | some c => s.keyFor c line
  | none => 0

/-! ## The host's accesses to HBM (R397) -/

/-- The bytes an access of the host moves. -/
def hostSize (q : Nat × Nat × Option (List Byte)) : Nat :=
  match q.2.2 with
  | some bs => bs.length
  | none => 64

/-- How the host's last access ended (R15, R313). -/
def State.hostEnds (s : State) (st : Nat) : State := { s with host := { s.host with access := st } }

/-- A host read or write of HBM for a function: at or above CAPACITY it faults with BEYOND_CAPACITY (R15), at a
poisoned line with POISON_CONSUMED (R313, R314). -/
def State.hostAccess (s : State) (f pa : Nat) (wr : Option (List Byte)) : State :=
  if s.xl.capacity < pa + hostSize (f, pa, wr) then s.hostEnds 8
  else
    match wr with
    | some bs =>
      match s.ordWrite (s.hostKey f) pa bs 0 with
      | .ok s => s.hostEnds 0
      | .error (_, s) => s.hostEnds 9
    | none =>
      match s.ordRead (s.hostKey f) pa 64 0 with
      | .ok _ => s.hostEnds 0
      | .error (_, s) => s.hostEnds 9

/-- What an access of the host waits for (R442, R455); one that faults waits for nothing (R15). -/
def State.hostWaits (s : State) (q : Nat × Nat × Option (List Byte)) : Option Stall :=
  if s.xl.capacity < q.2.1 + hostSize q then none
  else if q.2.2.isSome then s.writeWaits q.2.1 (hostSize q) else (s.transit? q.2.1 (hostSize q)).map .transit

/-- An access of the host may be served: it faults, or its pseudo-channel has a host-class slot and it waits for nothing
(R305, R397, R442, R455). -/
def State.hostReady (s : State) (q : Nat × Nat × Option (List Byte)) : Bool :=
  decide (s.xl.capacity < q.2.1 + hostSize q) ||
    (decide (0 < slotsOf (calBytes s.cal.installed (s.homeOf (q.2.1 / 64))) 0xC3) && (s.hostWaits q).isNone)

/-- The deficit round robin among functions with an access ready, from the function whose turn it is: each turn adds a
quantum of 4 KiB times the weight, and one whose access fits what it may have served is served. -/
def deficitTurn (fs : List Nat) (size quantum : Nat → Nat) : Nat → Nat → List (Nat × Nat) → Nat × List (Nat × Nat)
  | 0, f, d => (f, d)
  | k + 1, f, d =>
    if fs.contains f ∧ size f ≤ (lookup d f).getD 0 then (f, d)
    else
      let g := (f + 1) % 33
      deficitTurn fs size quantum k g (if fs.contains g then insertKey d g ((lookup d g).getD 0 + quantum g) else d)

/-- The function whose access is served next of those that meet a condition, and the deficits then (R397): a function of
weight 0 only when no other has an access ready; one that alone has any waits for no turn. -/
def State.hostPick (s : State) (p : Nat × Nat × Option (List Byte) → Bool) : Option (Nat × List (Nat × Nat)) :=
  let ready := s.host.queue.filter p
  let all := ((List.range 33).filter (fun f => ready.any (fun q => q.1 == f)))
  let some_ := all.filter (fun f => (s.fn f).weight != 0)
  let fs := if some_.isEmpty then all else some_
  let size (f : Nat) : Nat := ((ready.find? (fun q => q.1 == f)).map hostSize).getD 0
  match fs with
  | [] => none
  | [f] => some (f, s.host.deficits)
  | _ =>
    let rounds := fs.foldl (fun n f => n + size f / 4096) 2
    some (deficitTurn fs size (fun f => 4096 * max 1 (s.fn f).weight.toNat) (33 * rounds) s.host.turn s.host.deficits)

/-- One waiting access that meets a condition served: the oldest of the function picked, what it moved taken from the
function's deficit, which is void once nothing of it waits (R397). -/
def State.hostServe (s : State) (p : Nat × Nat × Option (List Byte) → Bool) : State :=
  match s.hostPick p with
  | none => s
  | some (f, d) =>
    match s.host.queue.find? (fun q => q.1 == f && p q) with
    | none => s
    | some q =>
      let l := s.host.queue.erase q
      let left := (lookup d f).getD 0 - hostSize q
      let d := if l.any (fun x => x.1 == f) then insertKey d f left else eraseKey d f
      ({ s with host := { s.host with queue := l, deficits := d, turn := f } } : State).hostAccess f q.2.1 q.2.2

/-- Every access that can be served now, one after the other. -/
def State.hostServeAll : Nat → State → State
  | 0, s => s
  | n + 1, s => State.hostServeAll n (s.hostServe s.hostReady)

/-- Accesses that wait for the memory noted (R455, R458). -/
def State.hostStalls (s : State) : State :=
  s.host.queue.foldl (fun s q => (s.hostWaits q).elim s (s.noteHeld 769 (q.1 * 2 ^ 48 + q.2.1))) s

/-- HOST_MEMORY_ACCESS (R15, R397): the access joins those that wait, and what can be served is. -/
def execHostMemoryAccess (f : Nat) (pa : Nat) (wr : Option (List Byte)) (s : State) : Outcome :=
  .next (if s.mailOpen f then
      let s : State := { s with host := { s.host with queue := s.host.queue ++ [(f, pa, wr)] } }
      State.hostServeAll s.host.queue.length s.hostStalls
    else s)

end Sys2Proof.Machine
end

