-- ==== Sys2Proof/Machine/Sweeps.lean ====
section
/-! DEFINITION. The sweeps: stack retirement, key rotation, scrub, patrol, and soft errors (21; 12 R315; 20
R434). -/

namespace Sys2Proof.Machine

/-! ## Stack retirement (R437 to R445) -/

/-- A result code of SWCAP or SWRET. -/
def State.swResult (s : State) (c : Nat) : State := { s with sweep := { s.sweep with swCode := BitVec.ofNat 4 c } }

/-- SWCAP (R437): the refusals in the order of their codes. -/
def State.lowerCapacity (s : State) (n : Nat) : State :=
  if s.xl.capacity / 2 ^ 25 < n ∨ n < 16384 then s.swResult 1
  else if s.xl.extents.any (fun p => decide (n ≤ p.1) && decide (p.1 < 32768) && p.2.owner != 0) then s.swResult 2
  else if s.sweep.retiringNow then s.swResult 7
  else ({ s with xl := { s.xl with capacity := n * 2 ^ 25 } } : State).swResult 0

/-- SWCAP (R437). -/
def execSwcap (v : Word) (s : State) : Outcome :=
  .next (s.hostWrite (fun s => if v.getLsbD 63 then s.lowerCapacity (bits v.toNat 15 0) else s))

/-- The check of R438 that refuses a retirement first; 0 when none does. -/
def State.retireCheck (s : State) (st stage : Nat) : Nat :=
  let n := s.xl.surv.length
  let e := s.xl.extent (32768 + stage)
  if !s.xl.surv.contains st then 3
  else if n < 9 then 4
  else if 2 ^ 36 * (n - 1) < s.xl.capacity then 5
  else if e.owner ≠ 0xFF ∨ e.scrub ≠ 0 then 6
  else if s.sweep.retiringNow then 7
  else if (livePcs s.xl.surv).any (fun p => decide (slotsOf (calBytes s.cal.installed p) 0xC1 < 2)) then 8
  else 0

/-- Granules enter transit while the window holds fewer than 15 and any lies above the staging block (R440). -/
def Sweep.fill (w : Sweep) : Sweep :=
  let k := min (15 - w.win) (w.gran - 256)
  { w with gran := w.gran - k, win := w.win + k }

/-- The staging block enters transit once the window is empty (R440). -/
def Sweep.toStaging (w : Sweep) : Sweep :=
  if w.win = 0 ∧ w.gran ≤ 256 then { w with gran := 0, win := 256, staged := false } else w

/-- SWRET (R438, R440): PHASE.NUM odd, the replay counts cleared (R458), the mark at CAPACITY. -/
def State.startRetire (s : State) (v : Word) : State :=
  let st := bits v.toNat 3 0
  let stage := bits v.toNat 24 16
  let c := s.retireCheck st stage
  if c ≠ 0 then s.swResult c
  else
    let w := { s.sweep with
      phaseNum := s.sweep.phaseNum + 1, retiring := some st, stage := stage, gran := s.xl.capacity / 4096, win := 0,
      lost := [], slice := [], moves := [], staged := false, swCode := 0, swBusy := true, stalled := 0, refused := 0,
      stalls := [] }
    { s with sweep := w.fill }

/-- SWRET (R438). -/
def execSwret (v : Word) (s : State) : Outcome :=
  .next (s.hostWrite (fun s => if v.getLsbD 63 then s.startRetire v else s))

/-- The staging block is in transit (R440). -/
def Sweep.staging (w : Sweep) : Bool := w.gran == 0 && w.win == 256

/-- How many lines of a granule in transit are read and, beyond 64, written. -/
def Sweep.done (w : Sweep) (g : Nat) : Nat := (lookup w.moves g).getD 0

/-- A granule in transit has a line to read, or to write, on pseudo-channel `p` (R436, R440). The staging block writes
none before it has read all. -/
def State.movesAt (s : State) (p g : Nat) : Bool :=
  let w := s.sweep
  let k := w.done g
  if k < 64 then s.xl.channelOf (64 * g) == p
  else decide (k < 128) && s.after.channelOf (64 * g) == p &&
    (!w.staging || (List.range 256).all (fun i => decide (64 ≤ w.done i)))

/-- The granule whose line a slot of pseudo-channel `p` moves: the uppermost of the window that has one there. -/
def State.moveAt (s : State) (p : Nat) : Option Nat :=
  if s.sweep.retiringNow && !s.sweep.staged then
    ((List.range s.sweep.win).map (fun i => s.sweep.gran + s.sweep.win - 1 - i)).find? (s.movesAt p)
  else none

/-- A line of a granule read or written: one whose read fails ECC arrives marked poisoned (R440). No place changes, since
a granule keeps its physical address and what it holds moves verbatim. -/
def State.moveLine (s : State) (g : Nat) : State :=
  let k := s.sweep.done g
  let l := 64 * g + k
  let m := if k < 64 ∧ s.mem.faulty.contains l = true ∧ s.unscrubbed l = false then
      { s.mem.mark l with faulty := eraseNum s.mem.faulty l } else s.mem
  { s with mem := m, sweep := { s.sweep with moves := insertKey s.sweep.moves g (k + 1) } }

/-- What waited for granules that are no longer in transit goes on. -/
def Sweep.release (w : Sweep) : Sweep :=
  { w with
    moves := w.moves.filter (fun x => w.moving x.1)
    stalls := w.stalls.filter (fun x => w.moving (x.2.2 / 64)) }

/-- GRANULE_MOVE_COMPLETE (R440): the uppermost granule, all its lines written, leaves the window. -/
def execGranuleMoveComplete (s : State) : Outcome :=
  .next (let w := s.sweep
    if w.retiringNow && decide (0 < w.win) && !w.staging && !w.staged && w.done (w.gran + w.win - 1) == 128 then
      { s with sweep := ({ w with win := w.win - 1 } : Sweep).release.fill.toStaging }
    else s)

/-- The bytes the staging area holds once the staging block has passed it: ciphertext (log 37). -/
def State.stageBytes (s : State) : List Byte := (List.range (2 ^ 20)).map (Config.stageByte s.drawn)

/-- STAGING_BLOCK_MOVE (R440): the lowest 256 granules have moved through the staging area, the first 1 MiB of BM extent
STAGE. -/
def execStagingBlockMove (s : State) : Outcome :=
  .next (let w := s.sweep
    if w.retiringNow && w.staging && !w.staged && (List.range 256).all (fun g => w.done g == 128) then
      let t : State := { s with sweep := ({ w with win := 0, staged := true } : Sweep).release, drawn := s.drawn + 1 }
      t.platformWrite (bmBase + w.stage * 2 ^ 25) s.stageBytes
    else s)

/-- The calendars after a retirement (R307, R445): the held set, or without the stack's slots the set that waits for
the boundary, or the installed one. -/
def State.calAfter (s : State) (st : Nat) : List (Nat × List Byte) :=
  match s.cal.post with
  | some l => l
  | none => (s.cal.staged.getD s.cal.installed).filter (fun p => p.1 / 64 != st)

/-- Walk space at the adopter after a retirement: a line that could not be read is poisoned, but one written since
holds what was written (R444). -/
def Xlat.adopt (x : Xlat) : List (Nat × List Nat) → Xlat
  | [] => x
  | (line, ws) :: l =>
    (if ws = [] then { x with walkBad := insertNum x.walkBad line } else x.blank line ws : Xlat).adopt l

/-- RETIREMENT_END (R445): SURV, SURVN and WHOME as one unit, PHASE.NUM even, the calendars at the next
boundary. -/
def execRetirementEnd (s : State) : Outcome :=
  .next (match s.sweep.retiring with
    | none => s
    | some st =>
      if !(s.sweep.retiringNow && s.sweep.staged) then s
      else
        let surv := s.xl.surv.filter (fun x => x != st)
        let home := (List.range 16).foldl (fun h i =>
          if h.getD i 0 = st then upd 0 h i (adopter surv (h.filter (fun x => x != st)) st) else h) s.xl.whome
        ({ s with
          xl := { s.xl.adopt s.sweep.lost with surv := surv, whome := home }
          sweep := { s.sweep with phaseNum := s.sweep.phaseNum + 1, gran := 0, win := 0, swBusy := false, staged := false, lost := [], slice := [] }
          cal := { s.cal with staged := some (s.calAfter st), post := none, busy := true } } : State).raise physFn 2)

/-! ## Key rotation (R446 to R449) -/

/-- A tenant's rotation register changed. -/
def State.upRot (s : State) (t : Nat) (f : Rotation → Rotation) : State :=
  { s with sweep := { s.sweep with rot := insertKey s.sweep.rot t (f (s.rotation t)) } }

/-- KEY_ROTATION_START (R446, R448): the checks in the order 1, 3, 2. -/
def execKeyRotationStart (t : Nat) (s : State) : Outcome :=
  .next (s.hostWrite (fun s =>
    if (s.xl.tid t).state ≠ .live then s.upRot t (fun r => { r with code := 1 })
    else if (s.rotation t).act then s.upRot t (fun r => { r with code := 3 })
    else
      match s.work.ctxs.find? (fun c => c.tenant == t), s.trust.keys.findIdx? (fun k => k == none) with
      | some c, some slot =>
        let k := s.work.nextDomain
        let s := { s with
          trust := { s.trust with keys := upd none s.trust.keys slot (some k) }
          work := { s.work with nextDomain := k + 1 } }
        s.upRot t (fun r => { r with
          num := r.num + 1, code := 0, act := true, newSlot := slot, oldSlot := c.keyslot, newKey := k
          ext := (s.xl.ownedBy t).headD extents, line := 0 })
      | _, _ => s.upRot t (fun r => { r with code := 2 })))

/-- A record sealed again with a new key slot, its generation unchanged (R90, R449). -/
def HRec.reseal (r : HRec) (slot k : Nat) : HRec := ({ r with keyslot := slot } : HRec).sealed k

/-- KEY_ROTATION_END (R449): after the last line, the records resealed, the old key destroyed, KRSTAT.NUM even. -/
def execKeyRotationEnd (t : Nat) (s : State) : Outcome :=
  .next (let r := s.rotation t
    if !r.act || decide (r.ext < extents) then s
    else
      let f (x : TEntry) : TEntry := { x with rec_ := x.rec_.map (fun h => h.reseal r.newSlot s.trust.sealNo) }
      let s := { s with
        work := { s.work with ctxs := s.work.ctxs.map (fun (c : Ctx) =>
          if c.tenant = t then { c with keyslot := r.newSlot, key := r.newKey, table := c.table.map (fun (p : Nat × TEntry) => (p.1, f p.2)) } else c) }
        trust := { s.trust with keys := upd none s.trust.keys r.oldSlot none } }
      let s := s.onCores (fun c => { c with hcache := c.hcache.map (fun (h : HCached) =>
        if h.rec_.tenant = t then { h with rec_ := h.rec_.reseal r.newSlot s.trust.sealNo } else h) })
      (s.upRot t (fun r => { r with num := r.num + 1, act := false, ext := 0, line := 0 })).raise physFn 2)

/-! ## Scrub (R453 to R455) -/

/-- A line that the scrub writes holds no mark; it reads as zeros as before (R454). One written since its extent became
unscrubbed is left alone (R455). -/
def State.scrubLine (s : State) (line : Nat) : Mem :=
  if s.unscrubbed line then
    { s.mem with poison := eraseNum s.mem.poison line, faulty := eraseNum s.mem.faulty line }
  else s.mem

/-- The pass over an extent whose lines the banks scrub: those not written since hold no mark (R454, R455). -/
def State.scrubMem (s : State) (e : Nat) : Mem :=
  let p (l : Nat) : Bool := !((extentLine l).1 == e && s.unscrubbed l)
  { s.mem with poison := s.mem.poison.filter p, faulty := s.mem.faulty.filter p }

/-- The scrub has passed every line of the extent at its mark: those of HBM in sweep-class slots, those of BM by the
banks (R436, R454). -/
def Sweep.passed (w : Sweep) (e : Nat) : Bool := decide (32768 ≤ e) || decide (2 ^ 19 ≤ w.scrLine)

/-- After an extent the scrub goes on to the next one above it that is not clean. After the last the sweep ends, and one
that serves extents below, which have come to wait since, starts at once (R435, R454). -/
def State.scrubNext (s : State) (e : Nat) : State :=
  match s.xl.dirtyFrom (extents - (e + 1)) (e + 1) with
  | some n => (s.scrubAt n).settleTids
  | none =>
    ((({ s with sweep := { s.sweep with scrNum := s.sweep.scrNum + 1, scrExt := none, scrLine := 0 } } : State).settleTids).raise
      physFn 2).startScrubSweep

/-- SCRUB_EXTENT_DONE (R454): the extent being passed becomes clean, and the sweep goes on. Watchers of a word in the
extent are dropped and woken (R120). -/
def execScrubExtentDone (s : State) : Outcome :=
  .next (match s.sweep.scrExt with
    | none => s
    | some e =>
      if s.sweep.passed e = false then s
      else
        let x := { s.xl with extents := insertKey s.xl.extents e { s.xl.extent e with scrub := 0 } }
        let w := { s.sweep with early := s.sweep.early.filter (fun l => (extentLine l).1 != e) }
        ((({ s with mem := s.scrubMem e, xl := x, sweep := w } : State).dropWatchers (fun w => (extentLine (w.word / 64)).1 == e)).1).scrubNext e)

/-! ## Work in the sweep-class slots (R436) -/

/-- The scrub has a line to pass in a slot of pseudo-channel `p` (R454, log 43). -/
def State.scrubsAt (s : State) (p : Nat) : Bool :=
  match s.sweep.scrExt with
  | some e => decide (e < 32768) && decide (s.sweep.scrLine < 2 ^ 19) && s.lineAt p (e * 2 ^ 19 + s.sweep.scrLine)
  | none => false

/-- A line that holds a write and lives on pseudo-channel `p`, its scrub still to be made (R455, R456). -/
def State.askedAt (s : State) (p : Nat) : Option Nat := s.sweep.asked.find? (fun l => s.lineAt p l && s.unscrubbed l)

/-- A line that holds a write scrubbed out of order (R455). -/
def State.scrubEarly (s : State) (line : Nat) : State :=
  { s with
    mem := s.scrubLine line
    sweep := { s.sweep with asked := eraseNum s.sweep.asked line, early := insertNum s.sweep.early line } }

/-- The line at the scrub's mark passed (R454). -/
def State.scrubNextLine (s : State) : State :=
  match s.sweep.scrExt with
  | some e => { s with
      mem := s.scrubLine (e * 2 ^ 19 + s.sweep.scrLine)
      sweep := { s.sweep with scrLine := s.sweep.scrLine + 1 } }
  | none => s

/-- The work of a stack's sweep engine in one slot (R436): the scrub of a line that holds a write, else a line of a
retirement, else of a key rotation, else of the scrub, else the patrol. -/
def State.sweepSlot (s : State) (p : Nat) : State :=
  match s.askedAt p, s.moveAt p, s.sweep.rot.find? (fun x => s.rotatesAt p x.2) with
  | some l, _, _ => s.scrubEarly l
  | none, some g, _ => s.moveLine g
  | none, none, some (t, r) => s.rotateLine t r
  | none, none, none => if s.scrubsAt p then s.scrubNextLine else s.patrolStack p

/-- CALENDAR_SLOT (R305, R397, R436): a sweep-class slot does the work of the sweep engines, one of the host link serves
the host's accesses; every other slot carries a cluster's burst, its own or a reclaimed one (R472). -/
def execCalendarSlot (p : Nat) (k : Nat) (s : State) : Outcome :=
  .next (match ((calBytes s.cal.installed p).getD k 0xFF).toNat with
    | 0xC1 => s.sweepSlot p
    | 0xC3 =>
      let here (q : Nat × Nat × Option (List Byte)) : Bool := s.hostReady q && s.homeOf (q.2.1 / 64) == p
      if s.host.queue.any here then s.hostServe here else s.slotBurst p k
    | _ => s.slotBurst p k)

/-! ## Patrol and soft errors (R315, R434) -/

/-- The first place of a patrolled unit. -/
def PatrolUnit.place : PatrolUnit → Nat
  | .bank n => bmBase + n * 2 ^ 23
  | .pool n => cpPlace n 0

/-- The physical number of a patrolled unit: of a bank or of a cluster (R12). -/
def PatrolUnit.number : PatrolUnit → Nat
  | .bank n => n
  | .pool n => n

/-- The lines of a patrolled unit; none where the part has no such unit (R12). -/
def PatrolUnit.lines : PatrolUnit → Nat
  | .bank n => if n < 2048 then 2 ^ 17 else 0
  | .pool n => if n < 192 then 2 ^ 18 else 0

/-- The lines that a patrol of a unit finds beyond ECC: those in which an error arose before, and those of `bad`,
by their number in the unit, in which it arises now; a line that is marked is silent, and one of an extent that is
not clean is not checked (R313, R315). -/
def State.patrolFinds (s : State) (u : PatrolUnit) (bad : List Nat) : List Nat :=
  let b := PatrolUnit.place u / 64
  let n := PatrolUnit.lines u
  (s.mem.faulty.filter (fun l => decide (b ≤ l) && decide (l < b + n)) ++ (bad.filter (fun i => decide (i < n))).map (b + ·)).filter
    (fun l => !s.mem.poison.contains l && !s.unscrubbed l)

/-- BANK_PATROL (R315): a line that cannot be corrected is marked and logged. -/
def execBankPatrol (u : PatrolUnit) (bad : List Nat) (s : State) : Outcome :=
  .next ((s.patrolFinds u bad).eraseDups.foldl (fun s l =>
    ({ s with mem := s.mem.mark l } : State).logRec .poison (l * 64) (PatrolUnit.number u) s.cycle.toNat) s)

/-- The context of the strand on a core lost for a soft error (R434). -/
def State.loseOn (s : State) (c : Nat) : State := s.on c (fun s => if s.core.job.isSome then s.loseOwn 0 else s)

/-- The kind of a unit that accesses pass through and its physical number (R12). -/
def PathUnit.named : PathUnit → Nat × Nat
  | .walk n => (7, n)
  | .sweep n => (8, n)
  | .hoop n => (5, n)
  | .crossbar n => (9, n)

/-- A unit is of the part: its stack below 16, its die below 8 (R12). -/
def PathUnit.present : PathUnit → Bool
  | .walk n => decide (n < 16)
  | .sweep n => decide (n < 16)
  | .hoop n => decide (n < 8)
  | .crossbar n => decide (n < 8)

/-- The struck state is of the part: a core below 768, an entry of a cache or a record that exists (R12). -/
def State.strikes (s : State) (x : SoftError) : Bool :=
  match x with
  | .coreLogic c => decide (c < 768)
  | .regionLog c => decide (c < 768)
  | .handleCache c _ => decide (c < 768)
  | .xlateCache i => decide (i < s.xl.cache.length)
  | .poolRecord l i => decide (i < (s.work.pool.filter (fun r => r.launch == l)).length)
  | .path u _ => PathUnit.present u
  | .trustCore => true

/-- What a soft error struck, and the physical number of the unit (R12): the core, the cluster of a translation
cache (3) or the die of a walk cache (10), the cluster of the pool, the stack or die of what accesses pass through;
0 for the trust core. -/
def State.softUnit (s : State) (x : SoftError) : Nat × Nat :=
  match x with
  | .coreLogic c => (0, c)
  | .regionLog c => (1, c)
  | .handleCache c _ => (2, c)
  | .xlateCache i =>
    let u := (s.xl.cache[i]?.map (fun e => e.unit_)).getD 0
    if u < 192 then (3, u) else (10, u - 192)
  | .poolRecord l i => (4, ((s.work.pool.filter (fun r => r.launch == l))[i]?.map (fun r => r.cluster)).getD 0)
  | .path u _ => PathUnit.named u
  | .trustCore => (6, 0)

/-- SOFT_ERROR (R434). -/
def execSoftError (x : SoftError) (s : State) : Outcome :=
  .next (if s.strikes x = false then s else
    let s := s.logRec .softError (s.softUnit x).1 (s.softUnit x).2 s.cycle.toNat
    match x with
    | .coreLogic c => s.on c (fun s =>
      if s.core.job.isSome then s.rollBack 2 else s)
    | .regionLog c => s.loseOn c
    | .handleCache c e => s.setCoreAt c { s.coreAt c with hcache := (s.coreAt c).hcache.filter (fun h => h.entry != e) }
    | .xlateCache i => { s with xl := { s.xl with cache := s.xl.cache.eraseIdx i } }
    | .poolRecord l i =>
      match (s.work.pool.filter (fun r => r.launch == l))[i]?, s.launch? l with
      | some _, some y => s.loseContext y.ctx 0
      | _, _ => s
    | .path _ cs => cs.foldl (fun s n => if (s.ctx? n).isSome then s.loseContext n 0 else s) s
    | .trustCore => s.packageReset)

end Sys2Proof.Machine
end

