-- ==== Sys2Proof/Machine/Hoop.lean ====
section
/-! DEFINITION. The hoops: rack ports, the admission and rank tables, flits, responses and notices, scale-out
(16), and the acts that count what arrives (13 R338, 15 R375). -/

namespace Sys2Proof

/-- The payload bytes that LEN gives, or for a request without a payload those it asks for (R384, log 30). -/
def Flit.bytes (x : Flit) : Nat := x.len.toNat + 1

end Sys2Proof

namespace Sys2Proof.Machine

/-! ## Rack ports (R392, R393) -/

/-- A rack port changed. -/
def State.upPort (s : State) (p : Nat) (f : Port → Port) : State :=
  { s with links := { s.links with ports :=
      match s.links.ports[p]? with
      | some x => s.links.ports.set p (f x)
      | none => s.links.ports } }

/-- A rack port. -/
def State.port (s : State) (p : Nat) : Port := s.links.ports.getD p Port.reset

/-- Outstanding requests that meet a condition answered with PEER_DEAD (R395, R399); those that have not left stay
here. -/
def State.killReqs (s : State) (p : Req → Bool) : State :=
  let gone (x : Flit) : Bool := x.cls == 0 && s.links.reqs.any (fun r => p r && r.resp.isNone && r.flit == x)
  { s with links := { s.links with
      reqs := s.links.reqs.map (fun (r : Req) => if p r && r.resp.isNone then { r with resp := some (0xD, []) } else r)
      unsent := s.links.unsent.filter (fun x => !gone x.2) } }

/-- The acknowledgement of a posted write: no longer awaited, an error status held (R407, R408). -/
def Core.acked (c : Core) (id : Nat) (code : BitVec 8) : Core :=
  if c.posted.contains id then
    { c with
      posted := c.posted.filter (fun i => i != id)
      held := if code = 0 then c.held else insertKey c.held id code }
  else c

/-- The acknowledgement of a posted request taken: a status of R408 is held; one that reports no translation at the
target is logged and loses the context (R293, R394). -/
def State.ackPosted (s : State) (r : Req) (code : BitVec 8) : State :=
  if code.toNat ≤ 0xD then s.onAll (fun c => c.acked r.id code) else (s.refusedRec r).loseContext r.ctx 1

/-- Posted requests that have a response acknowledged at their cores and taken off the list. -/
def State.settlePosted (s : State) : State :=
  let done := s.links.reqs.filter (fun r => r.posted && r.resp.isSome)
  let s := done.foldl (fun s (r : Req) => s.ackPosted r ((r.resp.map (fun p => p.1)).getD 0)) s
  { s with links := { s.links with reqs := s.links.reqs.filter (fun r => !(r.posted && r.resp.isSome)) } }

/-- The keys under which this package may know contexts of another (R395, log 57): those of the ranks that lie on it,
and those that the admission table lets in. -/
def Links.keysOf (l : Links) (pkg : Nat) : List Nat :=
  (l.ranks.filter (fun p => bit p.2.toNat 63 && !bit p.2.toNat 62 && bits p.2.toNat 23 19 == pkg)).map
    (fun p => bits p.2.toNat 47 32) ++ (l.admits.filter (fun e => e.getLsbD 31)).map (fun e => e.toNat % 65536)

/-- Whether a request goes to a package and a key. -/
def Req.towards (r : Req) (pkg key : Nat) : Bool := !r.ext && r.dpkg.toNat == pkg && r.pkey.toNat == key

/-- PKEY of the partition of a watcher's context. -/
def State.watcherKey (s : State) (w : Watcher) : Option Nat :=
  match s.work.pool.find? (fun r => r.strand == w.strand) with
  | none => none
  | some r => (s.launch? r.launch).map (fun l => s.partKey l.part)

/-- A context of another package known dead (R395): requests answered, watchers with its key woken. -/
def State.peerDead (s : State) (pkg key : Nat) : State :=
  let s := s.killReqs (fun r => r.towards pkg key)
  let l := if s.links.dead.contains (pkg, key) then s.links.dead else s.links.dead ++ [(pkg, key)]
  let s := { s with links := { s.links with dead := l } }
  (s.dropWatchers (fun w => s.watcherKey w == some key)).1.settlePosted

/-- Every context of a package counts as dead, those of ranks written later too (R395). -/
def State.packageDead (s : State) (pkg : Nat) : State :=
  let s := s.killReqs (fun r => !r.ext && r.dpkg.toNat == pkg)
  let s : State := { s with links := { s.links with deadPkgs := insertNum s.links.deadPkgs pkg } }
  ((s.links.keysOf pkg).foldl (fun s k => s.peerDead pkg k) s).settlePosted

/-- A port goes DOWN; from OPEN every context of its peer counts as dead (R392, R395). -/
def State.portDown (s : State) (p : Nat) : State :=
  let x := s.port p
  let s := s.upPort p (fun x => { x with state := .down, failed := 0 })
  if x.state = .open_ then s.packageDead x.peer.toNat else s

/-- LINK_PEER_SIGNAL (R392); a RETIRED part opens no hoop link (R29). -/
def execLinkPeerSignal (p : Nat) (s : State) : Outcome :=
  .next (if (s.port p).state = .down ∧ s.trust.lcNow ≠ .retired then s.upPort p (fun x => { x with state := .training })
    else s)

/-- LINK_TRAINING_DONE (R392): the peer's record is what attestation yields (R487), and in the other direction this
package reports its own measurement slots, in DEBUG that of debug too (R36). A RETIRED part goes no further towards a link
(R29). -/
def execLinkTrainingDone (p : Nat) (ok : Bool) (peer : PeerRecord) (s : State) : Outcome :=
  .next (if (s.port p).state ≠ .training then s
    else if ok && s.trust.lcNow != .retired then
      s.upPort p (fun x => { x with state := .attesting, peer := BitVec.ofNat 5 peer.pkg, rec_ := peer, told := s.trust.slots })
    else s.upPort p (fun x => { x with state := .down }))

/-- LINK_SIGNAL_LOSS (R392). -/
def execLinkSignalLoss (p : Nat) (s : State) : Outcome := .next (s.portDown p)

/-- ATTEST_TIMEOUT (R392). -/
def execAttestTimeout (p : Nat) (s : State) : Outcome :=
  .next (if (s.port p).state = .attesting then s.portDown p else s)

/-- ALLOW (R392): ignored outside ATTESTING and in RETIRED (R29). What was dead behind the port counts as alive again,
and the flits that waited for the port leave. -/
def execAllow (p : Nat) (s : State) : Outcome :=
  .next (s.hostWrite (fun s => if (s.port p).state = .attesting ∧ s.trust.lcNow ≠ .retired then
      let s := s.upPort p (fun x => { x with state := .open_, failed := 0, groups := 0, keyNo := x.keyNo + 1 })
      let l := s.links
      { s with links := { l with
          dead := l.dead.filter (fun d => d.1 != (s.port p).peer.toNat)
          deadPkgs := eraseNum l.deadPkgs (s.port p).peer.toNat
          sent := l.sent ++ l.unsent.filter (fun x => x.1 == p)
          unsent := l.unsent.filter (fun x => x.1 != p) } }
    else s))

/-- DENY (R392). -/
def execDeny (p : Nat) (s : State) : Outcome :=
  .next (s.hostWrite (fun s => if (s.port p).state = .attesting then s.portDown p else s))

/-- CLOSE (R392). -/
def execClose (p : Nat) (s : State) : Outcome := .next (s.hostWrite (fun s => s.portDown p))

/-- A failure counted by a port (R384, R393). -/
def Port.error_ (x : Port) : Port := { x with err := BitVec.ofNat 32 (satAdd 0xFFFFFFFF x.err.toNat 1) }

/-- FLIT_GROUP_RECEIVE (R393): a failed tag discards the group; after four in a row the port enters ERROR. -/
def execFlitGroupReceive (p : Nat) (tagOk : Bool) (s : State) : Outcome :=
  .next (if (s.port p).state ≠ .open_ then s
    else if tagOk then s.upPort p (fun x => { x with failed := 0, groups := x.groups + 1 })
    else
      let s := s.upPort p (fun x => { x.error_ with failed := x.failed + 1 })
      let s := s.logRec .linkDown p 0 s.cycle.toNat
      if 4 ≤ (s.port p).failed then
        let x := s.port p
        (s.upPort p (fun x => { x with state := .error })).packageDead x.peer.toNat
      else s)

/-! ## The tables (R390, R391) -/

/-- RANK_TABLE_WRITE (R391): reserved bits stay zero (R7); a VALID entry takes no change but of its VALID bit. -/
def execRankTableWrite (r : Nat) (v : Word) (s : State) : Outcome :=
  .next (s.hostWrite (fun s =>
    let old := s.links.rank r
    let w := v &&& ~~~BitVec.ofNat 64 (0x3FFF * 2 ^ 48 + 0xFF * 2 ^ 24)
    if 4096 ≤ r then s
    else if old.getLsbD 63 ∧ w.setWidth 63 ≠ old.setWidth 63 then s
    else { s with links := { s.links with ranks := if w = 0 then eraseKey s.links.ranks r else insertKey s.links.ranks r w } }))

/-- ADMISSION_TABLE_WRITE (R390): key 0x0000 is refused. -/
def execAdmissionTableWrite (i : Nat) (v : W32) (s : State) : Outcome :=
  .next (s.hostWrite (fun s =>
    if 32 ≤ i ∨ v.toNat % 65536 = 0 then s
    else { s with links := { s.links with admits := upd 0 s.links.admits i (v &&& 0x80FFFFFF#32) } }))

/-- The local tenant that serves a key, if an entry admits it (R390). -/
def Links.admitted (l : Links) (key : Nat) : Option Nat :=
  (l.admits.find? (fun e => e.getLsbD 31 && e.toNat % 65536 == key && key != 0)).map (fun e => bits e.toNat 23 16)

/-! ## Serving a request (R293, R390, R394) -/

/-- The stand-in strand under which a request from another package is carried out: the tenant's, with no
handles (R390). -/
def Job.agent (tenant ctx : Nat) : Job where
  launch := 0
  strand := 0
  ctx := ctx
  fn := 0
  tenant := tenant
  workid := 0
  ncores := 0
  rank := 0
  mode := 0
  lim := Limits.max
  rsb := 1
  code := ⟨0, 0, 0, 0, 0⟩
  hlStart := 0
  admitted := []
  lmBase := 0
  lmBytes := 0
  cpCluster := 0
  cpBase := 0
  cpBytes := 0
  group := 0
  coreGroup := none
  tables := []
  readyAt := 0

/-- An operation carried out for a local tenant; the acting core is as before afterwards. -/
def State.servedFor (s : State) (t : Nat) (f : State → Res (List Byte × State)) : Res (List Byte × State) :=
  let ctx := match s.work.ctxs.find? (fun c => c.tenant == t) with
    | some c => c.num
    | none => 0xFFFF
  let k := s.core
  match f { s with core := { Core.reset with job := some (Job.agent t ctx) } } with
  | .ok (bs, s) => .ok (bs, { s with core := k })
  | .error (e, s) => .error (e, { s with core := k })

/-- The leaf by which another package's request is carried out, of whichever kind of memory: that which its translation
finds, cached or walked (R299, R300). A parameter record is looked for under the KIND of its handle (R85). -/
def State.remoteLeaf (s : State) (t ta : Nat) (op : HoopOp) : Found :=
  let find (kind : Nat) : Found := (s.find (clusterOf s.coreId) t ta kind).1
  match op with
  | .param k => find k
  | _ =>
    match find 3 with
    | .miss 3 => find 2
    | r => r

/-- The kind of the memory a tenant address is mapped in, if its leaf is locked: an error status otherwise;
0x0E stands for no translation, which is fatal to the requester (R293, R394). -/
def Found.remoteKind : Found → Except Nat Nat
  | .miss _ => .error 0xE
  | .at f _ _ lock => if lock then .ok (kindOfFrame f) else .error 0xC

/-- The operation of an agent's request, by the length of its payload (log 30). -/
def agentOp (bs : List Byte) : Nat :=
  match bs.length with
  | 32 => 0
  | 64 => 1
  | 24 => 2
  | _ => 3

/-- The target range of an agent operation at an address, as its request carries it: BASE and LENGTH, or for a
compare-and-swap its own bytes (log 30). -/
def agentView (bs : List Byte) (kind a : Nat) : View :=
  let base := if agentOp bs ≤ 1 then a else field bs 8 8
  let len := if agentOp bs ≤ 1 then bs.length / 2 else field bs 16 8
  ⟨kind, true, 0, base, a - base, len, 0x7F, none, unguarded, none, 0, 0⟩

/-- The context in whose name a request is carried out. -/
def State.agentCtx (s : State) : Nat :=
  match s.core.job with
  | some j => j.ctx
  | none => 0xFFFF

/-- What an admitted request does at its target, for a local tenant (R293, R338, R345, R383). -/
def State.perform_ (s : State) (x : Flit) (kind : Nat) (via : Option Nat) : Res (List Byte × State) :=
  let a := x.addr.toNat
  let at_ (need : PageNeed) (g : Nat → State → Res (List Byte × State)) : Res (List Byte × State) :=
    match s.translate s.tenant a kind need 0 with
    | .error e => .error e
    | .ok (pa, s) => g pa s
  match x.op with
  | .read => at_ 1 (fun pa s =>
    match s.ordRead s.domain pa x.bytes 0 with
    | .error e => .error e
    | .ok bs => .ok (bs, s))
  | .write => at_ 2 (fun pa s =>
    match s.ordWrite s.domain pa (x.payload.take x.bytes) 0 with
    | .error e => .error e
    | .ok s => .ok ([], s))
  | .atomic => at_ 8 (fun pa s =>
    let n := x.bytes / 2
    match s.ordRead s.domain pa n 0 with
    | .error e => .error e
    | .ok bs =>
      let r := atomNew (field x.payload 0 1) n (leNat bs) (field x.payload 1 n) (field x.payload (1 + n) n)
      if r.2.2 then
        match s.ordWrite s.domain pa (leBytes n r.1) 0 with
        | .error e => .error e
        | .ok s => .ok (bs, s)
      else .ok (bs, s))
  | .agent =>
    let v := agentView x.payload kind a
    s.agentAct v 0 (agentOp x.payload) v.off (field x.payload 24 1) x.payload
  | .arrival => at_ 2 (fun pa s =>
    .ok ([], { s with links := { s.links with adds := s.links.adds ++ [(pa, field x.payload 0 8, s.agentCtx, via, x)] } }))
  | .param _ => at_ 0 (fun pa s =>
    match s.ordRead s.domain pa x.bytes 0 with
    | .error e => .error e
    | .ok bs => .ok (bs, s))
  | .status => .ok ([], s)

/-- The status a failure answers with (R367). -/
def Stop.status : Stop → Nat
  | .trap c _ => c
  | .trapTok c _ => c
  | .miss _ => 0xE
  | .poison _ _ => 9
  | .wait _ => 1

end Sys2Proof.Machine

namespace Sys2Proof

/-- A response to a request flit (R385): status in ADDR, the request's tag. -/
def Flit.response (x : Flit) (status : Nat) (data : List Byte) : Flit :=
  { x with
    cls := 1, rc := false, ret := false, sdie := x.ddie, spkg := x.dpkg, ddie := x.sdie, dpkg := x.spkg,
    addr := BitVec.ofNat 48 status, len := BitVec.ofNat 6 (data.length - 1), payload := data }

/-- The station a flit comes from, as records and logs name it. -/
def Flit.sender (x : Flit) : Nat := x.spkg.toNat * 8 + x.sdie.toNat

/-- The refusal record a request falls under: its sender station, and the line under its key (R388). -/
def Flit.pair (x : Flit) : Nat × Nat := (x.sender, x.pkey.toNat * 2 ^ 42 + x.addr.toNat / 64)

/-- The package a flit travels to: its destination, or its sender when a request is returned (R386). -/
def Flit.goal (x : Flit) : BitVec 5 := if x.cls = 0 ∧ x.ret = true then x.spkg else x.dpkg

/-- A flit carries at most 64 bytes (R384). -/
def Flit.fits (x : Flit) : Bool := decide (x.payload.length ≤ 64)

end Sys2Proof

namespace Sys2Proof.Machine

/-- The answer to a request sent back the way it came: over the hoops, or to its endpoint (R385, R398). -/
def State.answer (s : State) (via : Option Nat) (y : Flit) : State :=
  match via with
  | none => s.emit y
  | some e => s.emitFrame e y

/-- Where a flit that came in at port or station `p` goes on, the way it travels (R386, R389): through the other port
of its bridge; round the package hoop; or from a die's station back to the bridge and the ring it came by. -/
def State.onward (s : State) (p : Nat) (x : Flit) : Nat :=
  let own := Config.ownPackage
  if p < 4 then bridgePort (p / 2) (p % 2 == 0)
  else if x.spkg = own then (if x.goal = own then p else s.outPort x.sdie.toNat x.goal.toNat)
  else bridgePort (bridgeOf x.sdie.toNat)
    (decide (pkgHops x.spkg.toNat own.toNat ≤ pkgHops own.toNat x.spkg.toNat))

/-- A request carried out and answered (R390), or what it waits for, nothing done (R16, R442, R455). One that
asks for an addition has its answer when that is made (R338). A refusal for want of a translation is logged with this
package's rank (R394), a poisoned line of walk space besides (R444). -/
def State.acceptFlit (s : State) (x : Flit) (t : Nat) (via : Option Nat) : Except Stall State :=
  let leaf := s.remoteLeaf t x.addr.toNat x.op
  let refused (st : Nat) (s : State) : State :=
    let s := if st = 0xE then s.logRec .remoteRefused Config.ownRank.toNat x.addr.toNat x.sender else s
    let s := if st = 0xE ∧ leaf = .miss 6 then s.logRec .walkPoison t x.addr.toNat s.cycle.toNat else s
    s.answer via (x.response st [])
  if leaf = .miss 8 then .error .walk
  else
  match leaf.remoteKind with
  | .error st => .ok (refused st s)
  | .ok kind =>
    match s.servedFor t (fun s => s.perform_ x kind via) with
    | .ok (bs, s) => .ok (if x.op = .arrival then s else s.answer via (x.response 0 bs))
    | .error (e, t) =>
      match e with
      | .wait w => if w.held then .error w else .ok (refused e.status t)
      | _ => .ok (refused e.status t)

/-- A refused request circulates once more, or is returned to its sender (R386). -/
def State.circulate (s : State) (p : Nat) (x : Flit) : State :=
  let y := if x.rc then { x with ret := true } else { x with rc := true }
  s.emitAt (s.onward p y) y

/-- The records that stand without those of a flit's pair. -/
def Links.withoutPair (l : Links) (x : Flit) : List ((Nat × Nat) × Nat) :=
  l.refusals.filter (fun r => r.1 != x.pair)

/-- A request refused for want of room: its record stands until it is accepted (R388). -/
def State.refuseFlit (s : State) (p : Nat) (x : Flit) : State :=
  ({ s with links := { s.links with
    refusals := s.links.withoutPair x ++ [(x.pair, x.tag.toNat)] } } : State).circulate p x

/-- A request that reaches its destination, for a local tenant (R386, R388). A record that stands refuses every other
request of its pair, room or none (log 38). A station cannot take one that waits for the memory (log 90). -/
def State.requestFlit (s : State) (p : Nat) (x : Flit) (t : Nat) : State :=
  if s.links.refusals.any (fun r => r.1 == x.pair && r.2 != x.tag.toNat) then s.circulate p x
  else if Config.stationFull s.stepNo then s.refuseFlit p x
  else
    match ({ s with links := { s.links with refusals := s.links.withoutPair x } } : State).acceptFlit x t none with
    | .ok t => t
    | .error w => (s.noteHeld 770 (x.sender * 2 ^ 16 + x.tag.toNat) w).refuseFlit p x

/-- A response taken by the request whose tag it carries (R384, R385). -/
def State.responseFlit (s : State) (x : Flit) : State :=
  ({ s with links := { s.links with reqs := s.links.reqs.map (fun (r : Req) =>
      if r.id % 65536 = x.tag.toNat ∧ r.resp.isNone then
        { r with resp := some (BitVec.ofNat 8 (min x.addr.toNat 0xFF), x.payload) } else r) } } : State).settlePosted

/-- A data flit whose key no entry admits is dropped and counted; a request is answered with TOKEN_ERROR, one of this
package's own at once (R390). -/
def State.dropFlit (s : State) (x : Flit) (via : Option Nat) : State :=
  let s : State := { s with links := { s.links with keydrop := s.links.keydrop + 1 } }
  if x.cls ≠ 0 then s
  else if x.spkg = Config.ownPackage then s.responseFlit (x.response 1 [])
  else s.answer via (x.response 1 [])

/-- A request of this package that comes back returned (R386). -/
def State.returnedFlit (s : State) (x : Flit) : State :=
  { s with links := { s.links with reqs := s.links.reqs.map (fun (r : Req) =>
      if r.id % 65536 = x.tag.toNat ∧ r.resp.isNone then { r with returned := true, tries := r.tries + 1 } else r) } }

/-- A data flit whose key is admitted: passed on, or taken here (R385, R386). -/
def State.takeFlit (s : State) (p : Nat) (x : Flit) (t : Nat) : State :=
  if x.goal ≠ Config.ownPackage then s.emitAt (s.onward p x) x
  else if x.cls = 1 then s.responseFlit x
  else if x.ret = true then s.returnedFlit x
  else s.requestFlit p x t

/-- A flit can stand at port or station `p` (R392): no data flit crosses a port that is not OPEN, so that one of this
package's or for it alone travels the package hoop while none is. -/
def State.reaches (s : State) (p : Nat) (x : Flit) : Bool :=
  decide (p < 12) && s.links.crosses p &&
    (s.links.anyOpen || (x.spkg == Config.ownPackage && x.dpkg == Config.ownPackage))

/-- FLIT_RECEIVE (R384 to R390): at rack port `p`, or at the package hoop's station of die p − 4 (R17). Every port
checks the key of each data flit, of those it passes on too (R390). -/
def execFlitReceive (p : Nat) (x : Flit) (s : State) : Outcome :=
  .next (if s.reaches p x = false ∨ x.fits = false then s
    else if x.cls = 3 ∨ x.resv ≠ 0 then s.upPort p Port.error_
    else if x.cls = 2 then s
    else
      match s.links.admitted x.pkey.toNat with
      | none => s.dropFlit x none
      | some t => s.takeFlit p x t)

/-- REQUEST_RETRY (R386, R388): the `i`-th request, returned, is sent again with its held successors, unless it
is itself held behind an earlier one to its line. -/
def execRequestRetry (i : Nat) (s : State) : Outcome :=
  .next (match s.links.reqs[i]? with
    | none => s
    | some x =>
      if !x.returned || (s.links.reqs.take i).any (fun q => q.returned && q.resp.isNone && q.sameLine x) then s
      else
        let go := (s.links.reqs.drop i).filter (fun r => r.sameLine x && r.returned)
        go.foldl (fun s r => s.emitAt r.port r.flit) { s with links := { s.links with reqs := s.links.reqs.mapIdx (fun k (r : Req) =>
          if i ≤ k ∧ r.sameLine x = true then { r with returned := false } else r) } })

/-- REMOTE_WRITE_ACK (R408): the `i`-th write awaited by core `c`, its acknowledgement come in; another package's over
an open port (R392). -/
def execRemoteWriteAck (c : Nat) (i : Nat) (code : BitVec 8) (s : State) : Outcome :=
  .next (match (s.coreAt c).posted[i]?.bind (fun id => s.links.reqs.find? (fun r => r.id == id)) with
    | none => s
    | some r =>
      if !r.ext && r.dpkg != Config.ownPackage && !s.links.anyOpen then s
      else
        let s := s.ackPosted r code
        { s with links := { s.links with reqs := s.links.reqs.filter (fun q => q.id != r.id) } })

/-- DEAD_CONTEXT_NOTICE (R395): another package's comes in over an open port (R392). -/
def execDeadContextNotice (pkg : Nat) (pkey : BitVec 16) (s : State) : Outcome :=
  .next (if s.links.anyOpen ∨ pkg = Config.ownPackage.toNat then s.peerDead pkg pkey.toNat else s)

/-! ## Scale-out (R398, R399) -/

/-- Whether a request goes to an endpoint. -/
def Req.toEndpoint (r : Req) (e : Nat) : Bool := r.ext && r.endpt == e

/-- A request to an endpoint has been sent again 64 times, and is not acknowledged (R399). -/
def Endpoint.lost (p : Endpoint) : Bool := p.window.any (fun x => x.2.2.cls == 0 && decide (64 ≤ x.2.1))

/-- An endpoint declared unreachable (R399): nothing waits for its acknowledgement any more. -/
def State.endpointDown (s : State) (e : Nat) : State :=
  let s := s.upEndpoint e { s.endpoint e with window := [] }
  let s := s.killReqs (fun r => r.toEndpoint e)
  ({ s with links := { s.links with unreachable := insertNum s.links.unreachable e } } : State).settlePosted

/-- ENDPOINT_UNREACHABLE (R399): only after 64 retransmissions. -/
def execEndpointUnreachable (e : Nat) (s : State) : Outcome :=
  .next (if (s.endpoint e).lost then s.endpointDown e else s)

/-- RETRANSMISSION_TIMEOUT (R398, R399): what is unacknowledged is sent again, in its order; when a request has been sent
again 64 times already, the endpoint is unreachable. -/
def execRetransmissionTimeout (e : Nat) (s : State) : Outcome :=
  .next (let p := s.endpoint e
    if p.lost then s.endpointDown e
    else
      let s := s.upEndpoint e { p with window := p.window.map (fun x => (x.1, x.2.1 + 1, x.2.2)) }
      { s with links := { s.links with frames := s.links.frames ++ p.window.map (fun x => ⟨e, x.1, .op x.2.2⟩) } })

/-- An operation taken from an endpoint, its key checked as at any port (R390, R398), or what it waits for. -/
def State.takeOp (s : State) (e : Nat) (x : Flit) : Except Stall State :=
  if x.cls ≠ 0 ∧ x.cls ≠ 1 then .ok s
  else
    match s.links.admitted x.pkey.toNat with
    | none => .ok (s.dropFlit x (some e))
    | some t => if x.cls = 1 then .ok (s.responseFlit x) else s.acceptFlit x t (some e)

/-- SCALE_OUT_FRAME_RECEIVE (R398): go-back-N takes only the operation next in sequence, and acknowledges what it has
taken, nothing while that waits for the memory; an acknowledgement names the next operation the peer expects, and settles those before it; flow control moves
nothing but time. Any of the eight ports may carry the pair (R17). -/
def execScaleOutFrameReceive (port : Nat) (x : Frame) (s : State) : Outcome :=
  .next (if 8 ≤ port ∨ 2048 ≤ x.endpt then s else
    let e := s.endpoint x.endpt
    match x.body with
    | .pause _ _ => s
    | .ack q => s.upEndpoint x.endpt { e with window := e.window.filter (fun w => decide (q ≤ w.1)) }
    | .op f =>
      if x.seq ≠ e.expect then s
      else
        let t := s.upEndpoint x.endpt { e with expect := e.expect + 1 }
        match ({ t with links := { t.links with frames := t.links.frames ++ [⟨x.endpt, 0, .ack (e.expect + 1)⟩] } } : State).takeOp
            x.endpt f with
        | .ok t => t
        | .error w => s.noteHeld 771 (x.endpt * 2 ^ 16 + f.tag.toNat) w)

/-! ## What arrives (R338, R375) -/

/-- The first piece whose arrival is still to be counted on a barrier (R375). -/
def State.arrivalTurn (s : State) (i : Nat) : State :=
  match s.links.arrivals[i]? with
  | none => s
  | some (p, n, _) =>
    let s := { s with links := { s.links with arrivals := s.links.arrivals.eraseIdx i } }
    s.arriveAt p n

/-- An addition to a counter word still to be made, as the destination bank makes it; its request is answered then
(R338, R356). It stays while it waits for the memory (R442, R455). -/
def State.addTurn (s : State) (i : Nat) : State :=
  match s.links.adds[i]? with
  | none => s
  | some (p, n, ctx, via, x) =>
    let dom (l : Nat) : Nat := ((s.ctx? ctx).map (fun c => s.keyFor c l)).getD 0
    match s.writeWaits p 8 with
    | some w => s.noteHeld 772 (x.sender * 2 ^ 16 + x.tag.toNat) w
    | none =>
    let s := { s with links := { s.links with adds := s.links.adds.eraseIdx i } }
    match s.ordRead dom p 8 0 with
    | .error (e, s) => s.answer via (x.response e.status [])
    | .ok bs =>
      match s.ordWrite dom p (leBytes 8 (leNat bs + n)) 0 with
      | .error (e, s) => s.answer via (x.response e.status [])
      | .ok s => s.answer via (x.response 0 [])

/-- BARRIER_ARRIVE (R375). -/
def execBarrierArrive (i : Nat) (s : State) : Outcome := .next (s.arrivalTurn i)

/-- REMOTE_COUNTER_ADD (R338). -/
def execRemoteCounterAdd (i : Nat) (s : State) : Outcome := .next (s.addTurn i)

end Sys2Proof.Machine
end

