-- ==== Sys2Proof/Machine/DebugPort.lean ====
section
/-! DEFINITION. The debug port: its commands, the items of a stopped core, tracing, and the replay of one
engine (23 R459 to R468). -/

namespace Sys2Proof.Machine

/-- The port refused a command or an access: ERR (R459). -/
def State.dbgErr (s : State) : State := { s with dbg := { s.dbg with err := true } }

/-- A command of DBGCMD (R459): the port works in DEBUG alone and ignores GO while BUSY; DBGSTAT names the
core, and a core that does not exist is refused. -/
def State.dbgCommand (s : State) (c : Nat) (f : State → State) : Outcome :=
  .next (if !s.trust.debugOpen || s.dbg.busy then s
    else
      let s := { s with dbg := { s.dbg with core := c } }
      if 767 < c then s.dbgErr else f s)

/-- DBG_STOP (R460): the strand of the core is marked; a core without a strand has none to mark (log 40). -/
def execDbgStop (c : Nat) (s : State) : Outcome :=
  s.dbgCommand c (fun s =>
    let k := s.coreAt c
    if k.job.isNone then s.dbgErr
    else if k.stopped then s
    else s.setCoreAt c { k with stopPending := true })

/-- A command that only a stopped core takes. -/
def State.onStopped (s : State) (c : Nat) (f : Core → Core) : State :=
  let k := s.coreAt c
  if k.stopped then s.setCoreAt c (f k) else s.dbgErr

/-- DBG_RESUME (R461). -/
def execDbgResume (c : Nat) (s : State) : Outcome :=
  s.dbgCommand c (fun s => s.onStopped c (fun k => { k with stopped := false }))

/-- DBG_STEP (R461): resumed and marked again. -/
def execDbgStep (c : Nat) (s : State) : Outcome :=
  s.dbgCommand c (fun s => s.onStopped c (fun k => { k with stopped := false, stopPending := true }))

/-- A BM extent owned by the platform, 0xFF (R465). -/
def State.platformExtent (s : State) (n : Nat) : Bool := (s.xl.extent (32768 + n)).owner == 0xFF

/-- Whether a command log of any core runs. -/
def State.logRuns (s : State) : Bool :=
  (s.core :: s.parked.map (fun p => p.2)).any (fun k => k.cmdLog.any (fun b => b))

/-- DBG_LOG (R468): the ring starts anew unless another log runs (log 40). -/
def execDbgLog (c : Nat) (e : Eng) (s : State) : Outcome :=
  s.dbgCommand c (fun s =>
    if e = .copy ∨ s.platformExtent (bits s.dbg.log.toNat 8 0) = false then s.dbgErr
    else
      let s := if s.logRuns then s else { s with dbg := { s.dbg with logPos := 0, logged := [] } }
      let k := s.coreAt c
      s.setCoreAt c { k with cmdLog := upd false k.cmdLog e.code true })

/-- DBG_LOGOFF (R468). -/
def execDbgLogoff (c : Nat) (e : Eng) (s : State) : Outcome :=
  s.dbgCommand c (fun s =>
    let k := s.coreAt c
    if e = .copy then s else s.setCoreAt c { k with cmdLog := upd false k.cmdLog e.code false })

/-- DBG_REPLAY (R468): a replay begins on a stopped core. -/
def execDbgReplay (c : Nat) (e : Eng) (s : State) : Outcome :=
  s.dbgCommand c (fun s =>
    if (s.coreAt c).stopped && e != .copy then
      { s with dbg := { s.dbg with busy := true, replaying := some (c, e) } }
    else s.dbgErr)

/-! ## Items of a stopped core (R459) -/

/-- Word `w` of a vector register: word 63 shows the tag and the valid bit in [63:59] (log 41). -/
def VReg.word (r : VReg) (w : Nat) : Word :=
  let x : Word := r.data.extractLsb' (64 * w) 64
  if w = 63 then BitVec.ofNat 64 (x.toNat % 2 ^ 59 + r.tag.toNat * 2 ^ 60 + b2n r.valid * 2 ^ 59) else x

/-- Word `w` of a vector register written. -/
def VReg.setWord (r : VReg) (w : Nat) (v : Word) : VReg :=
  let keep : Word := r.data.extractLsb' (64 * w) 64
  let x := if w = 63 then BitVec.ofNat 64 (keep.toNat / 2 ^ 59 * 2 ^ 59 + v.toNat % 2 ^ 59) else v
  let hole : BitVec 4096 := BitVec.ofNat 4096 ((2 ^ 64 - 1) * 2 ^ (64 * w))
  let d := (r.data &&& ~~~hole) ||| BitVec.ofNat 4096 (x.toNat * 2 ^ (64 * w))
  if w = 63 then { data := d, tag := BitVec.ofNat 4 (v.toNat / 2 ^ 60), valid := v.getLsbD 59 }
  else { r with data := d }

/-- Loop and stage state by index (R459, class 4). -/
def Core.loopItem (c : Core) (i : Nat) : Option Word :=
  let g := c.live
  if i = 0 then some (BitVec.zeroExtend 64 g.q)
  else if i ≤ 4 then some (BitVec.zeroExtend 64 (g.lc.getD (i - 1) 0))
  else if i ≤ 8 then some (BitVec.zeroExtend 64 (g.itc.getD (i - 5) 0))
  else if i = 9 then some (BitVec.ofNat 64 g.rbs)
  else if i = 10 then some (BitVec.ofNat 64 g.rbv)
  else if i = 11 then some (BitVec.ofNat 64 g.rbk)
  else if i = 12 then some (BitVec.zeroExtend 64 c.pc)
  else none

/-- Bytes of the LM share that word `i` covers, if it lies within it. -/
def State.lmWord (s : State) (i : Nat) : Option Nat :=
  match s.core.job with
  | some j => if 8 * i + 8 ≤ j.lmBytes then some (s.lmAt (8 * i)) else none
  | none => none

/-- The item that DBGREG selects on the acting core; none where there is no such item (R459; log 41). -/
def State.dbgItem (s : State) (reg : Word) : Option Word :=
  let i := reg.toNat % 2 ^ 56
  let g := s.core.live
  match reg.toNat / 2 ^ 56 with
  | 0 => if i < 62 then some (g.s.getD i 0) else none
  | 1 => if i < 4096 then some (s.csr i) else none
  | 2 => if i < 4096 then some ((g.v.getD (i / 64) VReg.reset).word (i % 64)) else none
  | 3 => if i < 32 then some (statusWord i (g.k.getD i Tok.reset) false) else none
  | 4 => s.core.loopItem i
  | 5 => if i < 16384 then
      some (BitVec.ofNat 64 (((s.core.arrays.tile (i / 4096)).row (i % 4096 / 64)).getD (i % 64) 0))
    else none
  | 6 => (s.lmWord i).map (fun a => BitVec.ofNat 64 (leNat (memRead s.mem.cells a 8)))
  | _ => none

/-- An element of a tile written; a FREE tile becomes LIVE (R459). -/
def Tile.setElement (t : Tile) (r n v : Nat) : Tile :=
  let t := if t.live then t else { Tile.reset with live := true }
  { t with rows := upd [] t.rows r (upd 0 (t.row r) n v) }

/-- The item that DBGREG selects written; classes 1, 3 and 4 ignore the write (R459). -/
def State.setDbgItem (s : State) (reg v : Word) : State :=
  let i := reg.toNat % 2 ^ 56
  match reg.toNat / 2 ^ 56 with
  | 0 => if i = 0 then s else s.upRegs (fun g => { g with s := upd 0 g.s i v })
  | 2 => s.upRegs (fun g => { g with
      v := upd VReg.reset g.v (i / 64) ((g.v.getD (i / 64) VReg.reset).setWord (i % 64) v) })
  | 5 => s.upArrays (fun a => a.setTile (i / 4096) ((a.tile (i / 4096)).setElement (i % 4096 / 64) (i % 64)
      (v.toNat % 2 ^ 32)))
  | 6 => match s.lmWord i with
    | some a => s.platformWrite a (leBytes 8 v.toNat)
    | none => s
  | _ => s

/-- Whether the core that DBGSTAT names is stopped, and not replaying (R459). -/
def State.dbgReady (s : State) : Bool := (s.coreAt s.dbg.core).stopped && s.dbg.replaying.isNone

/-- The item that the port reaches now, if any. -/
def State.dbgReach (s : State) : Option Word :=
  if s.dbgReady then (s.focus s.dbg.core).dbgItem s.dbg.reg else none

/-- DEBUG_DATA_READ (R459). -/
def execDebugDataRead (s : State) : Outcome :=
  .next (if !s.trust.debugOpen then { s with dbg := { s.dbg with data := 0 } }
    else
      match s.dbgReach with
      | some v => { s with dbg := { s.dbg with data := v } }
      | none => s.dbgErr)

/-- DEBUG_DATA_WRITE (R459). -/
def execDebugDataWrite (v : Word) (s : State) : Outcome :=
  .next (if !s.trust.debugOpen then s
    else
      match s.dbgReach with
      | some _ => s.on s.dbg.core (fun t => t.setDbgItem s.dbg.reg v)
      | none => s.dbgErr)

/-! ## Tracing (R465) -/

/-- TRACE_ENABLE: a write of TRCCTL. EN rises only on a platform-owned extent, and then the ring starts anew. -/
def execTraceEnable (v : Word) (s : State) : Outcome :=
  .next (if !s.trust.debugOpen then s
    else
      let keep := bits v.toNat 39 24 * 2 ^ 24 + bits v.toNat 8 0
      let up := v.getLsbD 63 && !s.dbg.trcctl.getLsbD 63
      if up && !s.platformExtent (bits v.toNat 8 0) then
        ({ s with dbg := { s.dbg with trcctl := BitVec.ofNat 64 keep } } : State).dbgErr
      else
        { s with dbg := { s.dbg with
          trcctl := BitVec.ofNat 64 (b2n (v.getLsbD 63) * 2 ^ 63 + keep)
          trchead := if up then 0 else s.dbg.trchead } })

/-! ## Replay (R468) -/

/-- A tile with the exception record of another. -/
def Tile.keepRecord (t old : Tile) : Tile := { t with invc := old.invc, ovfc := old.ovfc, count := old.count }

/-- A logged command as the replay runs it: it names no token, waits for none and completes into none. -/
def Cmd.replayed (x : Cmd) (rseq : BitVec 48) : Cmd :=
  { x with
    prod := 0, rseq := rseq, tok := none, waits := [], started := true, cursor := 0, fl := 0, fail := none,
    paused := none, orphan := true, pieces := [] }

/-- A logged command run on the acting core, which is stopped: at the head of its engine's queue, with the
logged substream state. None if it does not end: its table run has no end. -/
def State.replayCmd (s : State) (e : Eng) (sub : Word) (x : Cmd) : Option State :=
  let y := x.replayed s.core.rseq
  let q := s.core.queue e
  let s := s.upCore (fun c => ({ c with
    sub := upd 0 c.sub e.stream sub
    subSeq := upd 0 c.subSeq e.stream c.rseq } : Core).setQueue e (y :: q))
  let s := if y.isRun then
      s.upTable e (TableRun.begin (y.arg 0))
    else s
  let t := State.runCmdFor (2 ^ 64) s e y
  if (t.cmd? e y.prod).isSome then none else some (t.upCore (fun c => c.setQueue e q))

/-- The logged commands run in order, until one breaks its bounds. -/
def State.replayAll (s : State) (e : Eng) : List (Nat × Word × Cmd) → Option State
  | [] => some s
  | (n, sub, x) :: l =>
    if n ≠ e.code then s.replayAll e l
    else
      match s.replayCmd e sub x with
      | some t => if t.dbg.err then some t else t.replayAll e l
      | none => none

/-- What a replay leaves as it was: flags, exception records and the substreams. -/
def Core.keptInReplay (k c : Core) : Core :=
  { k with
    sub := c.sub
    subSeq := c.subSeq
    live := { k.live with flags := c.live.flags }
    arrays := { k.arrays with
      a := (List.range 4).map (fun i => (k.arrays.tile i).keepRecord (c.arrays.tile i)) } }

/-- A replay on core `n`, if it ends. -/
def State.replay (s : State) (n : Nat) (e : Eng) : Option State :=
  let t := s.focus n
  (({ t with dbg := { t.dbg with err := false } } : State).replayAll e t.dbg.logged).map (fun u =>
    (u.upCore (fun k => k.keptInReplay t.core)).focus s.coreId)

/-- DEBUG_REPLAY_DONE (R468): the replay of the core is carried out and ends; the strand stays stopped. A replay
that has no end is never done. -/
def execDebugReplayDone (c : Nat) (s : State) : Outcome :=
  .next (match s.dbg.replaying with
    | some (n, e) =>
      if n ≠ c then s
      else
        match s.replay c e with
        | some t => { t with dbg := { t.dbg with err := s.dbg.err || t.dbg.err, busy := false, replaying := none } }
        | none => s
    | none => s)

end Sys2Proof.Machine
end

