-- ==== Sys2Proof/Machine/MatrixIssue.lean ====
section
/-! DEFINITION. The issue of MMUL and MMULC (10 R236, R244): their checks need the planes as every queued command, the
table runs too, will leave them. -/

namespace Sys2Proof.Machine

/-- The arrays as they will stand once the queued matrix commands have run (R236), table runs followed micro-order by
micro-order as local memory now stands (log 23). -/
def State.foreseenArrays (s : State) : Arrays :=
  if hasRun s.core.mq then (s.core.mq.foldl State.foreseeCmd s).core.arrays else s.core.foreseen

/-- MMUL and MMULC at issue (R244). -/
def State.issueMul (s : State) (i : Instr) (o : OpE) (cplx : Bool) : Res State :=
  let a := s.foreseenArrays
  let h := wbits o.w1 31 28
  let x := (s.opX o).toNat
  let z := (s.wordS o.w1 15 10).toNat
  let rb := rowBytesA a.atag
  let st := s.strideOf o.w1 rb
  let rows := wbits o.w2 23 18 + 1
  let ok := if cplx then planeOkC a.w0 a.atag a.abs_ else planeOk a.w0 a.atag
  match s.checks [chkLm h x (spanOf rows st rb) .rd 1,
      if a.abs_ then chkLm h z (rows * (depthKP a.atag / 32)) .rd 1 else .ok,
      chk ok 7 (tagInfo 0 (if a.w0.valid then a.w0.tag else 0))] with
  | .error e => .error e
  | .ok s => s.issueMatrix i o 2 true [BitVec.ofNat 64 x, BitVec.ofNat 64 st, BitVec.ofNat 64 z]

/-- MMUL at issue (R244). -/
def execMmul (o : OpE) (s : State) : Outcome := retire (s.issueMul (.mmul o) o false)

/-- MMULC at issue (R244). -/
def execMmulc (o : OpE) (s : State) : Outcome := retire (s.issueMul (.mmulc o) o true)

end Sys2Proof.Machine
end

