-- ==== Sys2Proof/Machine/Dispatch.lean ====
section
/-! DEFINITION. The meaning of every constructor of Instr, one direct call each. -/

namespace Sys2Proof.Machine

/-- What an instruction or act does: its own meaning. -/
def exec (i : Instr) (s : State) : Host.Outcome State Fault Refusal :=
  match i with
  | .packageReset => Sys2Proof.Machine.execPackageReset s
  | .trustCoreWatchdog => Sys2Proof.Machine.execTrustCoreWatchdog s
  | .firmwareVerified => Sys2Proof.Machine.execFirmwareVerified s
  | .hbmTrainingDone trained => Sys2Proof.Machine.execHbmTrainingDone trained s
  | .hostLinkConfigReady => Sys2Proof.Machine.execHostLinkConfigReady s
  | .functionLevelReset f => Sys2Proof.Machine.execFunctionLevelReset f s
  | .powerTrip => Sys2Proof.Machine.execPowerTrip s
  | .ideFailure f => Sys2Proof.Machine.execIdeFailure f s
  | .status f => Sys2Proof.Machine.execStatus f s
  | .reset f => Sys2Proof.Machine.execReset f s
  | .fwLoad f => Sys2Proof.Machine.execFwLoad f s
  | .debugNonce f => Sys2Proof.Machine.execDebugNonce f s
  | .debugUnlock f => Sys2Proof.Machine.execDebugUnlock f s
  | .lifecycleAdvance f => Sys2Proof.Machine.execLifecycleAdvance f s
  | .lifecycleTransition => Sys2Proof.Machine.execLifecycleTransition s
  | .ctxCreate f sess => Sys2Proof.Machine.execCtxCreate f sess s
  | .ctxEnd f sess => Sys2Proof.Machine.execCtxEnd f sess s
  | .handleMint f sess => Sys2Proof.Machine.execHandleMint f sess s
  | .handleRevoke f sess => Sys2Proof.Machine.execHandleRevoke f sess s
  | .handleRead f sess => Sys2Proof.Machine.execHandleRead f sess s
  | .getVersion f => Sys2Proof.Machine.execGetVersion f s
  | .getCapabilities f => Sys2Proof.Machine.execGetCapabilities f s
  | .negotiateAlgorithms f => Sys2Proof.Machine.execNegotiateAlgorithms f s
  | .getDigests f => Sys2Proof.Machine.execGetDigests f s
  | .getCertificate f => Sys2Proof.Machine.execGetCertificate f s
  | .challenge f => Sys2Proof.Machine.execChallenge f s
  | .getMeasurements f => Sys2Proof.Machine.execGetMeasurements f s
  | .keyExchange f => Sys2Proof.Machine.execKeyExchange f s
  | .finish f => Sys2Proof.Machine.execFinish f s
  | .endSession f => Sys2Proof.Machine.execEndSession f s
  | .keyUpdate p => Sys2Proof.Machine.execKeyUpdate p s
  | .ideKm f => Sys2Proof.Machine.execIdeKm f s
  | .lockInterfaceRequest f => Sys2Proof.Machine.execLockInterfaceRequest f s
  | .startInterfaceRequest f sess => Sys2Proof.Machine.execStartInterfaceRequest f sess s
  | .stopInterfaceRequest f => Sys2Proof.Machine.execStopInterfaceRequest f s
  | .stopInterfaceComplete f => Sys2Proof.Machine.execStopInterfaceComplete f s
  | .launchSubmit f tail => Sys2Proof.Machine.execLaunchSubmit f tail s
  | .launchTake p => Sys2Proof.Machine.execLaunchTake p s
  | .clusterGroupBind l => Sys2Proof.Machine.execClusterGroupBind l s
  | .strandGenerate l => Sys2Proof.Machine.execStrandGenerate l s
  | .strandDispatch c => Sys2Proof.Machine.execStrandDispatch c s
  | .gangReserve l => Sys2Proof.Machine.execGangReserve l s
  | .gangStart l => Sys2Proof.Machine.execGangStart l s
  | .sliceEnd c => Sys2Proof.Machine.execSliceEnd c s
  | .budgetExhausted f => Sys2Proof.Machine.execBudgetExhausted f s
  | .budgetPeriodStart f => Sys2Proof.Machine.execBudgetPeriodStart f s
  | .watchWake xi => Sys2Proof.Machine.execWatchWake xi s
  | .stealRequestArrive xi => Sys2Proof.Machine.execStealRequestArrive xi s
  | .stealGrantArrive xi => Sys2Proof.Machine.execStealGrantArrive xi s
  | .exchangeStepIssue l k => Sys2Proof.Machine.execExchangeStepIssue l k s
  | .sstepRelease l => Sys2Proof.Machine.execSstepRelease l s
  | .launchComplete l => Sys2Proof.Machine.execLaunchComplete l s
  | .completionRecordWrite f => Sys2Proof.Machine.execCompletionRecordWrite f s
  | .ptCommit => Sys2Proof.Machine.execPtCommit s
  | .calendarGo => Sys2Proof.Machine.execCalendarGo s
  | .calendarPost => Sys2Proof.Machine.execCalendarPost s
  | .calendarInstall => Sys2Proof.Machine.execCalendarInstall s
  | .patChange v => Sys2Proof.Machine.execPatChange v s
  | .xlinv v => Sys2Proof.Machine.execXlinv v s
  | .xlinvComplete => Sys2Proof.Machine.execXlinvComplete s
  | .walkApertureWrite off bytes => Sys2Proof.Machine.execWalkApertureWrite off bytes s
  | .pageRequestClose e => Sys2Proof.Machine.execPageRequestClose e s
  | .pageRequestRefuse e => Sys2Proof.Machine.execPageRequestRefuse e s
  | .functionEvict f => Sys2Proof.Machine.execFunctionEvict f s
  | .evictionDone f => Sys2Proof.Machine.execEvictionDone f s
  | .functionResume f => Sys2Proof.Machine.execFunctionResume f s
  | .saveAreaCheck t => Sys2Proof.Machine.execSaveAreaCheck t s
  | .swcap v => Sys2Proof.Machine.execSwcap v s
  | .swret v => Sys2Proof.Machine.execSwret v s
  | .granuleMoveComplete => Sys2Proof.Machine.execGranuleMoveComplete s
  | .stagingBlockMove => Sys2Proof.Machine.execStagingBlockMove s
  | .retirementEnd => Sys2Proof.Machine.execRetirementEnd s
  | .keyRotationStart t => Sys2Proof.Machine.execKeyRotationStart t s
  | .keyRotationEnd t => Sys2Proof.Machine.execKeyRotationEnd t s
  | .revocationEnd => Sys2Proof.Machine.execRevocationEnd s
  | .scrubExtentDone => Sys2Proof.Machine.execScrubExtentDone s
  | .calendarSlot p k => Sys2Proof.Machine.execCalendarSlot p k s
  | .refreshForced p k => Sys2Proof.Machine.execRefreshForced p k s
  | .bankPatrol u bad => Sys2Proof.Machine.execBankPatrol u bad s
  | .linkPeerSignal p => Sys2Proof.Machine.execLinkPeerSignal p s
  | .linkTrainingDone p ok peer => Sys2Proof.Machine.execLinkTrainingDone p ok peer s
  | .linkSignalLoss p => Sys2Proof.Machine.execLinkSignalLoss p s
  | .attestTimeout p => Sys2Proof.Machine.execAttestTimeout p s
  | .allow p => Sys2Proof.Machine.execAllow p s
  | .deny p => Sys2Proof.Machine.execDeny p s
  | .close p => Sys2Proof.Machine.execClose p s
  | .flitGroupReceive p tagOk => Sys2Proof.Machine.execFlitGroupReceive p tagOk s
  | .flitReceive p x => Sys2Proof.Machine.execFlitReceive p x s
  | .requestRetry xi => Sys2Proof.Machine.execRequestRetry xi s
  | .remoteWriteAck c xi code => Sys2Proof.Machine.execRemoteWriteAck c xi code s
  | .deadContextNotice pkg pkey => Sys2Proof.Machine.execDeadContextNotice pkg pkey s
  | .endpointUnreachable e => Sys2Proof.Machine.execEndpointUnreachable e s
  | .preemptPointReached c => Sys2Proof.Machine.execPreemptPointReached c s
  | .preemptSaveComplete c => Sys2Proof.Machine.execPreemptSaveComplete c s
  | .preemptDeadline c => Sys2Proof.Machine.execPreemptDeadline c s
  | .watchdog c => Sys2Proof.Machine.execWatchdog c s
  | .softError x => Sys2Proof.Machine.execSoftError x s
  | .barrierArrive xi => Sys2Proof.Machine.execBarrierArrive xi s
  | .remoteCounterAdd xi => Sys2Proof.Machine.execRemoteCounterAdd xi s
  | .vectorExecute c => Sys2Proof.Machine.execVectorExecute c s
  | .matrixExecute c => Sys2Proof.Machine.execMatrixExecute c s
  | .plaitExecute c => Sys2Proof.Machine.execPlaitExecute c s
  | .copyStart c => Sys2Proof.Machine.execCopyStart c s
  | .copyComplete c xi => Sys2Proof.Machine.execCopyComplete c xi s
  | .dbgStop c => Sys2Proof.Machine.execDbgStop c s
  | .dbgResume c => Sys2Proof.Machine.execDbgResume c s
  | .dbgStep c => Sys2Proof.Machine.execDbgStep c s
  | .dbgLog c e => Sys2Proof.Machine.execDbgLog c e s
  | .dbgReplay c e => Sys2Proof.Machine.execDbgReplay c e s
  | .dbgLogoff c e => Sys2Proof.Machine.execDbgLogoff c e s
  | .debugDataWrite v => Sys2Proof.Machine.execDebugDataWrite v s
  | .debugDataRead => Sys2Proof.Machine.execDebugDataRead s
  | .traceEnable v => Sys2Proof.Machine.execTraceEnable v s
  | .pmevtWrite f xi v => Sys2Proof.Machine.execPmevtWrite f xi v s
  | .rankTableWrite r v => Sys2Proof.Machine.execRankTableWrite r v s
  | .admissionTableWrite xi v => Sys2Proof.Machine.execAdmissionTableWrite xi v s
  | .registerWrite f off v => Sys2Proof.Machine.execRegisterWrite f off v s
  | .add o => Sys2Proof.Machine.execAdd o s
  | .sub o => Sys2Proof.Machine.execSub o s
  | .mul o => Sys2Proof.Machine.execMul o s
  | .mulhs o => Sys2Proof.Machine.execMulhs o s
  | .mulhu o => Sys2Proof.Machine.execMulhu o s
  | .divs o => Sys2Proof.Machine.execDivs o s
  | .divu o => Sys2Proof.Machine.execDivu o s
  | .rems o => Sys2Proof.Machine.execRems o s
  | .remu o => Sys2Proof.Machine.execRemu o s
  | .and o => Sys2Proof.Machine.execAnd o s
  | .or o => Sys2Proof.Machine.execOr o s
  | .xor o => Sys2Proof.Machine.execXor o s
  | .andn o => Sys2Proof.Machine.execAndn o s
  | .shl o => Sys2Proof.Machine.execShl o s
  | .shrl o => Sys2Proof.Machine.execShrl o s
  | .shra o => Sys2Proof.Machine.execShra o s
  | .rotl o => Sys2Proof.Machine.execRotl o s
  | .min o => Sys2Proof.Machine.execMin o s
  | .max o => Sys2Proof.Machine.execMax o s
  | .minu o => Sys2Proof.Machine.execMinu o s
  | .maxu o => Sys2Proof.Machine.execMaxu o s
  | .cmpeq o => Sys2Proof.Machine.execCmpeq o s
  | .cmplt o => Sys2Proof.Machine.execCmplt o s
  | .cmpltu o => Sys2Proof.Machine.execCmpltu o s
  | .clz o => Sys2Proof.Machine.execClz o s
  | .ctz o => Sys2Proof.Machine.execCtz o s
  | .popc o => Sys2Proof.Machine.execPopc o s
  | .bext o => Sys2Proof.Machine.execBext o s
  | .bins o => Sys2Proof.Machine.execBins o s
  | .sel q o => Sys2Proof.Machine.execSel q o s
  | .addi o => Sys2Proof.Machine.execAddi o s
  | .andi o => Sys2Proof.Machine.execAndi o s
  | .ori o => Sys2Proof.Machine.execOri o s
  | .xori o => Sys2Proof.Machine.execXori o s
  | .cmpeqi o => Sys2Proof.Machine.execCmpeqi o s
  | .cmplti o => Sys2Proof.Machine.execCmplti o s
  | .shli o => Sys2Proof.Machine.execShli o s
  | .shrli o => Sys2Proof.Machine.execShrli o s
  | .shrai o => Sys2Proof.Machine.execShrai o s
  | .fadd m o => Sys2Proof.Machine.execFadd m o s
  | .fsub m o => Sys2Proof.Machine.execFsub m o s
  | .fmul m o => Sys2Proof.Machine.execFmul m o s
  | .ffma m o => Sys2Proof.Machine.execFfma m o s
  | .fdiv m o => Sys2Proof.Machine.execFdiv m o s
  | .fsqrt m o => Sys2Proof.Machine.execFsqrt m o s
  | .fmin m o => Sys2Proof.Machine.execFmin m o s
  | .fmax m o => Sys2Proof.Machine.execFmax m o s
  | .fcmp m o => Sys2Proof.Machine.execFcmp m o s
  | .fcvt m o => Sys2Proof.Machine.execFcvt m o s
  | .faddFp64 m o => Sys2Proof.Machine.execFaddFp64 m o s
  | .fsubFp64 m o => Sys2Proof.Machine.execFsubFp64 m o s
  | .fmulFp64 m o => Sys2Proof.Machine.execFmulFp64 m o s
  | .ffmaFp64 m o => Sys2Proof.Machine.execFfmaFp64 m o s
  | .fdivFp64 m o => Sys2Proof.Machine.execFdivFp64 m o s
  | .fsqrtFp64 m o => Sys2Proof.Machine.execFsqrtFp64 m o s
  | .fminFp64 m o => Sys2Proof.Machine.execFminFp64 m o s
  | .fmaxFp64 m o => Sys2Proof.Machine.execFmaxFp64 m o s
  | .fcmpFp64 m o => Sys2Proof.Machine.execFcmpFp64 m o s
  | .fcvtFp64 m o => Sys2Proof.Machine.execFcvtFp64 m o s
  | .qset o => Sys2Proof.Machine.execQset o s
  | .qand o => Sys2Proof.Machine.execQand o s
  | .qor o => Sys2Proof.Machine.execQor o s
  | .qnot o => Sys2Proof.Machine.execQnot o s
  | .br o => Sys2Proof.Machine.execBr o s
  | .brEqz o => Sys2Proof.Machine.execBrEqz o s
  | .brNez o => Sys2Proof.Machine.execBrNez o s
  | .brLtz o => Sys2Proof.Machine.execBrLtz o s
  | .brGez o => Sys2Proof.Machine.execBrGez o s
  | .brGtz o => Sys2Proof.Machine.execBrGtz o s
  | .brLez o => Sys2Proof.Machine.execBrLez o s
  | .brQ o => Sys2Proof.Machine.execBrQ o s
  | .brNq o => Sys2Proof.Machine.execBrNq o s
  | .loopInit n o => Sys2Proof.Machine.execLoopInit n o s
  | .loop n o => Sys2Proof.Machine.execLoop n o s
  | .loopspInit n o => Sys2Proof.Machine.execLoopspInit n o s
  | .loopsp n o => Sys2Proof.Machine.execLoopsp n o s
  | .jmp o => Sys2Proof.Machine.execJmp o s
  | .call o => Sys2Proof.Machine.execCall o s
  | .ret o => Sys2Proof.Machine.execRet o s
  | .nop o => Sys2Proof.Machine.execNop o s
  | .exit o => Sys2Proof.Machine.execExit o s
  | .brk o => Sys2Proof.Machine.execBrk o s
  | .syscall o => Sys2Proof.Machine.execSyscall o s
  | .trapf o => Sys2Proof.Machine.execTrapf o s
  | .rgn o => Sys2Proof.Machine.execRgn o s
  | .suspend sc o => Sys2Proof.Machine.execSuspend sc o s
  | .suspendYield sc o => Sys2Proof.Machine.execSuspendYield sc o s
  | .watch sc o => Sys2Proof.Machine.execWatch sc o s
  | .spawn o => Sys2Proof.Machine.execSpawn o s
  | .launch o => Sys2Proof.Machine.execLaunch o s
  | .splitchk o => Sys2Proof.Machine.execSplitchk o s
  | .sstep o => Sys2Proof.Machine.execSstep o s
  | .csrrd o => Sys2Proof.Machine.execCsrrd o s
  | .csrwr o => Sys2Proof.Machine.execCsrwr o s
  | .csrset o => Sys2Proof.Machine.execCsrset o s
  | .csrclr o => Sys2Proof.Machine.execCsrclr o s
  | .ld o => Sys2Proof.Machine.execLd o s
  | .st o => Sys2Proof.Machine.execSt o s
  | .hload o => Sys2Proof.Machine.execHload o s
  | .hquery o => Sys2Proof.Machine.execHquery o s
  | .hdrop o => Sys2Proof.Machine.execHdrop o s
  | .atomAdd o v w => Sys2Proof.Machine.execAtomAdd o v w s
  | .atomAnd o v w => Sys2Proof.Machine.execAtomAnd o v w s
  | .atomOr o v w => Sys2Proof.Machine.execAtomOr o v w s
  | .atomXor o v w => Sys2Proof.Machine.execAtomXor o v w s
  | .atomMin o v w => Sys2Proof.Machine.execAtomMin o v w s
  | .atomMax o v w => Sys2Proof.Machine.execAtomMax o v w s
  | .atomMinu o v w => Sys2Proof.Machine.execAtomMinu o v w s
  | .atomMaxu o v w => Sys2Proof.Machine.execAtomMaxu o v w s
  | .atomSwap o v w => Sys2Proof.Machine.execAtomSwap o v w s
  | .atomCas o v w => Sys2Proof.Machine.execAtomCas o v w s
  | .atomFadd o v w => Sys2Proof.Machine.execAtomFadd o v w s
  | .atom2Swap o v w => Sys2Proof.Machine.execAtom2Swap o v w s
  | .atom2Cas o v w => Sys2Proof.Machine.execAtom2Cas o v w s
  | .acq sc o => Sys2Proof.Machine.execAcq sc o s
  | .rel sc o => Sys2Proof.Machine.execRel sc o s
  | .relK sc o => Sys2Proof.Machine.execRelK sc o s
  | .fence sc o => Sys2Proof.Machine.execFence sc o s
  | .kwait o => Sys2Proof.Machine.execKwait o s
  | .kwaitAll o => Sys2Proof.Machine.execKwaitAll o s
  | .ktest o => Sys2Proof.Machine.execKtest o s
  | .kstat o => Sys2Proof.Machine.execKstat o s
  | .kstatClr o => Sys2Proof.Machine.execKstatClr o s
  | .binit o => Sys2Proof.Machine.execBinit o s
  | .barrive o => Sys2Proof.Machine.execBarrive o s
  | .bwait o => Sys2Proof.Machine.execBwait o s
  | .btest o => Sys2Proof.Machine.execBtest o s
  | .commit o => Sys2Proof.Machine.execCommit o s
  | .waitg o => Sys2Proof.Machine.execWaitg o s
  | .waitgAll o => Sys2Proof.Machine.execWaitgAll o s
  | .tblstart e o => Sys2Proof.Machine.execTblstart e o s
  | .tblstop e o => Sys2Proof.Machine.execTblstop e o s
  | .tblbase e o => Sys2Proof.Machine.execTblbase e o s
  | .eret o => Sys2Proof.Machine.execEret o s
  | .halt o => Sys2Proof.Machine.execHalt o s
  | .icinv o => Sys2Proof.Machine.execIcinv o s
  | .codepatch o => Sys2Proof.Machine.execCodepatch o s
  | .dbgstop o => Sys2Proof.Machine.execDbgstop o s
  | .vld o => Sys2Proof.Machine.execVld o s
  | .vst o => Sys2Proof.Machine.execVst o s
  | .vlds o => Sys2Proof.Machine.execVlds o s
  | .vsts o => Sys2Proof.Machine.execVsts o s
  | .vgath o => Sys2Proof.Machine.execVgath o s
  | .vscat o => Sys2Proof.Machine.execVscat o s
  | .vmov o => Sys2Proof.Machine.execVmov o s
  | .vbcast o => Sys2Proof.Machine.execVbcast o s
  | .vextr o => Sys2Proof.Machine.execVextr o s
  | .vins o => Sys2Proof.Machine.execVins o s
  | .vadd o => Sys2Proof.Machine.execVadd o s
  | .vsub o => Sys2Proof.Machine.execVsub o s
  | .vmul o => Sys2Proof.Machine.execVmul o s
  | .vfma o => Sys2Proof.Machine.execVfma o s
  | .vfms o => Sys2Proof.Machine.execVfms o s
  | .vmin o => Sys2Proof.Machine.execVmin o s
  | .vmax o => Sys2Proof.Machine.execVmax o s
  | .vabs o => Sys2Proof.Machine.execVabs o s
  | .vneg o => Sys2Proof.Machine.execVneg o s
  | .vand o => Sys2Proof.Machine.execVand o s
  | .vor o => Sys2Proof.Machine.execVor o s
  | .vxor o => Sys2Proof.Machine.execVxor o s
  | .vnot o => Sys2Proof.Machine.execVnot o s
  | .vshl o => Sys2Proof.Machine.execVshl o s
  | .vshr o => Sys2Proof.Machine.execVshr o s
  | .vshrA o => Sys2Proof.Machine.execVshrA o s
  | .vcmpEq o => Sys2Proof.Machine.execVcmpEq o s
  | .vcmpNe o => Sys2Proof.Machine.execVcmpNe o s
  | .vcmpLt o => Sys2Proof.Machine.execVcmpLt o s
  | .vcmpLe o => Sys2Proof.Machine.execVcmpLe o s
  | .vcmpGt o => Sys2Proof.Machine.execVcmpGt o s
  | .vcmpGe o => Sys2Proof.Machine.execVcmpGe o s
  | .vsel o => Sys2Proof.Machine.execVsel o s
  | .vcvt o => Sys2Proof.Machine.execVcvt o s
  | .vcvtBs o => Sys2Proof.Machine.execVcvtBs o s
  | .vscale o => Sys2Proof.Machine.execVscale o s
  | .vreds o => Sys2Proof.Machine.execVreds o s
  | .vredmMax o => Sys2Proof.Machine.execVredmMax o s
  | .vredmMin o => Sys2Proof.Machine.execVredmMin o s
  | .vscan o => Sys2Proof.Machine.execVscan o s
  | .vperm o => Sys2Proof.Machine.execVperm o s
  | .vslideUp o => Sys2Proof.Machine.execVslideUp o s
  | .vslideDn o => Sys2Proof.Machine.execVslideDn o s
  | .vzip o => Sys2Proof.Machine.execVzip o s
  | .vunzip o => Sys2Proof.Machine.execVunzip o s
  | .viota o => Sys2Proof.Machine.execViota o s
  | .vexp2 o => Sys2Proof.Machine.execVexp2 o s
  | .vlog2 o => Sys2Proof.Machine.execVlog2 o s
  | .vrcp o => Sys2Proof.Machine.execVrcp o s
  | .vrsq o => Sys2Proof.Machine.execVrsq o s
  | .vsin o => Sys2Proof.Machine.execVsin o s
  | .vcos o => Sys2Proof.Machine.execVcos o s
  | .vtanh o => Sys2Proof.Machine.execVtanh o s
  | .vsig o => Sys2Proof.Machine.execVsig o s
  | .mand o => Sys2Proof.Machine.execMand o s
  | .mor o => Sys2Proof.Machine.execMor o s
  | .mnot o => Sys2Proof.Machine.execMnot o s
  | .mpop o => Sys2Proof.Machine.execMpop o s
  | .vchain o => Sys2Proof.Machine.execVchain o s
  | .mcfg o => Sys2Proof.Machine.execMcfg o s
  | .mldw o => Sys2Proof.Machine.execMldw o s
  | .mswap o => Sys2Proof.Machine.execMswap o s
  | .mzero o => Sys2Proof.Machine.execMzero o s
  | .mmul o => Sys2Proof.Machine.execMmul o s
  | .mmulc o => Sys2Proof.Machine.execMmulc o s
  | .mlda o => Sys2Proof.Machine.execMlda o s
  | .mret o => Sys2Proof.Machine.execMret o s
  | .mretFree o => Sys2Proof.Machine.execMretFree o s
  | .tableEnd e m => Sys2Proof.Machine.execTableEnd e m s
  | .tableSeta e m => Sys2Proof.Machine.execTableSeta e m s
  | .tableAdda e m => Sys2Proof.Machine.execTableAdda e m s
  | .wrow m => Sys2Proof.Machine.execWrow m s
  | .arow m => Sys2Proof.Machine.execArow m s
  | .tableSwap m => Sys2Proof.Machine.execTableSwap m s
  | .ztile m => Sys2Proof.Machine.execZtile m s
  | .tableSetl e m => Sys2Proof.Machine.execTableSetl e m s
  | .tableBack e m => Sys2Proof.Machine.execTableBack e m s
  | .prow m => Sys2Proof.Machine.execProw m s
  | .papp m => Sys2Proof.Machine.execPapp m s
  | .seth m => Sys2Proof.Machine.execSeth m s
  | .move m => Sys2Proof.Machine.execMove m s
  | .dect m => Sys2Proof.Machine.execDect m s
  | .plclr o => Sys2Proof.Machine.execPlclr o s
  | .plload o => Sys2Proof.Machine.execPlload o s
  | .plqr o => Sys2Proof.Machine.execPlqr o s
  | .plsolve o => Sys2Proof.Machine.execPlsolve o s
  | .pldrain o => Sys2Proof.Machine.execPldrain o s
  | .pldrainLm o => Sys2Proof.Machine.execPldrainLm o s
  | .plapply o => Sys2Proof.Machine.execPlapply o s
  | .plapplySw o => Sys2Proof.Machine.execPlapplySw o s
  | .plrot o => Sys2Proof.Machine.execPlrot o s
  | .plvec o => Sys2Proof.Machine.execPlvec o s
  | .plswap o => Sys2Proof.Machine.execPlswap o s
  | .cpy o => Sys2Proof.Machine.execCpy o s
  | .cpym o => Sys2Proof.Machine.execCpym o s
  | .cpg o => Sys2Proof.Machine.execCpg o s
  | .cps o => Sys2Proof.Machine.execCps o s
  | .cpredAdd o => Sys2Proof.Machine.execCpredAdd o s
  | .cpredMin o => Sys2Proof.Machine.execCpredMin o s
  | .cpredMax o => Sys2Proof.Machine.execCpredMax o s
  | .cpdec o => Sys2Proof.Machine.execCpdec o s
  | .cpfill o => Sys2Proof.Machine.execCpfill o s
  | .cpremPut o => Sys2Proof.Machine.execCpremPut o s
  | .cpremGet o => Sys2Proof.Machine.execCpremGet o s
  | .cpagentCas128 o => Sys2Proof.Machine.execCpagentCas128 o s
  | .cpagentCas256 o => Sys2Proof.Machine.execCpagentCas256 o s
  | .cpagentEnq o => Sys2Proof.Machine.execCpagentEnq o s
  | .cpagentChase o => Sys2Proof.Machine.execCpagentChase o s
  | .bmupdAdd o => Sys2Proof.Machine.execBmupdAdd o s
  | .bmupdMul o => Sys2Proof.Machine.execBmupdMul o s
  | .bmupdMin o => Sys2Proof.Machine.execBmupdMin o s
  | .bmupdMax o => Sys2Proof.Machine.execBmupdMax o s
  | .bmupdFma o => Sys2Proof.Machine.execBmupdFma o s
  | .bmupdSet o => Sys2Proof.Machine.execBmupdSet o s
  | .hostMemoryAccess f pa wr => Sys2Proof.Machine.execHostMemoryAccess f pa wr s
  | .scaleOutFrameReceive port x => Sys2Proof.Machine.execScaleOutFrameReceive port x s
  | .retransmissionTimeout e => Sys2Proof.Machine.execRetransmissionTimeout e s
  | .ptCommitDone => Sys2Proof.Machine.execPtCommitDone s
  | .patChangeDone => Sys2Proof.Machine.execPatChangeDone s
  | .saveAreaCheckDone t => Sys2Proof.Machine.execSaveAreaCheckDone t s
  | .debugReplayDone c => Sys2Proof.Machine.execDebugReplayDone c s

end Sys2Proof.Machine
end

