-- ==== Sys2Proof/Machine/Fetch.lean ====
section
/-! DEFINITION. Fetching and decoding the instruction at the program counter (07 R129 to R131, R146). -/

namespace Sys2Proof.Machine

/-- The code handle the sequencer fetches through: the launch's, or while privileged the supervisor's
(R129, R418). -/
def State.code? (s : State) : Option Code :=
  if s.core.priv then s.supervisorCode else s.core.job.map (fun j => j.code)

/-- TRAPINFO of a fetch fault (R422). -/
def fetchInfo (pc : BitVec 48) : Word := BitVec.ofNat 64 (pc.toNat * 2 ^ 16 + 0xF * 2 ^ 8)

/-- Whether the entry of a code handle was revoked since the generation it was taken under (R130). -/
def State.codeRevoked (s : State) (c : Code) : Bool :=
  match s.core.job with
  | none => true
  | some j =>
    match s.ctx? j.ctx with
    | none => true
    | some x => (x.entry c.entry).gen != c.gen

/-- The lines of the instruction cache (R131). -/
def icacheLines : Nat := 1024

/-- A line of code from the instruction cache, or filled into it (R130, R131). `line` is a tenant
address. -/
def State.codeLine (s : State) (c : Code) (line : Nat) (info : Word) : Res (List Byte × State) :=
  let t := match s.core.job with
    | some j => j.tenant
    | none => 0
  match s.core.icache.find? (fun l => l.tenant == t && l.entry == c.entry && l.gen == c.gen && l.line == line) with
  | some l => .ok (l.data, s)
  | none =>
    if s.codeRevoked c then .error (.trap 4 info, s)
    else
      match s.translate t line c.kind 4 info with
      | .error e => .error e
      | .ok (pa, s) =>
        match s.ordRead s.domain pa 64 info with
        | .error e => .error e
        | .ok bs =>
          .ok (bs, s.upCore (fun k => { k with icache := (⟨t, c.entry, c.gen, line, bs⟩ :: k.icache).take icacheLines }))

/-- Word `i` of the instruction at the program counter (R130). -/
def State.fetchWord (s : State) (c : Code) (i : Nat) : Res (W32 × State) :=
  let off := s.core.pc.toNat + 4 * i
  let info := fetchInfo s.core.pc
  if c.length < off + 4 then .error (.trap 2 info, s)
  else
    let a := c.base + off
    match s.codeLine c (a / 64 * 64) info with
    | .error e => .error e
    | .ok (bs, s) => .ok (BitVec.ofNat 32 (field bs (a % 64) 4), s)

/-- The instruction at the program counter: further words are fetched while the decoder finds the words
short (R146, steps 1 to 8). -/
def State.readInstr (c : Code) : Nat → State → List W32 → Res (Read × List W32 × State)
  | 0, s, ws => .ok (decode s.core.lim ws, ws, s)
  | n + 1, s, ws =>
    match decode s.core.lim ws with
    | .short =>
      match s.fetchWord c ws.length with
      | .error e => .error e
      | .ok (w, s) => State.readInstr c n s (ws ++ [w])
    | r => .ok (r, ws, s)

/-- TRAPINFO of ILLEGAL_INSN (R146). -/
def illegalInfo (w : W32) (r : Reason) : Word := w ++ BitVec.ofNat 32 r.code

/-- The instruction at the program counter, or the fault of its fetch or decoding (R130, R146). -/
def State.fetch (s : State) : Res (Instr × State) :=
  match s.code? with
  | none => .error (.trap 4 (fetchInfo s.core.pc), s)
  | some c =>
    match State.readInstr c 6 s [] with
    | .error e => .error e
    | .ok (.ok i _, _, s) => .ok (i, s)
    | .ok (.illegal r, ws, s) => .error (.trap 0x10 (illegalInfo (ws.headD 0) r), s)
    | .ok (.short, _, s) => .error (.trap 2 (fetchInfo s.core.pc), s)

end Sys2Proof.Machine
end

