-- ==== Sys2Proof/Machine/Turn.lean ====
section
/-! DEFINITION. Whose turn it is: the next act of the machine (INVENTORY, Agents). An input names it; with no
input left it is an act the device owes, or the next act of the acting core. -/

namespace Sys2Proof.Machine

/-- What comes next: nothing, since there is no power; an act that needs no instruction; an event of the
opcode table; an instruction of the acting core. -/
inductive Turn where
  | off
  | act (s : State)
  | event (i : Instr) (s : State)
  | run (i : Instr) (s : State)
deriving DecidableEq, Repr

/-! ## Counters that every turn advances -/

/-- The physical tokens a queue head waits on. -/
def Cmd.pendingOn (c : Cmd) : List Nat :=
  c.waits.filterMap (fun w => match w with
    | .on _ p => some p
    | .done _ => none)

/-- The class of R470 in which the head of an engine's queue is counted; `held`: the productions that wait for the memory.
The array waits where a pre-emption stops it, before the strand's other engines do (R249). -/
def Core.stallClass (c : Core) (held : List Nat) (e : Eng) : Nat :=
  match c.queue e with
  | [] => 0
  | x :: _ =>
    match x.pendingOn with
    | p :: l => if e = .vector then 32 else l.foldl min p
    | [] =>
      if x.paused.isSome || x.full.isSome || held.contains x.prod then 33
      else if c.preemptReady || c.stopped || (e == .matrix && c.arrayStops) then 34
      else 32

/-- A stall counter raised; it saturates (R469). -/
def bump (l : List (Nat × Word)) (k n : Nat) : List (Nat × Word) :=
  insertKey l k (BitVec.ofNat 64 (satAdd (2 ^ 64 - 1) ((lookup l k).getD 0).toNat n))

/-- The stall counters of one engine after `n` clk (R470). -/
def Core.tickEngine (c : Core) (held : List Nat) (n : Nat) (l : List (Nat × Word)) (e : Eng) : List (Nat × Word) :=
  let b := e.code * 64
  let l := bump l (b + c.stallClass held e) n
  let l := if c.stall = .full e then bump l (b + 35) n else l
  if (c.queue e).any (fun x => x.started && x.isRun) then bump l (b + 36) n else l

/-- The stall counters of a core after `n` clk. -/
def Core.tick (c : Core) (held : List Nat) (n : Nat) : Core :=
  match c.job with
  | none => c
  | some _ => { c with
      stallCnt := [Eng.matrix, .plait, .vector, .copy].foldl (fun l e => c.tickEngine held n l e) c.stallCnt }

/-- The productions of a core's commands that wait for the memory: at a granule in transit (R442), and in the copy engine
while as many requests are outstanding as may be (R324). -/
def State.heldProds (s : State) (core : Nat) : List Nat :=
  let full := decide (4096 ≤ (s.links.reqs.filter (fun r => r.core == core && r.resp.isNone)).length)
  (if full then (s.coreAt core).cq.map (fun x => x.prod) else []) ++
  (s.sweep.stalls.filter (fun x => x.1 == core && s.sweep.moving (x.2.2 / 64))).map (fun x => x.2.1 - 1)

/-- `n` clk during which a core was held: counted, and used of the budget unless the strand
is stopped (R103, R460, R472). -/
def State.heldFor (s : State) (c : Core) (n : Nat) : State :=
  match c.job with
  | none => s
  | some j => s.upFn j.fn (fun f =>
    let f := f.count 1 n
    if c.stopped then f else { f with used := f.used + n })

/-- One step's clk pass: CYCLE, the stall counters, and the clk a function's strands held cores (R469 to
R472). -/
def State.tick (s : State) : State :=
  let n := Config.clk s.stepNo
  let cores := s.core :: s.parked.map (fun p => p.2)
  let s := { s with
    core := s.core.tick (s.heldProds s.coreId) n
    parked := s.parked.map (fun (p : Nat × Core) => (p.1, p.2.tick (s.heldProds p.1) n)) }
  cores.foldl (fun s c => s.heldFor c n) { s with stepNo := s.stepNo + 1 }

/-! ## The acting core -/

/-- The first engine that may act carries its command on; a command that waits for a page-request entry asks first. -/
def State.engineTurn? (s : State) : Option State :=
  ([Eng.vector, .matrix, .plait, .copy].findSome? (fun e => (s.core.queue e).findSome? (fun x => s.askCmd e x))).or
    ([Eng.vector, .matrix, .plait, .copy].findSome? (fun e =>
      match s.runnable e with
      | [] => none
      | x :: _ => some (s.runCmd e x)))

/-- An engine's turn, if one may act. -/
def State.engineTurn (s : State) : State := s.engineTurn?.getD s

/-- A command whose result a scalar register takes (R182). -/
def Cmd.scalarResult (c : Cmd) : Bool :=
  match c.instr with
  | .vextr _ => true
  | .mpop _ => true
  | _ => false

/-- Issue waits for a scalar result still under way (R182). -/
def State.interlocked (s : State) : Bool := s.core.vq.any Cmd.scalarResult && !(s.runnable .vector).isEmpty

/-- The sequencer fetches its next instruction, a wait being tried again. -/
def State.fetchTurn (s : State) : Turn :=
  if s.interlocked then .act (s.runEngine .vector)
  else
    match (s.upCore (fun c => { c with stall := .none })).fetch with
    | .error (e, t) => .act (s.orStalls (t.fetchStop e))
    | .ok (i, s) => .run i (if s.core.entering then s.upCore (fun c => { c with entering := false }) else s)

/-- A strand that ends as HALT does goes on waiting, or ends (R424). -/
def State.haltTurn (s : State) (status : Nat) : State :=
  match s.haltNow status with
  | .ok s => s
  | .error (.wait w, t) => if w.held then s.noteHeld s.coreId s.strandWho w else t.stop (.wait w)
  | .error (e, t) => t.stop e

/-- The turn of the acting core (R13, R182, R415, R425, R460): without a strand, or once stopped for a
pre-emption, nothing; at a stop or while a page is awaited its engines alone; else the sequencer, an engine first
where the sequencer waits. -/
def State.coreTurn (s : State) : Turn :=
  if s.core.job.isNone || s.core.preemptReady then .act s
  else if s.core.stopped then .act s.engineTurn
  else if s.preemptNow then .act (s.orHeld s.preemptPoint)
  else
    match s.core.halting, s.core.stall with
    | some st, _ => .act (s.engineTurn?.getD (s.haltTurn st))
    | none, .none => s.fetchTurn
    | none, .page _ => .act s.engineTurn
    | none, .pageFull => .act (s.askAgain.getD s.engineTurn)
    | none, .drain => .act s.engineTurn
    | none, _ =>
      match s.engineTurn? with
      | some t => .act t
      | none => s.fetchTurn

/-! ## Acts the device owes -/

/-- Without an input: what the device owes, then the acting core. -/
def State.ownTurn (s : State) : Turn :=
  if !s.links.arrivals.isEmpty then .act (s.arrivalTurn 0)
  else
    match s.links.adds.findIdx? (fun a => (s.writeWaits a.1 8).isNone) with
    | some i => .act (s.addTurn i)
    | none =>
    match s.mem.watchers.find? (fun w => w.hit) with
    | some w => .act (s.wakeHit w)
    | none => s.coreTurn

/-- An error that ECC cannot correct arises in a line (R313): the next read of it finds it. In a line of HBM that
holds the scrubbed pattern, one in the data has no effect and one in the metadata poisons the line. -/
def State.decay (s : State) (line : Nat) (meta_ : Bool) : State :=
  if line * 64 < bmBase ∧ (lookup s.mem.domain line).isNone = true then
    if meta_ then { s with mem := s.mem.mark line } else s
  else { s with mem := { s.mem with faulty := insertNum s.mem.faulty line } }

/-- A line of walk space cannot be read as a retirement copies its slice (R444): writes made in the phase reach the copy
too. -/
def State.walkDecay (s : State) (line : Nat) : State :=
  if s.sweep.retiringNow && s.sweep.retiring == some (s.xl.whome.getD (line / 2 ^ 21) 16) then
    { s with sweep := { s.sweep with lost := insertKey s.sweep.lost line ((lookup s.sweep.slice line).getD []) } }
  else s

/-- The next act of the machine. A die junction at 105 °C takes the power away, and without it only a package reset acts
(25 R483). -/
def State.turn (s : State) : Turn :=
  match s.inputs with
  | [] => if s.powered then s.tick.ownTurn else .off
  | x :: l =>
    if !s.powered && x != .event .packageReset then .off
    else
      let s := { s with inputs := l }.tick
      match x with
      | .event i => .event i s
      | .decay line meta_ => .act (s.decay line meta_)
      | .walkDecay line => .act (s.walkDecay line)
      | .sensors p m i =>
        .act (if 105 ≤ m.toNat then s.powerLost else { s with host := { s.host with pwr := p, tmax := m, tin := i } })
      | .run n => (s.focus n).coreTurn
      | .unit c e i => .act (s.on c (fun s => s.unitAct e i))

/-- An instruction has retired (R472): it did unless it waits, stands at its stop point, was rolled back, or ended in a
trap, in the strand's end for want of an entry, or in the loss of its context. -/
def retired (s t : State) : Bool :=
  t.core.stall == .none && !(t.core.stopPassed && !s.core.stopPassed) && t.core.halting.isNone &&
    (s.core.priv || !t.core.priv) && (s.core.reexec || !t.core.reexec) &&
    s.core.job.all (fun j => (s.ctx? j.ctx).isNone || (t.ctx? j.ctx).isSome)

/-- The next state after an instruction, counted if it retired (R472). One that waits for the memory has done nothing yet
(R363). -/
def counted (s : State) (r : Outcome) : Outcome :=
  match r with
  | .next t => .next (s.orStalls (if retired s t then t.countFor s.core.job 2 1 else t))
  | r => r

end Sys2Proof.Machine
end

