-- ==== Sys2Proof/Machine/Step.lean ====
section
/-! DEFINITION. One step of the machine, and the state whose next step runs a given instruction. -/

namespace Sys2Proof.Machine

/-- One step: the next act (`State.turn`), carried out. -/
def step (s : State) : Host.Outcome State Fault Refusal :=
  match s.turn with
  | .off => .fault .poweredOff
  | .act t => .next t
  | .event i t => exec i t
  | .run i t => counted t (exec i t)

/-- The job of a core for which no launch fixed one: code of tenant 0 from address 0 on, every register
present, no shares (log 32). -/
def Job.bare : Job where
  launch := 0
  strand := 0
  ctx := 0
  fn := 0
  tenant := 0
  workid := 0
  ncores := 1
  rank := 0
  mode := 0
  lim := Limits.max
  rsb := 256
  code := ⟨0, 0, 0, 2 ^ 32, 3⟩
  hlStart := 0
  admitted := []
  lmBase := 0
  lmBytes := 2 ^ 21
  cpCluster := 0
  cpBase := 0
  cpBytes := 2 ^ 20
  group := 0
  coreGroup := none
  tables := []
  readyAt := 0

/-- The instruction whose bits are `w` put where the acting core fetches next: a line of its instruction
cache at PC 0 of its code. The core runs a strand, unprivileged, waits for nothing, and no other act comes
first (log 32). -/
def State.withFetchWord (s : State) (nbits w : Nat) : State :=
  let j : Job := { s.core.job.getD Job.bare with lim := Limits.max, code := Job.bare.code }
  let l : ILine := ⟨j.tenant, 0, 0, 0, leBytes 64 (w % 2 ^ nbits)⟩
  { s with
    powered := true
    inputs := []
    links := { s.links with arrivals := [], adds := [] }
    mem := { s.mem with watchers := s.mem.watchers.map (fun w => { w with hit := false }) }
    core := { s.core with
      job := some j
      pc := 0
      priv := false
      icache := l :: s.core.icache
      stall := .none
      halting := none
      entering := false
      stopped := false
      preempt := false
      preemptReady := false
      vq := [] } }

end Sys2Proof.Machine
end

