-- ==== Sys2Proof/Safety.lean ====
section
/-! DEFINITION. What claims call a sound state, runs of the machine, and the words claims are stated in: what
an instruction answers, and what it leaves as it was. -/

namespace Sys2Proof.Machine

/-- Memory keeps its canonical form: addresses strictly rising, no listed byte zero. -/
def State.memOk (s : State) : Prop := Memory.wf s.mem.cells = true

/-- A state that some number of steps reaches from another. -/
inductive Reaches : State → State → Prop where
  | refl (s : State) : Reaches s s
  | step (s t u : State) : Reaches s t → Machine.step t = .next u → Reaches s u

/-- `i` completes in `s`: exec answers a next state, of which `p` holds. -/
def Gives (i : Instr) (s : State) (p : State → Prop) : Prop := ∃ t, exec i s = .next t ∧ p t

/-! ## What an instruction of the sequencer leaves as it was -/

/-- Nothing but the program counter of the acting core changed; it is `pc` now. -/
def PcOnly (s t : State) (pc : BitVec 48) : Prop := t = { s with core := { s.core with pc := pc } }

/-- `t` is `s` after an instruction of `n` words whose only results are scalar register `d`, now `v`, and flags
ORed in. Register 0 discards its result; every other physical scalar register, every other register of the
core and the rest of the machine stay, and the program counter moves past the instruction. -/
def ScalarResult (s t : State) (d : Nat) (v : Word) (fl : BitVec 5) (n : Nat) : Prop :=
  (∀ p, t.core.live.s.getD p 0 = if d ≠ 0 ∧ p = s.core.physS d then v else s.core.live.s.getD p 0) ∧
  t.core.live.flags = s.core.live.flags ||| BitVec.zeroExtend 64 fl ∧
  t = { s with core := { s.core with
    pc := s.core.pc + BitVec.ofNat 48 (4 * n)
    live := { s.core.live with s := t.core.live.s, flags := t.core.live.flags } } }

/-- `t` is `s` after a one-word instruction whose only result is stage predicate `d`, now `b`. -/
def PredicateResult (s t : State) (d : Nat) (b : Bool) : Prop :=
  (∀ i, t.core.live.q.getLsbD i = if i = d ∧ i < 8 then b else s.core.live.q.getLsbD i) ∧
  t = { s with core := { s.core with
    pc := s.core.pc + 4
    live := { s.core.live with q := t.core.live.q } } }

/-- A target that R164 admits under a code handle of `len` bytes. -/
def TargetIn (len : Nat) (t : Int) : Prop := 0 ≤ t ∧ t % 4 = 0 ∧ t + 4 ≤ len ∧ t + 4 ≤ 2 ^ 48

/-- A target that R164 admits under the code handle in force. -/
def TargetGood (s : State) (t : Int) : Prop := TargetIn s.codeLength t

/-- Every byte of memory outside `n` bytes from `a` reads as before. -/
def SameOutside (s t : State) (a n : Nat) : Prop :=
  ∀ c, (c < a ∨ a + n ≤ c) → memGet t.mem.cells c = memGet s.mem.cells c

/-- The strand of the acting core holds nothing back: no store buffered, no line in its line buffer, no posted
write awaited, no status held. -/
def State.settled (s : State) : Prop :=
  s.core.sbuf = [] ∧ s.core.lines = [] ∧ s.core.posted = [] ∧ s.core.held = []

/-- A region ended and the next one began at the program counter of `t` (R171, R409): RSEQ rose by 1, the
region log is the registers as they stand, the store buffer is empty. -/
def NextRegion (s t : State) : Prop :=
  t.core.rseq = s.core.rseq + 1 ∧ t.core.closed = false ∧ t.core.ckpt = t.core.live ∧ t.core.startPc = t.core.pc ∧
    t.core.startPriv = t.core.priv ∧ t.core.sbuf = []

/-- A trap can be taken from `s`, at `vec` (R418): the strand is unprivileged, has buffered no store, and its
context has a supervisor; the debug port is shut. -/
def State.trapReady (s : State) (vec : Word) : Prop :=
  s.core.priv = false ∧ s.core.sbuf = [] ∧ s.entry? = some vec ∧ s.trust.debugOpen = false

/-- `t` is `s` after trap entry (R420): cause, detail and saved program counter written, privileged at the
vector in the next region, every live register and all of memory as before. -/
def TrapTaken (s t : State) (cause info : Word) (epc : BitVec 48) (vec : Word) : Prop :=
  t.core.trapCause = cause ∧ t.core.trapInfo = info ∧ t.core.epc = BitVec.zeroExtend 64 epc ∧
    t.core.priv = true ∧ t.core.pc = BitVec.ofNat 48 vec.toNat ∧ t.core.live = s.core.live ∧
    t.core.trapScr = s.core.trapScr ∧ t.mem = s.mem ∧ NextRegion s t

/-! ## The share of the strand -/

/-- `n` bytes of the strand's LM share from an offset lie within it, and none of its lines is poisoned. -/
def State.lmGood (s : State) (j : Job) (off n : Nat) : Prop :=
  s.core.job = some j ∧ off + n ≤ j.lmBytes ∧
    ∀ l ∈ linesOf (lmPlace s.coreId j.lmBase + off) n, s.bad s.domain l = false

/-- Every line that `n` bytes from `a` touch reads as good for the strand, and no granule of them is in transit. -/
def State.goodAt (s : State) (a n : Nat) : Prop :=
  (∀ l ∈ linesOf a n, s.bad s.domain l = false) ∧ s.transit? a n = none

/-- Every line that `n` bytes from `a` touch reads as good for the strand, and a write of them waits for nothing: no
granule of them is in transit, and no line of HBM among them has still to be scrubbed (R442, R455). -/
def State.writableAt (s : State) (a n : Nat) : Prop :=
  (∀ l ∈ linesOf a n, s.bad s.domain l = false) ∧ s.writeWaits a n = none

/-- The view of an access to this package, and the place it names, with the states the check and the
translation leave: only caches of handles and translations, and the error log, differ from `s` there. -/
def State.finds (s : State) (h off n : Nat) (need : Right) (v : View) (a : Nat) (u x : State) : Prop :=
  s.readHandle h off n need 0 = .ok (v, u) ∧ v.local_ = true ∧
    u.viewPlace v off need.page (accessInfo off 0 h) = .ok (a, x)

/-- A control transfer of `i` to a target that R164 does not admit: HANDLE_BOUNDS exactly at `i`, naming no handle, and
no register written. -/
def RefusesTarget (s : State) (i : Instr) (target : Int) : Prop :=
  s.codeLength ≤ 2 ^ 48 → ¬TargetGood s target →
    ∀ vec, s.trapReady vec → Gives i s (fun t => TrapTaken s t 2 0 s.core.pc vec)

/-- `t` is `s` after the acting core sent a request to another package, whose response the strand now awaits at its
instruction (R317, R383, R385). -/
def Asked (s t : State) (op : HoopOp) (v : View) (a : Nat) (bs : List Byte) (n : Nat) : Prop :=
  ∃ r : Req, t.links.reqs = s.links.reqs ++ [r] ∧ r.op = op ∧ r.rank = v.rank ∧ r.addr = a ∧ r.bytes = bs ∧ r.len = n ∧
    r.core = s.coreId ∧ r.resp = none ∧ r.posted = false ∧ t.core.remote = some r.id ∧ t.core.stall = .busy ∧
    t.core.pc = s.core.pc ∧ t.core.live = s.core.live ∧ t.mem = s.mem

/-- The response to the request that the acting core awaits: its status and its bytes. -/
def State.answered (s : State) (st : BitVec 8) (bs : List Byte) : Prop :=
  ∃ id r, s.core.remote = some id ∧ s.links.reqs.find? (fun r => r.id == id) = some r ∧ r.resp = some (st, bs)

/-- `t` is `s` after the acting core posted a write of `bs` to another package, its acknowledgement awaited (R360,
R408). -/
def Posted (s t : State) (v : View) (a : Nat) (bs : List Byte) : Prop :=
  ∃ r : Req, t.links.reqs = s.links.reqs ++ [r] ∧ r.op = .write ∧ r.rank = v.rank ∧ r.addr = a ∧ r.bytes = bs ∧
    r.posted = true ∧ r.resp = none ∧ t.core.posted = s.core.posted ++ [r.id] ∧ t.mem = s.mem

/-- Scalar registers of `t` are those of `s` but for logical register `d`, which holds `v`; 0 discards. -/
def RegSet (s t : State) (d : Nat) (v : Word) : Prop :=
  (∀ p, t.core.live.s.getD p 0 = if d ≠ 0 ∧ p = s.core.physS d then v else s.core.live.s.getD p 0) ∧
    t.core.live = { s.core.live with s := t.core.live.s, flags := t.core.live.flags }

/-- What every scalar memory instruction leaves alone besides the registers of `RegSet`. -/
def MemFrame (s t : State) (n : Nat) : Prop :=
  t.core.pc = s.core.pc + BitVec.ofNat 48 (4 * n) ∧ t.core.priv = s.core.priv ∧ t.core.arrays = s.core.arrays ∧
    t.core.queued = s.core.queued ∧ t.core.trapCause = s.core.trapCause ∧ t.core.trapInfo = s.core.trapInfo ∧
    t.core.epc = s.core.epc ∧ t.core.trapScr = s.core.trapScr ∧ t.core.job = s.core.job

/-- Memory of `t` is that of `s` but for the bytes `bs` at `a`. -/
def BytesPut (s t : State) (a : Nat) (bs : List Byte) : Prop :=
  memRead t.mem.cells a bs.length = bs ∧ SameOutside s t a bs.length

/-- All of a core but its stall counters, which every turn advances (R469). -/
def Core.unticked (c : Core) : Core := { c with stallCnt := [] }

/-- A command entered an engine's queue as its last entry, for instruction `i`, and nothing else of the core
changed but the program counter, the production number and the token it names (R154, R366). -/
def Enqueued (s t : State) (e : Eng) (i : Instr) (kd n : Nat) : Prop :=
  ∃ x : Cmd, x.instr = i ∧ x.prod = s.core.prod ∧ x.rseq = s.core.rseq ∧ x.started = false ∧
    t.core.queue e = s.core.queue e ++ [x] ∧ t.core.prod = s.core.prod + 1 ∧
    t.core.pc = s.core.pc + BitVec.ofNat 48 (4 * n) ∧
    t.core.live.k = (if kd = 0 then s.core.live.k
      else upd Tok.reset s.core.live.k (s.core.physK kd) ⟨true, 0, 0, s.core.prod⟩) ∧
    t.core.live.s = s.core.live.s ∧ t.core.live.v = s.core.live.v ∧ t.core.live.flags = s.core.live.flags ∧
    t.core.arrays = s.core.arrays ∧ t.mem = s.mem

end Sys2Proof.Machine
end

