-- ==== Sys2Proof/Certificates/Slice0/Obligations.lean ====
section
/-! DEFINITION. The statements for the provers. -/

open Sys2Proof Sys2Proof.Machine

/-! ## Scalar integer instructions (08 R156 to R159) -/

/-- 08 R156: the result of every integer instruction of two operands without flags, as a number; the frame of
`ScalarResult`; a result for s0 is discarded (R132). -/
def Obligations.IntegerResults : Prop :=
  ∀ (o : OpA) (s : State),
    let a := s.opA o
    let b := s.opB o
    let u (n : Nat) : Word := BitVec.ofNat 64 n
    ∀ p ∈ [(Instr.add o, u (a.toNat + b.toNat)), (.sub o, u (a.toNat + (2 ^ 64 - b.toNat))),
        (.mul o, u (a.toNat * b.toNat)),
        (.mulhs o, BitVec.ofInt 64 ((a.toInt * b.toInt) / 2 ^ 64)),
        (.mulhu o, u (a.toNat * b.toNat / 2 ^ 64)),
        (.and o, u (a.toNat &&& b.toNat)), (.or o, u (a.toNat ||| b.toNat)), (.xor o, u (a.toNat ^^^ b.toNat)),
        (.andn o, u (a.toNat &&& (2 ^ 64 - 1 - b.toNat))),
        (.shl o, u (a.toNat * 2 ^ (b.toNat % 64))), (.shrl o, u (a.toNat / 2 ^ (b.toNat % 64))),
        (.shra o, BitVec.ofInt 64 (a.toInt / 2 ^ (b.toNat % 64))),
        (.rotl o, u (a.toNat * 2 ^ (b.toNat % 64) + a.toNat / 2 ^ (64 - b.toNat % 64))),
        (.min o, if a.toInt ≤ b.toInt then a else b), (.max o, if a.toInt ≤ b.toInt then b else a),
        (.minu o, u (min a.toNat b.toNat)), (.maxu o, u (max a.toNat b.toNat)),
        (.cmpeq o, if a = b then 1 else 0), (.cmplt o, if a.toInt < b.toInt then 1 else 0),
        (.cmpltu o, if a.toNat < b.toNat then 1 else 0)],
      Gives p.1 s (fun t => ScalarResult s t o.d.toNat p.2 0 o.len)

/-- 08 R156: CLZ, CTZ and POPC count the bits of operand a, 64 for a zero operand; SEL chooses by its stage
predicate. Frame as `ScalarResult`. -/
def Obligations.BitCountResults : Prop :=
  ∀ (o : OpA) (q : BitVec 3) (s : State),
    let a := s.opA o
    (∃ n : Nat, n ≤ 64 ∧ (∀ i, i < 64 → 64 - n ≤ i → a.getLsbD i = false) ∧
      (n < 64 → a.getLsbD (63 - n) = true) ∧
      Gives (.clz o) s (fun t => ScalarResult s t o.d.toNat (BitVec.ofNat 64 n) 0 o.len)) ∧
    (∃ n : Nat, n ≤ 64 ∧ (∀ i, i < n → a.getLsbD i = false) ∧ (n < 64 → a.getLsbD n = true) ∧
      Gives (.ctz o) s (fun t => ScalarResult s t o.d.toNat (BitVec.ofNat 64 n) 0 o.len)) ∧
    Gives (.popc o) s (fun t => ScalarResult s t o.d.toNat
      (BitVec.ofNat 64 ((List.range 64).filter (fun i => a.getLsbD i)).length) 0 o.len) ∧
    Gives (.sel q o) s (fun t => ScalarResult s t o.d.toNat
      (if s.core.live.q.getLsbD q.toNat then a else s.opB o) 0 o.len)

/-- 08 R157: quotient and remainder of every pair of operands, the flags of a division by zero, and the one
signed overflow. -/
def Obligations.DivisionResults : Prop :=
  ∀ (o : OpA) (s : State),
    let x := s.opA o
    let y := s.opB o
    let ones : Word := BitVec.allOnes 64
    let flag : BitVec 5 := if y = 0 then (if x = 0 then fINV else fDZ) else 0
    let wraps : Prop := x.toInt = -(2 ^ 63) ∧ y.toInt = -1
    ∀ p ∈ [(Instr.divu o, if y = 0 then ones else BitVec.ofNat 64 (x.toNat / y.toNat)),
        (.remu o, if y = 0 then x else BitVec.ofNat 64 (x.toNat - x.toNat / y.toNat * y.toNat)),
        (.divs o, if y = 0 then ones else
          if wraps then BitVec.ofInt 64 (-(2 ^ 63)) else BitVec.ofInt 64 (x.toInt.tdiv y.toInt)),
        (.rems o, if y = 0 then x else
          if wraps then 0 else BitVec.ofInt 64 (x.toInt - x.toInt.tdiv y.toInt * y.toInt))],
      Gives p.1 s (fun t => ScalarResult s t o.d.toNat p.2 flag o.len)

/-- 08 R158: every bit of the result of BEXT and BINS, position and length taken from the field control. -/
def Obligations.BitFieldResults : Prop :=
  ∀ (o : OpA) (s : State),
    let c := (s.opB o).toNat
    let p := c % 64
    let n0 := c / 256 % 128
    let n := if n0 = 0 ∨ 64 < n0 then 0 else if 64 < p + n0 then 64 - p else n0
    (∃ v : Word, (∀ i, i < 64 → v.getLsbD i = (decide (i < n) && (s.opA o).getLsbD (p + i))) ∧
      Gives (.bext o) s (fun t => ScalarResult s t o.d.toNat v 0 o.len)) ∧
    (∃ v : Word, (∀ i, i < 64 → v.getLsbD i =
        if p ≤ i ∧ i < p + n then (s.opA o).getLsbD (i - p) else (s.getS o.d.toNat).getLsbD i) ∧
      Gives (.bins o) s (fun t => ScalarResult s t o.d.toNat v 0 o.len))

/-- 08 R159: the immediate forms and the shifts by an immediate count. -/
def Obligations.ImmediateResults : Prop :=
  ∀ (o : OpI) (h : OpJ) (s : State),
    let a := s.getS o.a.toNat
    let i := BitVec.ofInt 64 o.imm.toInt
    let b := s.getS h.a.toNat
    let k := h.n.toNat % 64
    (∀ p ∈ [(Instr.addi o, BitVec.ofNat 64 (a.toNat + i.toNat)), (.andi o, BitVec.ofNat 64 (a.toNat &&& i.toNat)),
        (.ori o, BitVec.ofNat 64 (a.toNat ||| i.toNat)), (.xori o, BitVec.ofNat 64 (a.toNat ^^^ i.toNat)),
        (.cmpeqi o, if a = i then 1 else 0), (.cmplti o, if a.toInt < o.imm.toInt then 1 else 0)],
      Gives p.1 s (fun t => ScalarResult s t o.d.toNat p.2 0 1)) ∧
    (∀ p ∈ [(Instr.shli h, BitVec.ofNat 64 (b.toNat * 2 ^ k)), (.shrli h, BitVec.ofNat 64 (b.toNat / 2 ^ k)),
        (.shrai h, BitVec.ofInt 64 (b.toInt / 2 ^ k))],
      Gives p.1 s (fun t => ScalarResult s t h.d.toNat p.2 0 1))

/-! ## Scalar floating point (08 R160 to R162) -/

/-- The result of a scalar floating-point instruction: the exact result rounded once into the format, flags
ORed in, substream 0 as the rounding left it (R65, R160). -/
def FloatResult (s t : State) (o : OpA) (f : Fmt) (m : Nat) (r : Val × BitVec 5) : Prop :=
  let x := finish f m (.reg false) r ⟨s.core.sub.getD 0 0, 0⟩
  ScalarResult { s with core := { s.core with sub := upd 0 s.core.sub 0 x.2.st } } t o.d.toNat
    (BitVec.ofNat 64 x.1) x.2.fl o.len

/-- 08 R160, R161: every arithmetic instruction of both formats forms its exact result and rounds it once. -/
def Obligations.FloatResults : Prop :=
  ∀ (o : OpA) (m : BitVec 3) (s : State) (dbl : Bool),
    let f := if dbl then Fmt.fp64 else .fp32
    let of (w : Word) : Val := decodeVal f (if dbl then w.toNat else w.toNat % 2 ^ 32)
    let x := of (s.opA o)
    let z := of (s.getS o.d.toNat)
    let y := if o.b = 62 then decodeVal .fp32 (o.lit.toNat % 2 ^ 32) else
      if o.b = 63 then decodeVal .fp64 o.lit.toNat else of (s.getS o.b.toNat)
    let pick (a b : Instr) : Instr := if dbl then b else a
    ∀ p ∈ [(pick (.fadd m o) (.faddFp64 m o), m.toNat, addV m.toNat x y),
        (pick (.fsub m o) (.fsubFp64 m o), m.toNat, addV m.toNat x y.neg),
        (pick (.fmul m o) (.fmulFp64 m o), m.toNat, mulV x y),
        (pick (.ffma m o) (.ffmaFp64 m o), m.toNat, fmaV m.toNat x y z),
        (pick (.fdiv m o) (.fdivFp64 m o), m.toNat, divV x y),
        (pick (.fsqrt m o) (.fsqrtFp64 m o), m.toNat, sqrtV x),
        (pick (.fmin m o) (.fminFp64 m o), 0, minV x y),
        (pick (.fmax m o) (.fmaxFp64 m o), 0, maxV x y)],
      Gives p.1 s (fun t => FloatResult s t o f p.2.1 p.2.2)

/-- 08 R161: FCMP of two numbers, the second a register or a literal, compares them exactly and sets no flag; with a NaN operand .eq, .lt and .le
give 0 and .un gives 1, .lt and .le set INV, and .eq and .un set it for a signalling NaN alone. -/
def FloatCompares : Prop :=
  ∀ (o : OpA) (m : BitVec 3) (s : State), m.toNat ≤ 3 →
    ∀ dbl : Bool,
      let of (w : Word) : Val := if dbl then decodeVal .fp64 w.toNat else decodeVal .fp32 (w.toNat % 2 ^ 32)
      let x := of (s.opA o)
      let y := if o.b = 62 then decodeVal .fp32 (o.lit.toNat % 2 ^ 32) else
        if o.b = 63 then decodeVal .fp64 o.lit.toNat else of (s.getS o.b.toNat)
      let i := if dbl then Instr.fcmpFp64 m o else .fcmp m o
      let nan := x.isNaN || y.isNaN
      let v : Word := if nan then (if m = 3 then 1 else 0) else
        match m.toNat with
        | 0 => if cmpV x y = 0 then 1 else 0
        | 1 => if cmpV x y < 0 then 1 else 0
        | 2 => if cmpV x y ≤ 0 then 1 else 0
        | _ => 0
      let fl : BitVec 5 := if !nan then 0 else
        if m = 1 ∨ m = 2 ∨ x.isSig = true ∨ y.isSig = true then fINV else 0
      Gives i s (fun t => ScalarResult s t o.d.toNat v fl o.len)

/-- 08 R162: each conversion by its code. -/
def FloatConverts : Prop :=
  ∀ (o : OpA) (m : BitVec 3) (s : State),
    let a := s.opA o
    let f32 := decodeVal .fp32 (a.toNat % 2 ^ 32)
    let f64 := decodeVal .fp64 a.toNat
    let int := Val.ofInt a.toInt
    let nat := Val.ofInt a.toNat
    (∀ p ∈ [(0, Fmt.fp32, f64), (1, .fp32, int), (2, .fp32, nat), (3, .int 64, f32), (4, .uint 64, f32)],
      o.b.toNat = p.1 → Gives (.fcvt m o) s (fun t => FloatResult s t o p.2.1 m.toNat (p.2.2, 0))) ∧
    (∀ p ∈ [(0, Fmt.fp64, f32), (1, .fp64, int), (2, .fp64, nat), (3, .int 64, f64), (4, .uint 64, f64)],
      o.b.toNat = p.1 → Gives (.fcvtFp64 m o) s (fun t => FloatResult s t o p.2.1 m.toNat (p.2.2, 0)))

/-- 08 R161, R162: FCMP and FCVT of both formats. -/
def Obligations.FloatComparesAndConverts : Prop := FloatCompares ∧ FloatConverts

/-! ## Predicates, branches and calls (08 R163 to R166) -/

/-- 08 R163: the four predicate instructions; no other predicate and nothing else changes. -/
def Obligations.PredicateResults : Prop :=
  ∀ (o : OpA) (s : State), o.d.toNat < 8 →
    let q (n : BitVec 6) : Bool := s.core.live.q.getLsbD n.toNat
    ∀ p ∈ [(Instr.qset o, decide (s.opA o ≠ 0)), (.qand o, q o.a && q o.b), (.qor o, q o.a || q o.b),
        (.qnot o, !q o.a)],
      Gives p.1 s (fun t => PredicateResult s t o.d.toNat p.2)

/-- The branches of 08 R165 with the condition under which each is taken. -/
def branches (o : OpB) (s : State) : List (Instr × Prop) :=
  let a := (s.getS o.a.toNat).toInt
  let q := s.core.live.q.getLsbD (o.a.toNat % 8)
  [(.br o, True), (.brEqz o, a = 0), (.brNez o, a ≠ 0), (.brLtz o, a < 0), (.brGez o, 0 ≤ a), (.brGtz o, 0 < a),
    (.brLez o, a ≤ 0), (.brQ o, q = true), (.brNq o, q = false)]

/-- 08 R164, R165: a taken branch goes to PC + 4 × disp16, one not taken to the next word, and nothing else changes; a
taken one to a bad target traps, TRAPINFO zero (log 13). -/
def Obligations.BranchResults : Prop :=
  ∀ (o : OpB) (s : State), ∀ p ∈ branches o s,
    let target := (s.core.pc.toNat : Int) + 4 * o.disp.toInt
    (p.2 → TargetGood s target → Gives p.1 s (fun t => PcOnly s t (BitVec.ofInt 48 target))) ∧
    (p.2 → RefusesTarget s p.1 target) ∧
    (¬p.2 → Gives p.1 s (fun t => PcOnly s t (s.core.pc + 4)))

/-- 08 R164, R166: JMP, CALL and RET; CALL's link is the address after it, and s0 discards it; a bad target traps
(log 13). -/
def Obligations.CallResults : Prop :=
  ∀ (o : OpA) (s : State),
    let go (n : Nat) : Prop := TargetGood s n
    RefusesTarget s (.jmp o) (s.opB o).toNat ∧ RefusesTarget s (.ret o) (s.opA o).toNat ∧
    RefusesTarget s (.call o) (s.opB o).toNat ∧
    (go (s.opB o).toNat → Gives (.jmp o) s (fun t => PcOnly s t (BitVec.ofNat 48 (s.opB o).toNat))) ∧
    (go (s.opA o).toNat → Gives (.ret o) s (fun t => PcOnly s t (BitVec.ofNat 48 (s.opA o).toNat))) ∧
    (go (s.opB o).toNat → Gives (.call o) s (fun t =>
      ∃ u, ScalarResult s u o.d.toNat (BitVec.zeroExtend 64 (s.core.pc + BitVec.ofNat 48 (4 * o.len))) 0 0 ∧
        PcOnly u t (BitVec.ofNat 48 (s.opB o).toNat)))

/-! ## Hardware loops (08 R167, R168) -/

/-- `t` is `s` with loop counter `n` at `lc`, its iteration count at `itc`, and the program counter at `pc`;
`f` says what else changed among the registers. -/
def LoopResult (s t : State) (n : Nat) (lc itc : W32) (pc : BitVec 48) (f : Regs → Regs) : Prop :=
  t = { s with core := { s.core with
    pc := pc
    live := f { s.core.live with lc := upd 0 s.core.live.lc n lc, itc := upd 0 s.core.live.itc n itc } } }

/-- 08 R164, R167, R168, 23 R463, R464: both init forms by their count; the counter remembers its form; a
skipped loop with a bad target traps (log 13). -/
def Obligations.LoopInit : Prop :=
  ∀ (n : BitVec 2) (o : OpB) (s : State),
    let c := (s.getS o.a.toNat).toInt
    let target := (s.core.pc.toNat : Int) + 4 * o.disp.toInt
    let plain (g : Regs) : Regs := { g with lsp := upd false g.lsp n.toNat false }
    let pipe (g : Regs) : Regs := { g with lsp := upd false g.lsp n.toNat true }
    let start (g : Regs) : Regs := { pipe g with q := 1, rbs := 0, rbv := 0, rbk := 0 }
    let ovf (g : Regs) : Regs := { g with flags := g.flags ||| 4 }
    let i := Instr.loopInit n o
    let j := Instr.loopspInit n o
    (c ≤ 0 → RefusesTarget s i target ∧ RefusesTarget s j target) ∧
    (c ≤ 0 → TargetGood s target →
      Gives i s (fun t => LoopResult s t n.toNat 0 0 (BitVec.ofInt 48 target) plain) ∧
      Gives j s (fun t => LoopResult s t n.toNat 0 0 (BitVec.ofInt 48 target) (fun g => { pipe g with q := 0 }))) ∧
    (0 < c → c < 2 ^ 32 →
      Gives i s (fun t => LoopResult s t n.toNat (BitVec.ofInt 32 c) 0 (s.core.pc + 4) plain) ∧
      Gives j s (fun t => LoopResult s t n.toNat (BitVec.ofInt 32 c) 0 (s.core.pc + 4) start)) ∧
    (2 ^ 32 ≤ c →
      Gives i s (fun t => LoopResult s t n.toNat 0xFFFFFFFF 0 (s.core.pc + 4) (fun g => ovf (plain g))) ∧
      Gives j s (fun t => LoopResult s t n.toNat 0xFFFFFFFF 0 (s.core.pc + 4) (fun g => ovf (start g))))

/-- 08 R164, R167: a LOOP back-edge of a strand the debug port does not watch. -/
def BackEdge : Prop :=
  ∀ (n : BitVec 2) (o : OpB) (s : State), s.core.stopPending = false → s.trust.debugOpen = false →
    let lc := s.core.live.lc.getD n.toNat 0
    let new := if lc = 0 then 0 else lc - 1
    let itc := s.core.live.itc.getD n.toNat 0 + 1
    let target := (s.core.pc.toNat : Int) + 4 * o.disp.toInt
    (new ≠ 0 → RefusesTarget s (.loop n o) target) ∧
    (new ≠ 0 → TargetGood s target →
      Gives (.loop n o) s (fun t => LoopResult s t n.toNat new itc (BitVec.ofInt 48 target) id)) ∧
    (new = 0 → Gives (.loop n o) s (fun t => LoopResult s t n.toNat 0 itc (s.core.pc + 4) id))

/-- 08 R164, R168: a LOOPSP back-edge of S stages: counter, rotation bases, the shift of the predicates, and the
branch while one of the S stage predicates is set. -/
def PipelinedBack : Prop :=
  ∀ (n : BitVec 2) (o : OpB) (s : State), s.core.stopPending = false → s.trust.debugOpen = false →
    let lc := s.core.live.lc.getD n.toNat 0
    let new := if lc = 0 then 0 else lc - 1
    let itc := s.core.live.itc.getD n.toNat 0 + 1
    let target := (s.core.pc.toNat : Int) + 4 * o.disp.toInt
    let stages := o.a.toNat % 8 + 1
    let l := s.core.lim
    let rot (rb size : Nat) : Nat := if size = 0 then rb else (((rb : Int) - 1) % size).toNat
    ∃ q : BitVec 8, (∀ i, i < 8 → q.getLsbD i = if i = 0 then decide (new ≠ 0) else s.core.live.q.getLsbD (i - 1)) ∧
      let f (g : Regs) : Regs :=
        { g with q := q, rbs := rot g.rbs l.rots, rbv := rot g.rbv l.rotv, rbk := rot g.rbk l.rotk }
      ((∃ i, i < stages ∧ q.getLsbD i = true) → RefusesTarget s (.loopsp n o) target) ∧
      ((∃ i, i < stages ∧ q.getLsbD i = true) → TargetGood s target →
        Gives (.loopsp n o) s (fun t => LoopResult s t n.toNat new itc (BitVec.ofInt 48 target) f)) ∧
      ((∀ i, i < stages → q.getLsbD i = false) →
        Gives (.loopsp n o) s (fun t => LoopResult s t n.toNat new itc (s.core.pc + 4) f))

/-- 08 R164, R167, R168: the back-edges of plain and of pipelined loops; a bad target traps (log 13). -/
def Obligations.LoopBackEdges : Prop := BackEdge ∧ PipelinedBack

/-! ## Regions, traps and the privileged instructions (08 R178, R180; 20 R418 to R424; 23 R462, R467) -/

/-- 08 R178, 20 R409, R413: NOP has no effect; RGN ends the region once its stores are performed, and the next
begins after it. -/
def Obligations.RegionBoundary : Prop :=
  ∀ (o : OpA) (s u : State),
    Gives (.nop o) s (fun t => PcOnly s t (s.core.pc + 4)) ∧
    (s.drain s.core.sbuf = .ok u →
      Gives (.rgn o) s (fun t => NextRegion u t ∧ t.core.pc = u.core.pc + 4 ∧ t.core.live = u.core.live ∧
        t.core.priv = u.core.priv ∧ t.core.lines = u.core.lines ∧ t.core.arrays = u.core.arrays ∧ t.mem = u.mem))

/-- 08 R178, 20 R420: BRK and SYSCALL trap, at themselves and at the next instruction. -/
def TrapsAlways : Prop :=
  ∀ (o : OpA) (s : State) (vec : Word), s.trapReady vec →
    Gives (.brk o) s (fun t => TrapTaken s t 0x15 0 s.core.pc vec) ∧
    Gives (.syscall o) s (fun t =>
      TrapTaken s t 0x16 (s.opB o) (s.core.pc + BitVec.ofNat 48 (4 * o.len)) vec)

/-- 08 R180: TRAPF reads FLAGS and FLAGEN; without an enabled flag it only advances, with one it traps. -/
def TrapsOnFlags : Prop :=
  ∀ (o : OpA) (s : State),
    let f := s.core.live.flags &&& s.core.live.flagen &&& 0x1F
    (f = 0 → Gives (.trapf o) s (fun t => PcOnly s t (s.core.pc + 4))) ∧
    (∀ vec, f ≠ 0 → s.trapReady vec → Gives (.trapf o) s (fun t => TrapTaken s t 0x14 f (s.core.pc + 4) vec))

/-- 08 R178, R180, 20 R420: BRK, SYSCALL and TRAPF. The boundary of BRK and SYSCALL and that of trap entry are one, so
RSEQ rises once (log 25). -/
def Obligations.TrapInstructions : Prop := TrapsAlways ∧ TrapsOnFlags

/-- 20 R424: ERET closes the region, leaves privileged mode and goes to EPC; every register stays. -/
def Obligations.ReturnFromTrap : Prop :=
  ∀ (o : OpA) (s : State) (j : Job), s.core.priv = true → s.core.sbuf = [] → s.core.job = some j →
    s.core.epc.toNat % 4 = 0 → s.core.epc.toNat + 4 ≤ j.code.length →
    Gives (.eret o) s (fun t => t.core.priv = false ∧ t.core.pc = BitVec.ofNat 48 s.core.epc.toNat ∧
      t.core.live = s.core.live ∧ t.core.epc = s.core.epc ∧ t.core.trapCause = s.core.trapCause ∧
      t.core.trapInfo = s.core.trapInfo ∧ t.core.trapScr = s.core.trapScr ∧ t.mem = s.mem ∧ NextRegion s t)

/-- 07 R134, R136, 20 R422, R424: every privileged instruction, and every access to a privileged control
register, issued unprivileged traps with PRIV and has no effect of its own. -/
def Obligations.PrivilegeTraps : Prop :=
  ∀ (o : OpA) (c : OpJ) (s : State) (vec : Word), s.trapReady vec →
    let info (i : Instr) (n : Nat) : Word := (encode i).headD 0 ++ BitVec.ofNat 32 n
    (∀ i ∈ [Instr.eret o, .halt o, .icinv o, .codepatch o, .dbgstop o],
      Gives i s (fun t => TrapTaken s t 0x11 (info i 0) s.core.pc vec)) ∧
    (0x800 ≤ c.n.toNat → ∀ i ∈ [Instr.csrrd c, .csrwr c, .csrset c, .csrclr c],
      Gives i s (fun t => TrapTaken s t 0x11 (info i c.n.toNat) s.core.pc vec))

/-- 23 R462: DBGSTOP marks the strand stop pending in state DEBUG, and has no effect outside it. -/
def Obligations.DebugStop : Prop :=
  ∀ (o : OpA) (s : State), s.core.priv = true →
    (s.trust.lcNow = .debug → Gives (.dbgstop o) s (fun t =>
      t = { s with core := { s.core with pc := s.core.pc + 4, stopPending := true } })) ∧
    (s.trust.lcNow ≠ .debug → Gives (.dbgstop o) s (fun t => PcOnly s t (s.core.pc + 4)))

/-- 08 R179, 20 R424, 24 R474, R475: EXIT and HALT end a strand whose engines are idle: the core falls idle, and
the launch counts the strand's end with its status: for EXIT that of the lowest token that holds an error. -/
def Obligations.StrandEnds : Prop :=
  ∀ (o : OpA) (s : State) (j : Job) (l : Launch), s.settled → s.core.queued = [] → s.core.job = some j →
    s.launch? j.launch = some l →
    let first : Nat := match (List.range 32).find? (fun k => (s.getK k).status != 0) with
      | some k => (s.getK k).status.toNat
      | none => 0
    ∀ p ∈ [(Instr.exit o, first, s.core.stopPending = false),
        (.halt o, s.core.trapCause.toNat % 256, s.core.priv = true)],
      p.2.2 → Gives p.1 s (fun t => t.core.job = none ∧ t.core.live = Regs.reset ∧
        ∃ l', t.launch? j.launch = some l' ∧ l'.live = l.live - 1 ∧ j.strand ∈ l'.exited ∧
          (p.2.1 = 0 → l'.bad = l.bad ∧ l'.exits = l.exits) ∧
          (p.2.1 ≠ 0 → l'.exits = l.exits + 1 ∧ (l.bad = none → l'.bad = some (j.workid.toNat, p.2.1))))

/-- 23 R467: ICINV drops the lines of the instruction caches within its scope that hold the address; CODEPATCH
first writes the word there. -/
def Obligations.CodeChanges : Prop :=
  ∀ (o : OpA) (s u x : State) (v : View) (a : Nat), s.core.priv = true →
    let b := (s.opB o).toNat
    let off := b - b % 4
    let info := accessInfo off 0 o.a.toNat
    let dropped (t : State) : Prop :=
      let hit (l : ILine) : Prop := l.tenant = s.tenant ∧ l.line = (v.base + off) / 64 * 64
      (∀ l ∈ t.core.icache, ¬hit l) ∧
      ∀ p ∈ t.parked, (b % 4 = 3 ∨ b % 4 = 2 ∧ p.1 / 96 = s.coreId / 96 ∨ b % 4 = 1 ∧ p.1 / 4 = s.coreId / 4) →
        ∀ l ∈ p.2.icache, ¬hit l
    (s.readHandle o.a.toNat off 4 .rdx 0 = .ok (v, u) → u.core.sbuf = [] →
      Gives (.icinv o) s (fun t => dropped t ∧ t.core.pc = u.core.pc + BitVec.ofNat 48 (4 * o.len) ∧
        t.core.live = u.core.live ∧ t.mem = u.mem ∧ NextRegion u t)) ∧
    (u.memOk → s.readHandle o.a.toNat off 4 .cwx 0 = .ok (v, u) → u.core.sbuf = [] → u.core.lines = [] →
      v.local_ = true →
      u.viewPlace v off 2 info = .ok (a, x) → u.writableAt a 4 →
      Gives (.codepatch o) s (fun t => dropped t ∧ t.core.pc = u.core.pc + BitVec.ofNat 48 (4 * o.len) ∧
        t.core.live = u.core.live ∧ memRead t.mem.cells a 4 = leBytes 4 (s.getS o.d.toNat).toNat ∧
        SameOutside u t a 4 ∧ NextRegion u t))

/-! ## Control registers (07 R135, R136; 08 R181) -/

/-- 07 R135, 08 R181, 20 R414, 21 R439, R447, 23 R469: CSRRD of every register the strand may read: the value, in `d`
alone. RANK is the package's own (log 24), LIVE what `State.regionLive` says of R248. -/
def Obligations.ControlRead : Prop :=
  ∀ (o : OpJ) (s : State) (j : Job), s.core.job = some j → (o.n.toNat < 0x800 ∨ s.core.priv = true) →
    let w (n : Nat) : Word := BitVec.ofNat 64 n
    let g := s.sweep
    let r := s.rotation j.tenant
    let sel := s.core.stallSel.toNat % 256
    let trapvec : Word := match s.ctx? j.ctx with
      | some c => c.trapvec
      | none => 0
    let mark := if g.phaseNum.toNat % 2 = 1 then g.win % 512 * 2 ^ 32 + g.gran % 2 ^ 28 else 0
    let keymark := if r.act then 2 ^ 63 + r.ext % 2 ^ 16 * 2 ^ 32 + r.line % 2 ^ 19 else 0
    let rgnctl := (if s.regionLive then 2 ^ 63 else 0) + (if s.core.reexec then 2 ^ 62 else 0) +
      s.core.lastCause.toNat * 2 ^ 60 + (bufferLines s.core.sbuf).length * 2 ^ 48 + s.core.rseq.toNat
    let count := if 37 ≤ sel % 64 then 0 else (lookup s.core.stallCnt sel).getD 0
    let table : List (Nat × Word) := [(0x006, BitVec.zeroExtend 64 Config.ownRank), (0x800, trapvec),
      (0x810, w (g.retiring.getD 0 % 16 * 2 ^ 36 + g.phaseNum.toNat)), (0x811, w mark), (0x812, w keymark),
      (0x820, w rgnctl), (0x831, count),
      (0x000, w j.ncores), (0x001, w s.coreId), (0x002, w (s.coreId / 4)),
      (0x003, w (s.coreId / 96)), (0x004, j.workid), (0x005, w j.tenant), (0x007, s.cycle),
      (0x008, w s.xl.capacity), (0x010, s.core.live.flags), (0x011, s.core.live.flagen),
      (0x012, s.core.live.rnglo), (0x013, s.core.live.rnghi), (0x801, s.core.trapCause),
      (0x802, s.core.trapInfo), (0x803, s.core.epc), (0x804, s.core.trapScr), (0x830, s.core.stallSel)]
    ∃ v, (∀ p ∈ table, o.n.toNat = p.1 → v = p.2) ∧
      Gives (.csrrd o) s (fun t => ScalarResult s t o.d.toNat v 0 1)

/-- The control registers of a core that software writes as plain values: number, writable bits, value. -/
def plainCsrs : List (Nat × Word × (State → Word)) :=
  let all : Word := BitVec.allOnes 64
  [(0x010, 0x1F, fun s => s.core.live.flags), (0x011, 0x1F, fun s => s.core.live.flagen),
    (0x012, all, fun s => s.core.live.rnglo), (0x013, all, fun s => s.core.live.rnghi),
    (0x801, 0x3FF, fun s => s.core.trapCause), (0x802, all, fun s => s.core.trapInfo),
    (0x803, all, fun s => s.core.epc), (0x804, all, fun s => s.core.trapScr)]

/-- The control registers that no write of theirs changes (R135). -/
def readOnlyCsrs : List Nat :=
  [0x000, 0x001, 0x002, 0x003, 0x004, 0x005, 0x006, 0x007, 0x008, 0x810, 0x811, 0x812]

/-- 07 R136, 08 R181, 20 R414, R418, 23 R469: CSRWR, CSRSET and CSRCLR of any register the strand may write: `d` takes
the old value, the named register its new one with reserved bits dropped, and every other control register, every
other scalar register and all of memory stay. TRAPVEC is its context's; RGNCTL takes a 0 written to LAST alone;
STALLSEL clears the counters where CLR is written; CSRSET and CSRCLR with s0 write nothing. -/
def Obligations.ControlWrite : Prop :=
  ∀ (o : OpJ) (s : State), (o.n.toNat < 0x800 ∨ s.core.priv = true) →
    let a := s.getS o.a.toNat
    ∀ p ∈ [(Instr.csrwr o, true, fun (_ : Word) => a), (.csrset o, decide (o.a ≠ 0), fun x => x ||| a),
        (.csrclr o, decide (o.a ≠ 0), fun x => x &&& ~~~a)],
      let old := s.csr o.n.toNat
      let new := p.2.2 old
      let to_ (n : Nat) : Prop := o.n.toNat = n ∧ p.2.1 = true
      (∀ r ∈ plainCsrs, s.csr r.1 = r.2.2 s) ∧
        Gives p.1 s (fun t =>
          (∀ r ∈ plainCsrs, r.2.2 t =
            if o.n.toNat = r.1 ∧ p.2.1 = true then p.2.2 (r.2.2 s) &&& r.2.1 else r.2.2 s) ∧
          (∀ j, s.core.job = some j → ∀ m c, s.ctx? m = some c → t.ctx? m =
            some (if m = j.ctx ∧ o.n.toNat = 0x800 ∧ p.2.1 = true then { c with trapvec := new } else c)) ∧
          (to_ 0x820 ∧ bits new.toNat 61 60 = 0 → t.core.lastCause = 0) ∧
          (¬(to_ 0x820 ∧ bits new.toNat 61 60 = 0) → t.core.lastCause = s.core.lastCause) ∧
          (to_ 0x830 → t.core.stallSel = new &&& 0xFF ∧
            t.core.stallCnt = if new.getLsbD 63 then [] else s.core.stallCnt) ∧
          (¬to_ 0x830 → t.core.stallSel = s.core.stallSel ∧ t.core.stallCnt = s.core.stallCnt) ∧
          (∀ n ∈ readOnlyCsrs, t.csr n = s.csr n) ∧
          (∀ k, t.core.live.s.getD k 0 =
            if o.d ≠ 0 ∧ k = s.core.physS o.d.toNat then old else s.core.live.s.getD k 0) ∧
          t.core.pc = s.core.pc + 4 ∧ t.core.priv = s.core.priv ∧ t.core.rseq = s.core.rseq ∧ t.mem = s.mem)

/-! ## Scalar memory (13 R316 to R320; 15 R381 to R383) -/

/-- 13 R316, R317, R320: LD of this package's memory, plain and acquire: `t` takes the bytes at the place the
handle and the offset name, zero-extended; no byte of memory and nothing else among the registers changes; an
acquire load lies between two regions. -/
def LoadsFromMemory : Prop :=
  ∀ (o : OpM) (s u x : State) (v : View) (a : Nat),
    let n := 2 ^ o.size.toNat
    s.finds o.h.toNat (s.memOff o) n .rd v a u x → s.memOff o % n = 0 → a % n = 0 →
    s.settled → s.goodAt a n →
    Gives (.ld o) s (fun t => RegSet s t o.t.toNat (BitVec.ofNat 64 (leNat (memRead s.mem.cells a n))) ∧
      t.core.live.flags = s.core.live.flags ∧ MemFrame s t (1 + litLen o.x) ∧ t.mem = s.mem ∧
      (o.order = 0 → t.core.rseq = s.core.rseq) ∧ (o.order ≠ 0 → NextRegion s t))

/-- 13 R317, R320: a plain LD of bytes that the newest buffered store holds, and of bytes that are valid in the line
buffer, takes them from there. -/
def LoadsFromBuffers : Prop :=
  ∀ (o : OpM) (s u x : State) (v : View) (a : Nat) (l : List SEntry),
    let n := 2 ^ o.size.toNat
    let takes (bs : List Byte) (t : State) : Prop := RegSet s t o.t.toNat (BitVec.ofNat 64 (leNat bs)) ∧
      t.core.live.flags = s.core.live.flags ∧ MemFrame s t (1 + litLen o.x) ∧ t.mem = s.mem ∧
      t.core.sbuf = s.core.sbuf ∧ t.core.rseq = s.core.rseq
    o.order = 0 → s.finds o.h.toNat (s.memOff o) n .rd v a u x → s.memOff o % n = 0 →
    (∀ e, s.core.sbuf = l ++ [e] → e.view.local_ = true → e.place ≤ a → a + n ≤ e.place + e.bytes.length →
      Gives (.ld o) s (takes ((e.bytes.drop (a - e.place)).take n))) ∧
    (∀ y, s.core.sbuf = [] → 2 ≤ v.kind → a % n = 0 → s.core.lines.length ≤ 32 →
      s.core.lines.find? (fun l => l.line == a / 64) = some y → (∀ k, k < n → y.valid.getLsbD (a % 64 + k) = true) →
      Gives (.ld o) s (takes ((y.data.drop (a % 64)).take n)))

/-- 13 R317, 16 R385, R391: a plain LD of another package's memory asks for the bytes and waits; a response with status
OK gives them to `t`, one with an error status of R367 traps with it. -/
def LoadsFromPackages : Prop :=
  ∀ (o : OpM) (s u : State) (v : View) (bs : List Byte) (st : BitVec 8) (vec : Word),
    let n := 2 ^ o.size.toNat
    let off := s.memOff o
    s.readHandle o.h.toNat off n .rd 0 = .ok (v, u) → v.local_ = false → off % n = 0 → o.order = 0 →
    s.core.sbuf = [] → u.rankStops v.rank = none →
    (u.core.remote = none → u.rankFault v.rank true = none → u.requestsFull = false →
      Gives (.ld o) s (fun t => Asked u t .read v (v.base + off) [] n)) ∧
    (u.answered 0 bs → Gives (.ld o) s (fun t => RegSet s t o.t.toNat (BitVec.ofNat 64 (leNat bs)) ∧
      MemFrame s t (1 + litLen o.x) ∧ t.mem = s.mem ∧ t.core.remote = none)) ∧
    (u.answered st bs → 1 ≤ st.toNat → st.toNat ≤ 0xD → st ≠ 9 → u.trapReady vec →
      Gives (.ld o) s (fun t => TrapTaken u t (BitVec.ofNat 64 st.toNat)
        (BitVec.ofNat 64 (off % 2 ^ 48 * 2 ^ 16 + o.h.toNat)) s.core.pc vec))

/-- 13 R316, R317, R320, 16 R385: LD from memory, from the buffers, and from another package. -/
def Obligations.LoadResults : Prop := LoadsFromMemory ∧ LoadsFromBuffers ∧ LoadsFromPackages

/-- 13 R316, R317, R319: ST. To local memory, and as a release anywhere in this package, the low bytes of `t` are
at the place the handle and the offset name when it ends, and no other byte changed; a plain store elsewhere
enters the store buffer as its last entry while its line fits. -/
def StoresHere : Prop :=
  ∀ (o : OpM) (s u x : State) (v : View) (a : Nat),
    let n := 2 ^ o.size.toNat
    let off := s.memOff o
    let bs := leBytes n (s.getS o.t.toNat).toNat
    s.memOk → s.finds o.h.toNat off n .w v a u x → off % n = 0 →
    (o.order = 0 → v.kind = 0 → s.goodAt a n → Gives (.st o) s (fun t =>
      t.core.live = s.core.live ∧ MemFrame s t (1 + litLen o.x) ∧ BytesPut s t a bs ∧
        t.core.sbuf = s.core.sbuf ∧ t.core.rseq = s.core.rseq)) ∧
    (o.order = 0 → v.kind ≠ 0 → s.goodAt a n → ∀ j, s.core.job = some j →
      (bufferLines (s.core.sbuf ++ [⟨v, a, bs⟩])).length ≤ min j.rsb 1024 →
      Gives (.st o) s (fun t => t.core.live = s.core.live ∧ MemFrame s t (1 + litLen o.x) ∧ t.mem = s.mem ∧
        t.core.sbuf = s.core.sbuf ++ [⟨v, a, bs⟩] ∧ t.core.rseq = s.core.rseq)) ∧
    (o.order ≠ 0 → s.settled → s.writableAt a n → Gives (.st o) s (fun t =>
      t.core.live = s.core.live ∧ MemFrame s t (1 + litLen o.x) ∧ BytesPut s t a bs ∧ NextRegion s t))

/-- 13 R317 to R319, 16 R360, R391: ST to another package: a plain store enters the store buffer; a release posts it,
its acknowledgement awaited. -/
def StoresElsewhere : Prop :=
  ∀ (o : OpM) (s u : State) (v : View) (j : Job),
    let n := 2 ^ o.size.toNat
    let off := s.memOff o
    let bs := leBytes n (s.getS o.t.toNat).toNat
    s.readHandle o.h.toNat off n .w 0 = .ok (v, u) → v.local_ = false → off % n = 0 → u.rankStops v.rank ≠ some 3 →
    (o.order = 0 → v.kind ≠ 0 → s.core.job = some j →
      (bufferLines (s.core.sbuf ++ [⟨v, v.base + off, bs⟩])).length ≤ min j.rsb 1024 →
      Gives (.st o) s (fun t => t.core.live = s.core.live ∧ MemFrame s t (1 + litLen o.x) ∧ t.mem = s.mem ∧
        t.core.sbuf = s.core.sbuf ++ [⟨v, v.base + off, bs⟩] ∧ t.core.rseq = s.core.rseq)) ∧
    (o.order ≠ 0 → s.settled → u.rankFault v.rank true = none → u.requestsFull = false → Gives (.st o) s (fun t =>
      Posted u t v (v.base + off) bs ∧ t.core.live = s.core.live ∧ MemFrame s t (1 + litLen o.x) ∧ NextRegion s t))

/-- 13 R316 to R319: ST to this package and to another. -/
def Obligations.StoreResults : Prop := StoresHere ∧ StoresElsewhere

/-- 13 R317, 20 R413, 16 R360: a buffered store to another package is posted as its region ends, and no byte of this
package's memory changes. -/
def BufferedRemoteStore : Prop :=
  ∀ (o : OpA) (s : State) (e : SEntry), s.core.sbuf = [e] → e.view.local_ = false →
    s.rankFault e.view.rank true = none → s.requestsFull = false →
    Gives (.rgn o) s (fun t => Posted s t e.view e.place e.bytes ∧ t.core.live = s.core.live ∧
      t.core.pc = s.core.pc + 4 ∧ NextRegion s t)

/-- 13 R319, R320, 15 R380: a store the buffer holds is in memory once a FENCE ends its region, and no other byte
of memory changes. -/
def BufferedStore : Prop :=
  ∀ (sc : BitVec 3) (o : OpA) (s : State) (e : SEntry), s.memOk → s.core.sbuf = [e] → s.core.lines = [] →
    s.core.posted = [] → s.core.held = [] → e.view.local_ = true → 1 ≤ e.bytes.length →
    e.place % 64 + e.bytes.length ≤ 64 → s.writableAt e.place e.bytes.length →
    Gives (.fence sc o) s (fun t => BytesPut s t e.place e.bytes ∧ t.core.live = s.core.live ∧
      t.core.lines = [] ∧ t.core.pc = s.core.pc + 4 ∧ NextRegion s t)

/-- 13 R320, 15 R354, R380: a dirty line of the line buffer reaches memory at a FENCE, and at an ACQ or a REL of an
unguarded handle such as h0: its dirty bytes, and no others. -/
def LinesWrittenBack : Prop :=
  ∀ (sc : BitVec 3) (o : OpA) (s : State) (l : LineBuf), s.memOk → s.core.sbuf = [] → s.core.lines = [l] →
    l.data.length = 64 → s.core.posted = [] → s.core.held = [] → s.writableAt (l.line * 64) 64 → o.a.toNat ≤ 1 →
    (s.getK o.d.toNat).pend = false → (s.getK o.b.toNat).pend = false →
    ∀ i ∈ [Instr.fence sc o, .acq sc o, .rel sc o, .relK sc o],
      Gives i s (fun t => t.core.lines = [] ∧ t.core.live = s.core.live ∧ t.core.pc = s.core.pc + 4 ∧
        NextRegion s t ∧ SameOutside s t (l.line * 64) 64 ∧
        ∀ k, k < 64 → memGet t.mem.cells (l.line * 64 + k) =
          if l.dirty.getLsbD k then l.data.getD k 0 else memGet s.mem.cells (l.line * 64 + k))

/-- 13 R319, R320, 15 R354, R380, 16 R360: what a strand stored is in memory after a FENCE, and on its way to another
package after a region's end. -/
def Obligations.StoresReachMemory : Prop := BufferedStore ∧ LinesWrittenBack ∧ BufferedRemoteStore

/-- 15 R380: ACQ, REL, REL.k and FENCE of a strand that holds nothing back only end a region, whatever handle is
named, once the handle passes its checks. -/
def Obligations.FencesComplete : Prop :=
  ∀ (sc : BitVec 3) (o : OpA) (s u : State) (g : Option Nat), s.settled →
    (s.upCore (fun c => c.emptied.shut)).guardOf o.a.toNat = .ok (g, u) →
    (s.getK o.d.toNat).pend = false → (s.getK o.b.toNat).pend = false →
    ∀ i ∈ [Instr.fence sc o, .acq sc o, .rel sc o, .relK sc o],
      Gives i s (fun t => NextRegion s t ∧ t.core.live = s.core.live ∧ t.mem = s.mem ∧ MemFrame s t 1)

/-- 13 R316, 20 R420, R422: LD, ST and the atomics trap with HANDLE_BOUNDS beyond the LM share or at an offset
that is no multiple of their size, with HANDLE_STALE through an EMPTY register, and with HANDLE_REVOKED through a
REVOKED one; TRAPINFO names offset and register. An atomic already sent to another package is checked no more. -/
def Obligations.MemoryTraps : Prop :=
  ∀ (o : OpM) (a b : BitVec 6) (s : State) (j : Job) (vec : Word), s.trapReady vec → s.core.job = some j →
    let n := 2 ^ o.size.toNat
    let off := s.memOff o
    let sent (i : Instr) : Prop := i ≠ .ld o ∧ i ≠ .st o ∧ s.sentAtomic ≠ none
    ∀ p ∈ [(Instr.ld o, n), (.st o, n), (.atomAdd o a b, n), (.atomAnd o a b, n), (.atomOr o a b, n),
        (.atomXor o a b, n), (.atomMin o a b, n), (.atomMax o a b, n), (.atomMinu o a b, n), (.atomMaxu o a b, n),
        (.atomSwap o a b, n), (.atomCas o a b, n), (.atomFadd o a b, n), (.atom2Swap o a b, 16),
        (.atom2Cas o a b, 16)],
      ¬sent p.1 →
      let info : Word := BitVec.ofNat 64 (off % 2 ^ 48 * 2 ^ 16 + o.h.toNat)
      (o.h = 0 → (j.lmBytes < off + p.2 ∨ off % p.2 ≠ 0) →
        Gives p.1 s (fun t => TrapTaken s t 2 info s.core.pc vec)) ∧
      (2 ≤ o.h.toNat → s.core.live.h.getD o.h.toNat .empty = .empty →
        Gives p.1 s (fun t => TrapTaken s t 5 info s.core.pc vec)) ∧
      (∀ e g, 2 ≤ o.h.toNat → s.core.live.h.getD o.h.toNat .empty = .revoked e g →
        Gives p.1 s (fun t => TrapTaken s t 4 info s.core.pc vec))

/-- 15 R381, R383: what every one-word atomic of 1, 2, 4 or 8 bytes writes: the new value by its operation; .fadd has
the two larger sizes alone. -/
def AtomicWords : Prop :=
  ∀ (o : OpM) (b c : BitVec 6) (s u x : State) (v : View) (a : Nat),
    let n := 2 ^ o.size.toNat
    let m := 2 ^ (8 * n)
    let si (w : Nat) : Int := if 2 * w < m then w else (w : Int) - m
    let y := (s.getS b.toNat).toNat % m
    let z := (s.getS c.toNat).toNat % m
    let old := leNat (memRead s.mem.cells a n)
    let f := if n = 4 then Fmt.fp32 else .fp64
    let sum := finish f 0 (.reg false) (addV 0 (decodeVal f old) (decodeVal f y)) ⟨0, 0⟩
    s.memOk → s.finds o.h.toNat (s.memOff o) n .at v a u x → s.memOff o % n = 0 → s.settled → s.writableAt a n →
    s.sentAtomic = none →
    ∀ p ∈ [(Instr.atomAdd o b c, (old + y) % m, (0 : BitVec 5)), (.atomAnd o b c, old &&& y, 0),
        (.atomOr o b c, old ||| y, 0), (.atomXor o b c, old ^^^ y, 0),
        (.atomMin o b c, if si old ≤ si y then old else y, 0), (.atomMax o b c, if si old ≤ si y then y else old, 0),
        (.atomMinu o b c, min old y, 0), (.atomMaxu o b c, max old y, 0), (.atomSwap o b c, y, 0),
        (.atomCas o b c, if old = y then z else old, 0)] ++
        (if 2 ≤ o.size.toNat then [(Instr.atomFadd o b c, sum.1, sum.2.fl)] else []),
      Gives p.1 s (fun t => RegSet s t o.t.toNat (BitVec.ofNat 64 old) ∧
        t.core.live.flags = s.core.live.flags ||| BitVec.zeroExtend 64 p.2.2 ∧
        MemFrame s t (2 + litLen o.x) ∧ BytesPut s t a (leBytes n p.2.1) ∧ NextRegion s t)

/-- 15 R382, R383: the 16-byte swap and compare-and-swap, with their register pairs. -/
def AtomicPairs : Prop :=
  ∀ (o : OpM) (b c : BitVec 6) (s u x : State) (v : View) (a : Nat),
    let pair (r : BitVec 6) : Nat :=
      if r = 0 then 0 else (s.getS r.toNat).toNat + (s.getS (r.toNat + 1)).toNat * 2 ^ 64
    let old := leNat (memRead s.mem.cells a 16)
    s.memOk → s.finds o.h.toNat (s.memOff o) 16 .at v a u x → s.memOff o % 16 = 0 → s.settled →
    s.writableAt a 16 →
    s.sentAtomic = none →
    ∀ p ∈ [(Instr.atom2Swap o b c, pair b), (.atom2Cas o b c, if old = pair b then pair c else old)],
      Gives p.1 s (fun t =>
        (∀ k, t.core.live.s.getD k 0 =
          if o.t ≠ 0 ∧ k = s.core.physS (o.t.toNat + 1) then BitVec.ofNat 64 (old / 2 ^ 64)
          else if o.t ≠ 0 ∧ k = s.core.physS o.t.toNat then BitVec.ofNat 64 old else s.core.live.s.getD k 0) ∧
        t.core.live.flags = s.core.live.flags ∧ MemFrame s t (2 + litLen o.x) ∧
        BytesPut s t a (leBytes 16 p.2) ∧ NextRegion s t)

/-- 15 R381 to R383, 16 R385: an atomic on another package's memory asks once, with its operation and operands, and
waits; the response gives the old value, and a region ends, whatever has become of its handle since. The layout of the
request is log 30. -/
def AtomicsElsewhere : Prop :=
  ∀ (o : OpM) (b c : BitVec 6) (s u : State) (v : View) (bs : List Byte),
    let n := 2 ^ o.size.toNat
    let off := s.memOff o
    let w (r : BitVec 6) : Nat := (s.getS r.toNat).toNat % 2 ^ (8 * n)
    let pair (r : BitVec 6) : Nat :=
      if r = 0 then 0 else (s.getS r.toNat).toNat + (s.getS (r.toNat + 1)).toNat * 2 ^ 64
    let f := if n = 4 then Fmt.fp32 else .fp64
    let sum := finish f 0 (.reg false) (addV 0 (decodeVal f (leNat bs)) (decodeVal f (w b))) ⟨0, 0⟩
    let asks (op m y z : Nat) : List Byte := [BitVec.ofNat 8 op] ++ leBytes m y ++ leBytes m z
    let ready (m : Nat) : Prop := s.readHandle o.h.toNat off m .at 0 = .ok (v, u) ∧ v.local_ = false ∧ off % m = 0 ∧
      u.rankStops v.rank = none ∧ u.settled ∧
      s.sentAtomic = none ∧ u.core.remote = none ∧ u.core.kept = [] ∧ u.rankFault v.rank true = none ∧
      u.requestsFull = false
    let back : Prop := s.settled ∧ ∃ r, s.sentAtomic = some r ∧ r.resp = some (0, bs)
    (∀ p ∈ [(Instr.atomAdd o b c, 0), (.atomAnd o b c, 1), (.atomOr o b c, 2), (.atomXor o b c, 3),
        (.atomMin o b c, 4), (.atomMax o b c, 5), (.atomMinu o b c, 6), (.atomMaxu o b c, 7), (.atomSwap o b c, 8),
        (.atomCas o b c, 9)] ++ (if 2 ≤ o.size.toNat then [(.atomFadd o b c, 10)] else []),
      (ready n → Gives p.1 s (fun t => Asked u t .atomic v (v.base + off) (asks p.2 n (w b) (w c)) n)) ∧
      (back → Gives p.1 s (fun t => RegSet s t o.t.toNat (BitVec.ofNat 64 (leNat bs)) ∧
        t.core.live.flags = s.core.live.flags ||| (if p.2 = 10 then BitVec.zeroExtend 64 sum.2.fl else 0) ∧
        MemFrame s t (2 + litLen o.x) ∧ t.mem = s.mem ∧ t.core.remote = none ∧ NextRegion s t))) ∧
    (∀ p ∈ [(Instr.atom2Swap o b c, 8), (.atom2Cas o b c, 9)],
      (ready 16 → Gives p.1 s (fun t => Asked u t .atomic v (v.base + off) (asks p.2 16 (pair b) (pair c)) 16)) ∧
      (back → Gives p.1 s (fun t =>
        (∀ k, t.core.live.s.getD k 0 =
          if o.t ≠ 0 ∧ k = s.core.physS (o.t.toNat + 1) then BitVec.ofNat 64 (leNat bs / 2 ^ 64)
          else if o.t ≠ 0 ∧ k = s.core.physS o.t.toNat then BitVec.ofNat 64 (leNat bs) else s.core.live.s.getD k 0) ∧
        MemFrame s t (2 + litLen o.x) ∧ t.mem = s.mem ∧ t.core.remote = none ∧ NextRegion s t)))

/-- 15 R381 to R383: every atomic returns the old value, writes the new one, and lies between two regions. The request
to another package is laid out as log 30 says. -/
def Obligations.AtomicResults : Prop := AtomicWords ∧ AtomicPairs ∧ AtomicsElsewhere

/-! ## Handles, tokens, groups and barriers (04 R83; 13 R321, R322; 15 R366 to R378) -/

/-- 04 R82, R83, 13 R321, R322: HLOAD takes a list element with the generation recorded at admission while the
entry still has it; HDROP empties the register; HQUERY of h0 and h1 gives the hardware's own records, and of any
other register the word of the view its check gives, format and extents with it where it has a parameter record. -/
def Obligations.HandleResults : Prop :=
  ∀ (o : OpA) (s u : State) (j : Job) (c : Ctx) (v : View), s.core.job = some j →
    let i := (s.opB o).toNat
    let own (n : Nat) : Word :=
      BitVec.ofNat 64 (2 ^ 57 + o.a.toNat * 2 ^ 55 + 0x13 * 2 ^ 48 + n % 2 ^ 48)
    (s.ctx? j.ctx = some c → i < j.admitted.length →
      (c.entry (j.hlStart + i)).gen = j.admitted.getD i 0 →
      Gives (.hload o) s (fun t =>
        (∀ k, t.core.live.h.getD k .empty = if k = o.d.toNat
          then .valid (j.hlStart + i) (j.admitted.getD i 0) else s.core.live.h.getD k .empty) ∧
        t = { s with core := { s.core with
          pc := s.core.pc + BitVec.ofNat 48 (4 * o.len)
          live := { s.core.live with h := t.core.live.h } } })) ∧
    Gives (.hdrop o) s (fun t =>
      (∀ k, t.core.live.h.getD k .empty = if k = o.a.toNat then .empty else s.core.live.h.getD k .empty) ∧
      t = { s with core := { s.core with
        pc := s.core.pc + 4
        hcache := t.core.hcache
        live := { s.core.live with h := t.core.live.h } } }) ∧
    (o.a.toNat ≤ 1 → Gives (.hquery o) s (fun t =>
      ScalarResult s t o.d.toNat (if o.b = 0 then own (if o.a = 0 then j.lmBytes else j.cpBytes) else 0) 0 1)) ∧
    (s.checkHandle o.a.toNat 0 0 true = .ok (v, u) → v.param = none → Gives (.hquery o) s (fun t =>
      ScalarResult u t o.d.toNat (if o.b = 0 then BitVec.ofNat 64 ((if v.guard = unguarded then 0 else 2 ^ 58) +
        (if v.local_ then 2 ^ 57 else 0) + v.kind % 4 * 2 ^ 55 + v.rights.toNat % 128 * 2 ^ 48 +
        v.length % 2 ^ 48) else 0) 0 1)) ∧
    (∀ q, s.checkHandle o.a.toNat 0 0 true = .ok (v, u) → v.param = some q → Gives (.hquery o) s (fun t =>
      ScalarResult u t o.d.toNat (BitVec.ofNat 64 (if o.b = 0 then q.tag * 2 ^ 60 + 2 ^ 59 +
          (if v.guard = unguarded then 0 else 2 ^ 58) + (if v.local_ then 2 ^ 57 else 0) + v.kind % 4 * 2 ^ 55 +
          v.rights.toNat % 128 * 2 ^ 48 + v.length % 2 ^ 48
        else q.d.getD 0 1 + q.d.getD 1 1 * 2 ^ 16 + q.d.getD 2 1 * 2 ^ 32 + q.d.getD 3 1 * 2 ^ 48)) 0 1))

/-- 15 R370 to R372: the waits complete once no listed token is pending and all hold OK; with an error the lowest
such token traps, marked as a token's; while one is pending the strand waits at the instruction. KTEST and KSTAT
report a token, and KSTAT.clr clears the status it reports. -/
def Obligations.TokenResults : Prop :=
  ∀ (o : OpA) (s : State),
    let ks3 := [o.d.toNat, o.a.toNat, o.b.toNat]
    let k := s.getK o.a.toNat
    let word (n : Nat) (t : Tok) : Word := BitVec.ofNat 64
      ((if t.pend then 0 else t.detail.toNat * 2 ^ 24 + t.status.toNat * 2 ^ 16) + (if t.pend then 256 else 0) + n)
    (∀ p ∈ [(Instr.kwait o, ks3), (.kwaitAll o, List.range 32)],
      ((∀ n ∈ p.2, (s.getK n).pend = false ∧ (s.getK n).status = 0) →
        Gives p.1 s (fun t => PcOnly s t (s.core.pc + 4))) ∧
      (∀ vec n, s.trapReady vec → (∀ m ∈ p.2, (s.getK m).pend = false) → n ∈ p.2 → (s.getK n).status ≠ 0 →
        (∀ m ∈ p.2, m < n → (s.getK m).status = 0) →
        Gives p.1 s (fun t => TrapTaken s t (BitVec.ofNat 64 (512 + (s.getK n).status.toNat))
          (word n (s.getK n)) s.core.pc vec)) ∧
      ((∃ n ∈ p.2, (s.getK n).pend = true) →
        Gives p.1 s (fun t => t = { s with core := { s.core with stall := .busy } }))) ∧
    Gives (.ktest o) s (fun t => ScalarResult s t o.d.toNat (if k.pend then 0 else 1) 0 o.len) ∧
    Gives (.kstat o) s (fun t => ScalarResult s t o.d.toNat (word o.a.toNat k) 0 o.len) ∧
    Gives (.kstatClr o) s (fun t => ∃ u, ScalarResult u t o.d.toNat (word o.a.toNat k) 0 o.len ∧
      u.getK o.a.toNat = (if k.pend then k else { k with status := 0, detail := 0 }) ∧
      (∀ n, n ≠ s.core.physK o.a.toNat → u.core.live.k.getD n Tok.reset = s.core.live.k.getD n Tok.reset) ∧
      u = { s with core := { s.core with live := { s.core.live with k := u.core.live.k } } })

/-- 15 R373: COMMIT closes an open group that has members and returns the number of the last group closed; the waits
close it too, complete when no closed group at or before the ticket is outstanding, and otherwise wait; with 32
closed groups outstanding what would close another waits. -/
def Obligations.GroupResults : Prop :=
  ∀ (o : OpA) (s : State),
    let g := s.core.live
    let left := g.openGroup.filter (fun p => s.core.cq.any (fun c => c.prod == p))
    let early (n : Nat × List Nat) : Prop :=
      ((s.opB o).toNat % 2 ^ 32 + 2 ^ 32 - n.1 % 2 ^ 32) % 2 ^ 32 < 2 ^ 31
    let shut : Regs := if g.openGroup = [] then g else { g with
      openGroup := []
      closedGroups := if left = [] then g.closedGroups else g.closedGroups ++ [(g.nextGroup.toNat, left)]
      nextGroup := g.nextGroup + 1 }
    let u := { s with core := { s.core with live := shut } }
    let waits (x t : State) : Prop := t = { x with core := { x.core with stall := .busy } }
    (g.openGroup = [] ∨ g.closedGroups.length < 32 →
      Gives (.commit o) s (fun t => ScalarResult u t o.d.toNat (BitVec.zeroExtend 64 (shut.nextGroup - 1)) 0 1) ∧
      ((∀ n ∈ shut.closedGroups, ¬early n) →
        Gives (.waitg o) s (fun t => PcOnly u t (s.core.pc + BitVec.ofNat 48 (4 * o.len)))) ∧
      ((∃ n ∈ shut.closedGroups, early n) → Gives (.waitg o) s (waits u)) ∧
      (shut.closedGroups = [] → Gives (.waitgAll o) s (fun t => PcOnly u t (s.core.pc + 4))) ∧
      (shut.closedGroups ≠ [] → Gives (.waitgAll o) s (waits u))) ∧
    (g.openGroup ≠ [] → 32 ≤ g.closedGroups.length →
      ∀ i ∈ [Instr.commit o, .waitg o, .waitgAll o], Gives i s (waits s))

/-- 15 R374 to R378: BINIT arms a barrier and returns its ticket; BARRIVE adds arrivals on every core its mask
names; BTEST and BWAIT compare the phase count with a ticket. Every other byte of memory stays. -/
def Obligations.BarrierResults : Prop :=
  ∀ (o : OpA) (s : State) (j : Job), s.core.job = some j →
    let off := (s.opA o).toNat
    let n := (s.opB o).toNat
    let at_ := lmPlace s.coreId (j.lmBase + off)
    let bs := memRead s.mem.cells at_ 16
    let b := Barrier.read bs
    let d := (b.ph + 256 - n % 256) % 256
    s.memOk → off % 16 = 0 → off + 16 ≤ j.lmBytes →
    (∀ ps, s.settled → n ≤ 0xFFFFFFFF → s.barrierPlaces off (s.maskCores (o.d.toNat % 16)) = some ps →
      (∀ p ∈ ps, s.goodAt p 16 ∧ barrierClean (memRead s.mem.cells p 16) = true) →
      ps.Pairwise (fun p q => p + 16 ≤ q ∨ q + 16 ≤ p) →
      Gives (.barrive o) s (fun t =>
        (∀ p ∈ ps, n ≠ 0 → memRead t.mem.cells p 16 =
          Barrier.bytes ((Barrier.read (memRead s.mem.cells p 16)).arrive n)) ∧
        (∀ c, (n = 0 ∨ ∀ p ∈ ps, c < p ∨ p + 16 ≤ c) → memGet t.mem.cells c = memGet s.mem.cells c) ∧
        t.core.live = s.core.live ∧ t.core.pc = s.core.pc + BitVec.ofNat 48 (4 * o.len) ∧ NextRegion s t)) ∧
    (s.goodAt at_ 16 → barrierClean bs = true →
      (s.core.sbuf = [] → 1 ≤ n → n ≤ 0xFFFFFFFF → b.arm = false → b.arr ≤ n →
        Gives (.binit o) s (fun t =>
          RegSet s t o.d.toNat (BitVec.ofNat 64 (b.arr * 2 ^ 32 + (if b.early then 256 else 0) + b.ph)) ∧
          BytesPut s t at_ (Barrier.bytes (if b.arr = n
            then ⟨n, 0, (b.ph + 1) % 256, false, false⟩ else ⟨n, b.arr, b.ph, true, false⟩)) ∧
          t.core.pc = s.core.pc + BitVec.ofNat 48 (4 * o.len) ∧ NextRegion s t)) ∧
      Gives (.btest o) s (fun t => ScalarResult s t o.d.toNat (if 1 ≤ d ∧ d ≤ 127 then 1 else 0) 0 o.len) ∧
      (1 ≤ d → d ≤ 127 → Gives (.bwait o) s (fun t => PcOnly s t (s.core.pc + BitVec.ofNat 48 (4 * o.len)))) ∧
      (¬(1 ≤ d ∧ d ≤ 127) → Gives (.bwait o) s (fun t => t = { s with core := { s.core with stall := .busy } })))

/-! ## Strands (06 R115 to R125; 08 R170 to R179) -/

/-- 06 R115, R116, 08 R171 to R173: SUSPEND puts the strand's record, resuming after it, into the pool and leaves the
core idle; WATCH does so, watching, while the word is as expected and its bank has a free place, and otherwise
goes on in the next region. The record carries RSEQ + 1 (log 61); watchers that a write has hit leave their place
(log 39). -/
def Obligations.SuspendResults : Prop :=
  ∀ (sc : BitVec 2) (o : OpA) (s u x : State) (j : Job) (v : View) (a : Nat),
    s.settled → s.core.queued = [] → s.core.stopPending = false → s.core.job = some j →
    let off := (s.opB o).toNat
    let rec_ (r : Rec) (n : Nat) (y : Bool) (st : RecState) : Prop :=
      r.strand = j.strand ∧ r.launch = j.launch ∧ r.state = st ∧ r.y = y ∧ r.scope = sc.toNat ∧
        r.pc = s.core.pc + BitVec.ofNat 48 (4 * n) ∧ r.workid = j.workid ∧ r.s1 = s.getS 1 ∧ r.s2 = s.getS 2 ∧
        r.s3 = s.getS 3 ∧ r.s4 = s.getS 4 ∧ r.lc0 = s.core.live.lc.getD 0 0 ∧ r.qs = s.core.live.q ∧
        r.flags = s.core.live.flags.setWidth 5 ∧ r.rseq = s.core.rseq + 1 ∧ r.core = some s.coreId
    (∀ p ∈ [(Instr.suspend sc o, false), (.suspendYield sc o, true)],
      Gives p.1 s (fun t => (∃ r, t.work.pool = s.work.pool ++ [r] ∧ rec_ r 1 p.2 .ready) ∧
        t.core.job = none ∧ t.core.live = Regs.reset)) ∧
    (s.finds o.d.toNat off 8 .rd v a u x → v.kind = 2 → off % 8 = 0 → s.goodAt a 8 →
      let same : Prop := leNat (memRead s.mem.cells a 8) = (s.opA o).toNat ∧
        (s.mem.watchers.filter (fun w => (w.word - bmBase) / 2 ^ 23 == (a - bmBase) / 2 ^ 23 && !w.hit)).length < 64
      (same → Gives (.watch sc o) s (fun t =>
        (∃ r, t.work.pool = s.work.pool ++ [r] ∧ rec_ r o.len false .watching) ∧ t.core.job = none ∧
          t.mem.watchers = s.mem.watchers ++ [⟨a, j.strand, v.entry.getD 0, false⟩])) ∧
      (¬same → Gives (.watch sc o) s (fun t => t.core.live = s.core.live ∧ t.mem = s.mem ∧
        t.core.pc = s.core.pc + BitVec.ofNat 48 (4 * o.len) ∧ NextRegion s t)))

/-- 06 R121, R123, 08 R164, R174 to R177: SPAWN, whose entry is one of the launch's code (R129), by the room in the pool,
or trapping at a bad entry (log 13), LAUNCH by
the room in the queue, SPLITCHK outside a ranged launch and for a thief whose grant came back, and SSTEP outside a
stepped launch and once its barrier opened. -/
def Obligations.StrandCalls : Prop :=
  ∀ (o : OpA) (s u : State) (j : Job) (v : View), s.settled → s.core.job = some j →
    let next (t : State) : Prop := t.core.pc = s.core.pc + BitVec.ofNat 48 (4 * o.len) ∧ NextRegion s t
    let queue (t : State) : List Queued := (lookup t.work.queues j.fn).getD []
    RefusesTarget s (.spawn o) (s.opB o).toNat ∧
    (TargetIn j.code.length (s.opB o).toNat →
      (s.spawnRoom = true → Gives (.spawn o) s (fun t => next t ∧ RegSet s t o.d.toNat 1 ∧
        ∃ r, t.work.pool = s.work.pool ++ [r] ∧ r.pc = BitVec.ofNat 48 (s.opB o).toNat ∧ r.launch = j.launch ∧
          r.s1 = s.getS o.a.toNat ∧ r.s2 = s.getS (o.a.toNat + 1) ∧ r.s3 = s.getS (o.a.toNat + 2) ∧
          r.s4 = s.getS (o.a.toNat + 3) ∧ r.state = .ready ∧ r.coreGroup = none ∧ r.workid = j.workid)) ∧
      (s.spawnRoom = false → Gives (.spawn o) s (fun t => next t ∧ RegSet s t o.d.toNat 0 ∧
        t.work = s.work))) ∧
    (s.core.queued = [] → s.readHandle o.a.toNat (s.opB o).toNat 256 .rd 0 = .ok (v, u) →
      ((queue s).length < 64 → Gives (.launch o) s (fun t => next t ∧ RegSet s t o.d.toNat 0 ∧
        ∃ q, queue t = queue s ++ [q] ∧ q.ctx = j.ctx ∧ q.device = true ∧ q.hentry = v.entry.getD 0 ∧
          q.hoff = (s.opB o).toNat)) ∧
      (64 ≤ (queue s).length → Gives (.launch o) s (fun t => next t ∧ RegSet s t o.d.toNat 0x47 ∧
        queue t = queue s))) ∧
    (j.mode ≠ 2 ∨ s.core.thief = false ∧ s.core.live.rnglo < s.core.live.rnghi ∧ s.core.heldSteals = [] →
      Gives (.splitchk o) s (fun t => t.core.live = s.core.live ∧ t.core.pc = s.core.pc + 4 ∧ NextRegion s t)) ∧
    (∀ lo hi, j.mode = 2 → s.core.thief = true → s.core.stealReturned = true → s.core.grant = some (lo, hi) →
      Gives (.splitchk o) s (fun t => t.core.live = { s.core.live with rnglo := lo, rnghi := hi } ∧
        t.core.thief = false ∧ t.core.pc = s.core.pc + 4 ∧ NextRegion s t)) ∧
    (s.core.queued = [] → s.core.stopPending = false →
      (j.mode ≠ 1 ∨ s.core.atBarrier = true ∧ ∀ l, s.launch? j.launch = some l → j.strand ∉ l.arrived) →
      Gives (.sstep o) s (fun t => t.core.live = s.core.live ∧ t.core.pc = s.core.pc + 4 ∧ NextRegion s t))

/-! ## Issue to the engines (08 R154; 09 R183 to R226; 10 R235 to R251; 11 R267 to R283; 13 R324 to R346) -/

/-- An engine's queue has room and the token a command produces is not pending (R154, R366). -/
def Room (s : State) (e : Eng) (kd : Nat) : Prop := (s.core.queue e).length < 32 ∧ (s.getK kd).pend = false

/-- `n` vector registers from `base` will carry one tag, which a source accepts (R50). -/
def TagsGood (s : State) (c : Nat × Nat × (Nat → Bool)) : Prop :=
  ∀ k, k < c.2.1 → c.2.2 (s.vtag (c.1 + k)) = true ∧ s.vtag (c.1 + k) = s.vtag c.1

/-- A range of local memory passes its check, its record being cached (R236). -/
def Fits (s : State) (h off len : Nat) (r : Right) (opw : Nat) : Prop := ∃ v, s.lmView h off len r opw = .ok (v, s)

/-- A handle of local memory passes every check but that of the bounds, which are known only as the instruction runs
(R187, R197). -/
def Opens (s : State) (h : Nat) (r : Right) : Prop := ∃ v, s.lmOpen h r = .ok (v, s)

/-- The register instructions of the vector unit with the sources each checks: first register, registers, and
the tags accepted (R191 to R220). -/
def vectorChecks (o : OpV) (s : State) : List (Instr × List (Nat × Nat × (Nat → Bool))) :=
  let g := 2 ^ o.w.toNat
  let dt := o.dtag.toNat
  let any (t : Nat) : Bool := t != 0
  let same (t : Nat) : Bool := t == s.vtag o.a.toNat
  let byte (t : Nat) : Bool := t == 0xF
  let here (t : Nat) : Bool := t == dt
  let src (r : BitVec 6) (sel : BitVec 4) (ok : Nat → Nat → Nat → Bool) :=
    (r.toNat, o.srcSize sel, ok sel.toNat dt)
  let a := src o.a o.sa srcOk
  let b := src o.b o.sb srcOk
  let fn (ang : Bool) := [src o.a o.sa (fnOk ang)]
  let red := [(o.a.toNat, g, fun t => tagFamily t == tagFamily dt)]
  let eq := [(o.a.toNat, g, any), (o.b.toNat, g, same)]
  let sh := [(o.a.toNat, g, here), (o.b.toNat, g, here)]
  let slide := [(o.a.toNat, g, any), (o.c.toNat, g, same)]
  [(.vmov o, [(o.a.toNat, g, any)]), (.vbcast o, []), (.vextr o, [(o.a.toNat, g, any)]),
    (.vins o, [(o.d.toNat, 1, any)]), (.vadd o, [a, b]), (.vsub o, [a, b]), (.vmul o, [a, b]),
    (.vmin o, [a, b]), (.vmax o, [a, b]), (.vabs o, [a]), (.vneg o, [a])] ++
  [(.vand o, eq), (.vor o, eq), (.vxor o, eq), (.vsel o, eq), (.vzip o, eq), (.vnot o, [(o.a.toNat, g, any)]),
    (.vshl o, sh), (.vshr o, sh), (.vshrA o, sh), (.vcmpEq o, [a, b]), (.vcmpNe o, [a, b]), (.vcmpLt o, [a, b]),
    (.vcmpLe o, [a, b]), (.vcmpGt o, [a, b]), (.vcmpGe o, [a, b]), (.vcvt o, [src o.a o.sa cvtOk])] ++
  [(.vreds o, red), (.vredmMax o, red), (.vredmMin o, red), (.vscan o, [a]),
    (.vperm o, [(o.a.toNat, 1, any), (o.b.toNat, 1, byte)]), (.viota o, []), (.vexp2 o, fn false),
    (.vlog2 o, fn false), (.vrcp o, fn false), (.vrsq o, fn false), (.vsin o, fn true), (.vcos o, fn true),
    (.vtanh o, fn false), (.vsig o, fn false), (.mand o, []), (.mor o, []), (.mnot o, []), (.mpop o, [])] ++
  [(.vfma o, [a, b, (o.c.toNat, g, here)]), (.vfms o, [a, b, (o.c.toNat, g, here)]),
    (.vcvtBs o, [src o.a o.sa cvtBsOk, (o.c.toNat, 1, byte)]), (.vscale o, [(o.a.toNat, o.srcSize o.sa, isTag 1)]),
    (.vslideUp o, slide), (.vslideDn o, slide), (.vunzip o, [(o.a.toNat, 2 * g, any)])]

/-- The vector instructions that name no token: their field c names a register (R185). -/
def tokenless (i : Instr) : Bool :=
  match i with
  | .vfma _ | .vfms _ | .vcvtBs _ | .vscale _ | .vslideUp _ | .vslideDn _ | .vunzip _ => true
  | _ => false

/-- 09 R183 to R185, R191 to R220, 03 R50: a register instruction whose sources carry the tags it accepts enters the
vector queue with its token pending; no register is written yet. -/
def Obligations.VectorIssue : Prop :=
  ∀ (o : OpV) (s : State), ∀ p ∈ vectorChecks o s,
    let kd := if tokenless p.1 then 0 else o.c.toNat % 32
    (∀ c ∈ p.2, TagsGood s c) → Room s .vector kd →
      Gives p.1 s (fun t => Enqueued s t .vector p.1 kd 2)

/-- 09 R187, R196, R197, R221: the vector memory instructions enter the queue when the mask they need is not being
written and the range of their active elements lies within the share. -/
def Obligations.VectorMemoryIssue : Prop :=
  ∀ (o : OpV) (s : State),
    let kd := o.c.toNat % 32
    let g := 2 ^ o.w.toNat
    let off := (s.getS o.b.toNat <<< o.sb.toNat).toNat
    let st := (s.getS (o.b.toNat + 1)).toNat
    let act (e : Nat) : Bool :=
      if o.mask = 0 then true else (s.core.live.m.getD o.mask.toNat 0).getLsbD (e % 1024) != (o.minv == 1)
    let span (tag : Nat) (sd : Bool) : Nat × Nat :=
      activeSpan act (elemSpan tag off st sd) (g * elemsPerReg tag)
    let free : Prop := o.mask = 0 ∨ ∀ c ∈ s.core.vq, writesMask o.mask.toNat c = false
    let ld := if o.dtag = 0 then 0xF else o.dtag.toNat
    let stg := s.vtag o.d.toNat
    let h := o.a.toNat
    let ix := (o.b.toNat, indexSize o, isTag 0xC)
    Room s .vector kd →
    (∀ p ∈ [(Instr.vld o, false), (.vlds o, true)], free → Fits s h (span ld p.2).1 (span ld p.2).2 .rd 0 →
      Gives p.1 s (fun t => Enqueued s t .vector p.1 kd 2)) ∧
    (∀ p ∈ [(Instr.vst o, false), (.vsts o, true)], TagsGood s (o.d.toNat, g, fun t => t != 0) → free →
      (p.2 = true → 8 ≤ memBits stg) → Fits s h (span stg p.2).1 (span stg p.2).2 .w 0 →
      Gives p.1 s (fun t => Enqueued s t .vector p.1 kd 2)) ∧
    (TagsGood s ix → Opens s h .rd →
      Gives (.vgath o) s (fun t => Enqueued s t .vector (.vgath o) kd 2)) ∧
    (TagsGood s ix → TagsGood s (o.d.toNat, g, isTag o.dtag.toNat) → Opens s h .w →
      Gives (.vscat o) s (fun t => Enqueued s t .vector (.vscat o) kd 2)) ∧
    (Opens s h .rd → Opens s o.d.toNat .w →
      Gives (.vchain o) s (fun t => Enqueued s t .vector (.vchain o) kd 2))

/-- 10 R236, R240 to R246: every matrix command enters the matrix queue when its ranges lie within the share and the
plane and the configuration that will stand then suit it, every queued command, the table runs too, having run (log
23). -/
def Obligations.MatrixIssue : Prop :=
  ∀ (o : OpE) (s : State),
    let kd := o.kd.toNat
    let f (hi lo : Nat) : Nat := bits o.w1.toNat hi lo
    let a := s.core.foreseen
    let h := f 31 28
    let x := (s.opX o).toNat
    let z := (s.getS (f 15 10)).toNat
    let stride (dflt : Nat) : Nat := if f 21 16 = 0 then dflt else (s.getS (f 21 16)).toNat
    let n := bits o.w2.toNat 23 18 + 1
    let cplx := bit o.w1.toNat 9
    let rows64 := spanOf 64 (stride (memBytes (f 15 12) 64)) (memBytes (f 15 12) 64)
    let lit := litLen o.x
    let b := s.foreseenArrays
    let lda (m : Nat) : Prop := Fits s h x (spanOf m (stride (rowBytesA b.atag)) (rowBytesA b.atag)) .rd 1
    Room s .matrix kd →
    (∀ p ∈ [(Instr.mswap o, True, 2), (.mzero o, True, 2), (.mretFree o, True, 2),
        (.mcfg o, (1 ≤ f 31 28 ∧ f 31 28 ≤ 0xB) ∧ (1 ≤ f 27 24 ∧ f 27 24 ≤ 0xB) ∧
          compatible (f 31 28) (f 27 24) = true ∧ (bit o.w1.toNat 20 = true → scalable (f 31 28) = true) ∧
          (bit o.w1.toNat 19 = true → scalable (f 27 24) = true), 2),
        (.mlda o, Fits s h x rows64 .rd 1, 2 + lit),
        (.mret o, Fits s h x (max rows64 (if bit o.w1.toNat 4
          then 64 * stride (memBytes (f 15 12) 64) + 8 else 0)) .w 1, 2 + lit),
        (.mldw o,
          Fits s h x (spanOf (if cplx then 32 else depthKP a.wtag) (stride (rowBytesW a.wtag)) (rowBytesW a.wtag))
            .rd 1 ∧ (a.wbs = true → Fits s h z (2 * depthKP a.wtag) .rd 1) ∧ (cplx = true → a.wtag ≤ 3), 2 + lit),
        (.mmul o, lda n ∧ (b.abs_ = true → Fits s h z (n * (depthKP b.atag / 32)) .rd 1) ∧
          planeOk b.w0 b.atag = true, 3 + lit),
        (.mmulc o, lda n ∧ planeOkC b.w0 b.atag b.abs_ = true, 3 + lit)],
      p.2.1 → Gives p.1 s (fun t => Enqueued s t .matrix p.1 kd p.2.2))

/-- 11 R268 to R283: every plait command enters the plait queue when every range it reads or writes lies within the
share. -/
def Obligations.PlaitIssue : Prop :=
  ∀ (o : OpE) (s : State),
    let kd := o.kd.toNat
    let f (hi lo : Nat) : Nat := bits o.w2.toNat hi lo
    let x := (s.opX o).toNat
    let reg (hi lo : Nat) : Nat := (s.getS (bits o.w1.toNat hi lo)).toNat
    let y := reg 21 16
    let z := reg 15 10
    let u := reg 9 4
    let wi := memBytes (f 31 28) 1
    let wo := memBytes (f 27 24) 1
    let w2 := memBytes (f 11 6) 1
    let rows := bits o.w2.toNat 16 12 + 1
    let st (rb : Nat) : Nat := if bits o.w1.toNat 21 16 = 0 then rb else y
    let sp (m rb : Nat) : Nat × Nat := (x, spanOf m (st rb) rb)
    let ok (r : Right) (a : Nat × Nat) : Prop :=
      a.2 = 0 ∨ Fits s (bits o.w1.toNat 31 28) a.1 a.2 r 1
    let out := sp rows (f 5 0 * wo)
    Room s .plait kd →
    (∀ i ∈ [Instr.plclr o, .plswap o], Gives i s (fun t => Enqueued s t .plait i kd 2)) ∧
    (∀ p ∈ [(Instr.plload o, [sp rows (f 5 0 * wi)], ([] : List (Nat × Nat))),
        (.plqr o, [sp u ((rows + f 5 0) * wi)], if plX1 o.w2 then [(z, 128 * u)] else []),
        (.plsolve o, [], [out]), (.pldrain o, [], [out]), (.pldrainLm o, [(z, 4 * u)], [(x, wo * u)]),
        (.plapply o, [sp u (f 5 0 * wi), (z, 128 * u)], []),
        (.plapplySw o, [(x, 2 * wi * u), (z, 4 * u)], [(y, 2 * wo * u)]),
        (.plrot o, [(x, 2 * wi * u), (z, w2 * u)], [(y, 2 * wo * u)]),
        (.plvec o, [(x, 2 * wi * u)], [(y, wo * u), (z, 4 * u)])],
      (∀ a ∈ p.2.1, ok .rd a) → (∀ a ∈ p.2.2, ok .w a) →
        Gives p.1 s (fun t => Enqueued s t .plait p.1 kd (3 + litLen o.x)))

/-- A footprint passes its check as a copy command makes it, its record being cached (R326); `loc`: whether the
handle must be of this package. An empty footprint needs no byte of the range. -/
def Covers (s : State) (h off n : Nat) (r : Right) (opw : Nat) (loc : Bool) (v : View) : Prop :=
  s.readHandle h (if n = 0 then 0 else off) n r opw = .ok (v, s) ∧ v.local_ = loc

/-- A view whose bytes are known only as its command runs passes every check but that of the bounds (R336, R344). -/
def Reaches (s : State) (h off : Nat) (r : Right) (opw : Nat) (v : View) : Prop :=
  s.openHandle h off r opw = .ok (v, s) ∧ v.local_ = true

/-- What an update at the bank asks of its view: bank memory, an arithmetic format, whole elements (R339). -/
def Updatable (v : View) (off : Nat) : Prop := v.kind = 2 ∧ bankTag v.recordOf.tag = true ∧ off % v.width = 0

/-- 13 R325, R326, R330, R334 to R339: every copy command of rows or of a bank enters the copy queue and joins the
open group when its footprints pass their checks; one with an arrival, and every one that updates a bank, lies
between two regions. -/
def CopyRows : Prop :=
  ∀ (o : OpE) (s : State) (v w : View),
    let kd := o.kd.toNat
    let reg (q : W32) (hi lo : Nat) : Nat := (s.getS (bits q.toNat hi lo)).toNat
    let h1 := bits o.w1.toNat 31 28
    let h2 := bits o.w2.toNat 31 28
    let n := if bits o.w1.toNat 15 10 = 0 then 1 else reg o.w1 15 10
    let l := reg o.w3 31 26
    let st (q : W32) (l : Nat) : Nat := if bits q.toNat 21 16 = 0 then l else reg q 21 16
    let x1 := (s.opX o).toNat
    let x2 := reg o.w2 27 22
    let z := reg o.w2 15 10
    let c := reg o.w3 25 20
    let bar := bit o.w3.toNat 15
    let l2 := reg o.w2 31 26
    let a := Covers s h1 x1 (spanOf n (st o.w1 l) l) .rd 1 true v
    let b := Covers s h2 x2 (spanOf n (st o.w2 l) l) .w 2 true w
    let joined (i : Instr) (k : Nat) (t : State) : Prop :=
      Enqueued s t .copy i kd k ∧ t.core.live.openGroup = s.core.live.openGroup ++ [s.core.prod]
    let ix := ∃ y, Covers s 0 z (4 * n) .rd 2 true y
    Room s .copy kd →
    (∀ p ∈ [(Instr.cpy o, a ∧ b, 4),
        (.cpym o, a ∧ Covers s 0 x2 (spanOf n (st o.w2 l) l) .w 2 true w ∧ bar = false, 4),
        (.cpg o, (if n * l = 0 then Covers s h1 0 0 .rd 1 true v else Reaches s h1 x1 .rd 1 v) ∧ b ∧ ix, 4),
        (.cps o, a ∧ (if n * l = 0 then Covers s h2 0 0 .w 2 true w else Reaches s h2 x2 .w 2 w) ∧ ix, 4),
        (.cpfill o, Covers s h1 x1 (spanOf n (st o.w1 l2) l2) .w 1 true w, 3),
        (.cpremPut o, a ∧ Covers s h2 x2 (spanOf n (st o.w2 l) l) .mcw 2 false w ∧ bar = false, 4),
        (.cpremGet o, Covers s h1 x1 (spanOf n (st o.w1 l) l) .rd 1 false v ∧ b, 4)],
      p.2.1 → Gives p.1 s (fun t => joined p.1 (p.2.2 + litLen o.x) t ∧ t.core.rseq = s.core.rseq)) ∧
    (s.core.sbuf = [] →
      (a → Covers s 0 x2 (spanOf n (st o.w2 l) l) .w 2 true w → bar = true → c % 16 = 0 → c + 16 ≤ s.lmBytes →
        Gives (.cpym o) s (fun t => joined (.cpym o) (4 + litLen o.x) t ∧ NextRegion s t)) ∧
      (a → Covers s h2 x2 (spanOf n (st o.w2 l) l) .mcwat 2 false w → bar = true → w.kind = 2 →
        c % 8 = 0 → c + 8 ≤ w.length →
        Gives (.cpremPut o) s (fun t => joined (.cpremPut o) (4 + litLen o.x) t ∧ NextRegion s t)) ∧
      (∀ d, s.checkHandle h2 x2 2 = .ok (d, s) → Covers s h1 x1 (l * d.width) .rd 1 true v →
        Covers s h2 x2 (l * d.width) .wat 2 true w → Updatable w x2 →
        ∀ i ∈ [Instr.cpredAdd o, .cpredMin o, .cpredMax o],
          Gives i s (fun t => joined i (4 + litLen o.x) t ∧ NextRegion s t)) ∧
      (∀ d, s.checkHandle h1 x1 1 = .ok (d, s) → Covers s h1 x1 (l2 * d.width) .wat 1 true w → Updatable w x1 →
        ∀ i ∈ [Instr.bmupdAdd o, .bmupdMul o, .bmupdMin o, .bmupdMax o, .bmupdFma o, .bmupdSet o],
          Gives i s (fun t => joined i (3 + litLen o.x) t ∧ NextRegion s t)))

/-- 13 R344, R345: CPDEC enters the copy queue when its source is compressed and its tile and destination fit; the
agent operations when target, operand and result blocks pass their checks, between two regions. -/
def CopyAgents : Prop :=
  ∀ (o : OpE) (s : State) (v w y : View) (q : Param),
    let kd := o.kd.toNat
    let reg (m : W32) (hi lo : Nat) : Nat := (s.getS (bits m.toNat hi lo)).toNat
    let h1 := bits o.w1.toNat 31 28
    let h2 := bits o.w2.toNat 31 28
    let x := (s.opX o).toNat
    let d := reg o.w2 27 22
    let z := reg o.w2 15 10
    let c := reg o.w3 25 20
    let rb := memBytes q.tag 64
    let st := if bits o.w2.toNat 21 16 = 0 then rb else reg o.w2 21 16
    Room s .copy kd →
    (Reaches s h1 x .rd 1 v → v.param = some q → q.cmp = true → x < q.tiles →
      s.readHandle h2 d (spanOf 64 st rb) .w 2 = .ok (w, s) → w.kind = 0 →
      (q.bs = true → s.readHandle h2 z 128 .w 2 = .ok (y, s)) →
      Gives (.cpdec o) s (fun t => Enqueued s t .copy (.cpdec o) kd (3 + litLen o.x))) ∧
    (s.core.sbuf = [] → w.kind = 0 → 2 ≤ v.kind →
      ∀ p ∈ [(Instr.cpagentCas128 o, 16, 16, 32, 24, True), (.cpagentCas256 o, 32, 32, 64, 40, True),
          (.cpagentEnq o, 16, 16, 8, 8, True), (.cpagentChase o, 0, 8, 8, 24, 1 ≤ c ∧ c ≤ 255)],
        (if p.2.1 = 0 then s.openHandle h1 x .at 1 else s.readHandle h1 x p.2.1 .at 1) = .ok (v, s) →
        s.readHandle h2 z p.2.2.2.1 .rd 2 = .ok (y, s) → s.readHandle h2 d p.2.2.2.2.1 .w 2 = .ok (w, s) →
        x % p.2.2.1 = 0 → p.2.2.2.2.2 →
        Gives p.1 s (fun t => Enqueued s t .copy p.1 kd (4 + litLen o.x) ∧ NextRegion s t))

/-- 13 R325, R326, R330, R334 to R345: every copy command enters the copy queue once its checks pass. -/
def Obligations.CopyIssue : Prop := CopyRows ∧ CopyAgents

/-! ## Step tables (10 R251 to R255; 11 R287; 13 R346) -/

/-- 10 R251: TBLSTART and TBLBASE enter the queue of the engine they name; TBLSTOP ends the oldest unfinished run, at
once where it stands between two micro-orders, at the end of the one it is in, or at its turn; it does nothing where
there is none or where that run is already stopped. -/
def Obligations.TableCalls : Prop :=
  ∀ (e : BitVec 2) (o : OpA) (s : State) (j : Job), s.core.job = some j →
    let g := [Eng.matrix, .plait, .vector, .copy].getD e.toNat .copy
    let oldest := (s.core.queue g).find? Cmd.isRun
    let stop := Instr.tblstop e o
    let on := s.core.pc + BitVec.ofNat 48 (4 * o.len)
    (Room s g (o.d.toNat % 32) →
      Gives (.tblstart e o) s (fun t => Enqueued s t g (.tblstart e o) (o.d.toNat % 32) o.len)) ∧
    ((s.core.queue g).length < 32 → (s.opA o).toNat % 4 = 0 → (s.opB o).toNat ≤ 65535 →
      (s.opA o).toNat + 4 * (s.opB o).toNat ≤ j.lmBytes →
      Gives (.tblbase e o) s (fun t => Enqueued s t g (.tblbase e o) 0 o.len)) ∧
    ((∀ x, oldest = some x → x.fail ≠ none) → Gives stop s (fun t => PcOnly s t on)) ∧
    (∀ x, oldest = some x → x.fail = none → Gives stop s (fun t => t.core.pc = on ∧
      (x.started = true ∧ x.cursor = 0 → ∀ y ∈ t.core.queue g, y.prod ≠ x.prod) ∧
      (x.started = false ∨ x.cursor ≠ 0 → ∀ y ∈ t.core.queue g, y.prod = x.prod → y.fail = some (0, 0))))

/-- The acting core's engine `e` is in the run of a table, of which `x` is the command. -/
def InRun (s : State) (e : Eng) (x : Cmd) : Prop :=
  (s.runnable e).find? Cmd.isRun = some x ∧ x.started = true ∧ x.fail = none ∧ s.cmd? e x.prod = some x

/-- `t` is `s` after a micro-order of engine `e` that succeeded: the step is counted, and its run registers are
`r` but for the count. -/
def Stepped (s t : State) (e : Eng) (r : TableRun) : Prop :=
  t.table e = { r with steps := (s.table e).steps + 1 }

/-- 10 R252 to R254, 11 R287, 13 R346: the micro-orders that change the run alone, of the three engines that have them,
and END, which a vector table has too (log 31). -/
def Obligations.RunMicroOrders : Prop :=
  ∀ (e : Eng) (m : BitVec 27) (s : State) (x : Cmd), InRun s e x →
    let f (hi lo : Nat) : Nat := bits m.toNat hi lo
    let r := s.table e
    let a := f 26 25
    let v := r.address.getD a 0
    let wide := if e = .copy then 2 ^ 42 else 2 ^ 21
    let off (n : Nat) : Nat := if 2 ^ 20 ≤ n then wide - (2 ^ 21 - n) else n
    let nl := r.loops.getD a 0 - 1
    let d := f 11 0
    (m = 0 → Gives (.tableEnd e m) s (fun t => ∀ y ∈ t.core.queue e, y.prod ≠ x.prod)) ∧
    (e ≠ .vector → f 24 21 = 0 → Gives (.tableSeta e m) s (fun t =>
      Stepped s t e { r with pos := r.pos + 1, address := upd 0 r.address a (f 20 0) })) ∧
    (e ≠ .vector → f 24 21 = 0 → Gives (.tableAdda e m) s (fun t =>
      Stepped s t e { r with pos := r.pos + 1, address := upd 0 r.address a ((v + off (f 20 0)) % wide) })) ∧
    (e ≠ .vector → f 24 16 = 0 → Gives (.tableSetl e m) s (fun t =>
      Stepped s t e { r with pos := r.pos + 1, loops := upd 0 r.loops a (f 15 0) })) ∧
    (e ≠ .vector → f 24 12 = 0 → d ≠ 0 → d ≤ r.pos → Gives (.tableBack e m) s (fun t =>
      Stepped s t e { r with
        pos := if nl ≠ 0 then r.pos - d else r.pos + 1
        loops := upd 0 r.loops a nl }))

/-- The run registers with address register `i` raised by `n` modulo `w`, where `b` says so. -/
def bumped (b : Bool) (i n w : Nat) (r : TableRun) : TableRun :=
  if b then { r with address := upd 0 r.address i ((r.address.getD i 0 + n) % w) } else r

/-- 10 R254: the micro-orders of the matrix array act on planes and tiles, and advance the run by one step. -/
def MatrixOrders : Prop :=
  ∀ (m : BitVec 27) (s : State) (x : Cmd), InRun s .matrix x →
    let f (hi lo : Nat) : Nat := bits m.toNat hi lo
    let a := f 26 25
    let ar := s.core.arrays
    let r := s.table .matrix
    let next := { r with pos := r.pos + 1 }
    let adr (i : Nat) : Nat := r.address.getD i 0
    let here (i n : Nat) : Prop := adr i + n ≤ s.lmBytes ∧ s.goodAt (s.lmAt (adr i)) n
    let get (i n : Nat) : List Byte := memRead s.mem.cells (s.lmAt (adr i)) n
    let rw := rowBytesW ar.wtag
    let ra := rowBytesA ar.atag
    let kp := depthKP ar.atag
    let sc := ar.wbs && f 24 17 % 32 == 0
    (m = 0 → Gives (.tableSwap m) s (fun t => Stepped s t .matrix next ∧
      t.core.arrays = { ar with w0 := ar.w1, w1 := ar.w0 })) ∧
    (f 26 25 = 0 → f 22 0 = 0 → Gives (.ztile m) s (fun t => Stepped s t .matrix next ∧
      t.core.arrays = { ar with a := upd Tile.reset ar.a (f 24 23) ⟨true, [], 0, 0, 0⟩ })) ∧
    (s.dbg.replaying = none → f 15 0 = 0 → f 24 17 < depthKP ar.wtag → here a rw → (sc = true → here 3 64) →
      Gives (.wrow m) s (fun t =>
        Stepped s t .matrix (bumped (bit m.toNat 16) a rw (2 ^ 21) (bumped sc 3 64 (2 ^ 21) next)) ∧
        t.core.arrays.w1.rows.getD (f 24 17) [] = unpack ar.wtag 64 (get a rw) ∧
        t.core.arrays.w1.valid = true ∧ t.core.arrays.w0 = ar.w0 ∧ t.core.arrays.a = ar.a ∧ t.mem = s.mem)) ∧
    (s.dbg.replaying = none → f 15 0 = 0 → planeOk ar.w0 ar.atag = true → here a ra →
      (ar.abs_ = true → here 3 (kp / 32)) →
      Gives (.arow m) s (fun t =>
        Stepped s t .matrix (bumped (bit m.toNat 16) a ra (2 ^ 21) (bumped ar.abs_ 3 (kp / 32) (2 ^ 21) next)) ∧
        t.core.arrays = (ar.mulRow (f 24 23) (f 22 17) (activations ar.atag
          (if ar.abs_ then some ((get 3 (kp / 32)).map BitVec.toNat) else none)
          (unpack ar.atag kp (get a ra))) (s.core.sub.getD 2 0)).1 ∧ t.mem = s.mem))

/-- 11 R287: PROW and PAPP do one row as PLQR and PLAPPLY do, and advance the run by one step. -/
def PlaitOrders : Prop :=
  ∀ (m : BitVec 27) (s u : State) (x : Cmd), InRun s .plait x →
    let f (hi lo : Nat) : Nat := bits m.toNat hi lo
    let a := f 26 25
    let r := s.table .plait
    let next := { r with pos := r.pos + 1 }
    let nc := f 22 18 + 1
    let nb := f 17 14
    let w := memBytes (f 24 23) 1
    let off := r.address.getD a 0
    let third := r.address.getD 3 0
    let log := bit m.toNat 13
    f 11 0 = 0 → f 24 23 ≠ 0 → nb ≤ 9 → u.table .plait = r →
    (off + (nc + nb) * w ≤ s.lmBytes → (log = true → third + 128 ≤ s.lmBytes) →
      s.qrRow x.prod (f 24 23) nc nb off (if log then some third else none) false = .ok u →
      Gives (.prow m) s (fun t => t.core.arrays = u.core.arrays ∧ t.mem = u.mem ∧
        Stepped s t .plait (bumped (bit m.toNat 12) a ((nc + nb) * w) (2 ^ 21) (bumped log 3 128 (2 ^ 21) next)))) ∧
    (f 22 18 = 0 → log = false → 1 ≤ nb → off + nb * w ≤ s.lmBytes → third + 128 ≤ s.lmBytes →
      s.applyRow x.prod (f 24 23) nb off third = .ok u →
      Gives (.papp m) s (fun t => t.core.arrays = u.core.arrays ∧ t.mem = u.mem ∧
        Stepped s t .plait (bumped (bit m.toNat 12) a (nb * w) (2 ^ 21) (bumped true 3 128 (2 ^ 21) next))))

/-- 10 R254, 11 R287: the micro-orders of the two arrays. -/
def Obligations.ArrayMicroOrders : Prop := MatrixOrders ∧ PlaitOrders

/-- 13 R346: SETH sets the upper half of an address register; MOVE copies one row, or what it has not yet moved of it,
through the handles the run took at its issue, and DECT decodes one tile; each advances the run by one step. -/
def Obligations.CopyMicroOrders : Prop :=
  ∀ (m : BitVec 27) (s u y : State) (x : Cmd) (v w : View) (q : Param) (bs sc : List Byte), InRun s .copy x →
    let f (hi lo : Nat) : Nat := bits m.toNat hi lo
    let a := f 26 25
    let b := f 24 23
    let r := s.table .copy
    let next := { r with pos := r.pos + 1 }
    let src := r.address.getD a 0
    let dst := r.address.getD b 0
    let n := 64 * (f 14 7 + 1)
    let tile := 64 * memBytes q.tag 64
    let up (i : Nat) : Nat → TableRun → TableRun := fun k => bumped (bit m.toNat 6) i k (2 ^ 42)
    (f 24 21 = 0 → Gives (.seth m) s (fun t =>
      Stepped s t .copy { next with address := upd 0 r.address a (src % 2 ^ 21 + f 20 0 * 2 ^ 21) })) ∧
    (f 5 0 = 0 → u.table .copy = r → v.local_ = true →
      (w.local_ = true → s.readSnap x (f 22 19) src n .rd = .ok (v, s) →
        s.readSnap x (f 18 15) dst n .w = .ok (w, s) →
        State.pieceLoop unitCpy { x with
            views := [v, w]
            scal := [src, n, 1, n, dst, n, 0, 0].map (BitVec.ofNat 64) } (n / 64 - x.cursor) x.cursor s = .ok u →
        Gives (.move m) s (fun t => Stepped s t .copy (up b n (up a n next)) ∧ t.mem = u.mem)) ∧
      (f 14 7 = 0 → s.tileSnap x (f 22 19) src = .ok (v, s) → v.param = some q → q.cmp = true →
        s.readSnap x (f 18 15) dst tile .w = .ok (w, s) → w.kind = 0 → src < q.tiles →
        s.decodeTile v { q with bs := false } src = .ok (bs, sc, y) → y.vwrite w x.prod dst bs = .ok u →
        Gives (.dect m) s (fun t => Stepped s t .copy (up b tile (up a 1 next)) ∧ t.mem = u.mem)))

/-! ## Encoding, fetch, reset and the step (07 R129 to R146; 02 R22) -/

/-- The micro-orders of the step tables: words of their own, which the decoder of instruction words does not
read (10 R254, 11 R287, 13 R346). -/
def microOrder (i : Instr) : Bool :=
  match i with
  | .tableEnd _ _ | .tableSeta _ _ | .tableAdda _ _ | .wrow _ | .arow _ | .tableSwap _ | .ztile _ | .tableSetl _ _
  | .tableBack _ _ | .prow _ | .papp _ | .seth _ | .move _ | .dect _ => true
  | _ => false

/-- 07 R137 to R146, 10 R239, 11 R274, 13 R333, 15 R381: every well-formed instruction word is what the decoder
reads from its encoding, with every operand, under any register counts of a launch. -/
def Obligations.RoundTrip : Prop :=
  ∀ (lim : Limits) (i : Instr), i.wfAt lim = true → encode i ≠ [] → microOrder i = false →
    decode lim (encode i) = .ok i (encode i).length

/-- Words written out from the encodings of 07 R137 to R146, 09, 13 R333 and 23 R467 decode to the instructions
they stand for. -/
def Obligations.DecodesSpecWords : Prop :=
  ∀ p ∈ ([([0x48000000], .nop ⟨0, 0, 0, 0⟩), ([0x48000008], .brk ⟨0, 0, 0, 0⟩),
      ([0xF800000A], .dbgstop ⟨0, 0, 0, 0⟩), ([0x64531F9B], .st ⟨5, 3, 7, 3, 2, 3, 3, 0⟩),
      ([0x68203E00, 5], .hload ⟨2, 0, 62, 5⟩), ([0xF850BE09, 0x43], .codepatch ⟨5, 2, 62, 0x43⟩),
      ([0xF800BE08, 0x41], .icinv ⟨0, 2, 62, 0x41⟩), ([0x50500000], .csrrd ⟨5, 0, 0⟩),
      ([0x50019010], .csrwr ⟨0, 6, 16⟩), ([0x4540FFFC], .loop 1 ⟨0, 0xFFFC⟩),
      ([0xE0018400, 0x2F802400, 0x01C00000, 0x20000000, 0x00001000],
        .cpy ⟨3, 1, 0, 0, 0x2F802400, 0x01C00000, 0x20000000, 0x1000⟩)] : List (List W32 × Instr)),
    decode Limits.max p.1 = .ok p.2 p.1.length

/-- The word `k` of the instruction at the program counter lies in a line of the instruction cache (R130, R131), under
the code handle in force. -/
def CachedWord (s : State) (j : Job) (c : Code) (k : Nat) (w : W32) : Prop :=
  let a := c.base + s.core.pc.toNat + 4 * k
  s.core.pc.toNat + 4 * k + 4 ≤ c.length ∧
    ∃ l, s.core.icache.find? (fun l => l.tenant == j.tenant && l.entry == c.entry && l.gen == c.gen &&
      l.line == a / 64 * 64) = some l ∧ BitVec.ofNat 32 (field l.data (a % 64) 4) = w

/-- 07 R129 to R131, R146, 20 R418: the next step of a strand that waits for nothing, with no input and nothing owed, is
the instruction that the words at its program counter decode to, read through the code handle in force, the
supervisor's while privileged. Around it the step counts clk: stall counters of the cores, profiling counters and
clk used of the functions, and nothing else (23 R469 to R472). An instruction that met what has to wait for the memory (a
granule in transit, a line that has still to be scrubbed, a walk unit without a slot, 4096 requests) has done nothing yet,
and waits (13 R324, 14 R363, 21 R442, R455). -/
def Obligations.StepRunsDecoded : Prop :=
  ∀ (s : State) (j : Job) (c : Code) (ws : List W32) (i : Instr), s.powered = true → s.inputs = [] →
    s.links.arrivals = [] → s.links.adds = [] → (∀ w ∈ s.mem.watchers, w.hit = false) →
    s.core.job = some j → s.code? = some c →
    s.core.stopped = false → s.core.preemptReady = false → s.core.arrayStops = false → s.core.halting = none →
    s.core.entering = false → s.core.stall = .none → (∀ x ∈ s.core.vq, x.scalarResult = false) → ws.length ≤ 6 →
    (∀ k, k < ws.length → CachedWord s j c k (ws.getD k 0)) →
    (∀ k, k < ws.length → decode j.lim (ws.take k) = .short) → decode j.lim ws = .ok i ws.length →
    ∃ u : State,
      u = { s with
        stepNo := s.stepNo + 1
        core := { s.core with stallCnt := u.core.stallCnt }
        parked := u.parked
        fns := u.fns } ∧
      u.parked.map (fun p => (p.1, p.2.unticked)) = s.parked.map (fun p => (p.1, p.2.unticked)) ∧
      (∀ f, u.fn f = { s.fn f with pmcnt := (u.fn f).pmcnt, used := (u.fn f).used }) ∧
      ∀ t, exec i u = .next t →
        (t.core.stall.held = true → step s = .next (u.stalls t.core.stall)) ∧
        (t.core.stall.held = false → ∃ r : State, step s = .next r ∧ r = { t with fns := r.fns } ∧
          ∀ f, r.fn f = { t.fn f with pmcnt := (r.fn f).pmcnt })

/-- 02 R22 to R25, 03 R49, 07 R132, R135, 10 R230, R240, 14 R357, 16 R392: the machine right after reset. -/
def Obligations.ResetState : Prop :=
  let s := State.reset
  (∀ a, memGet s.mem.cells a = 0) ∧ s.mem.poison = [] ∧ s.core.job = none ∧
    (∀ r, s.getS r = 0) ∧ (∀ r, s.getK r = Tok.reset) ∧ (∀ r, s.core.live.h.getD r .empty = .empty) ∧
    (∀ r, s.core.live.v.getD r VReg.reset = ⟨0, 0, false⟩) ∧ s.core.live.flags = 0 ∧ s.core.live.flagen = 0 ∧
    s.core.priv = false ∧ s.core.trapCause = 0 ∧ s.core.epc = 0 ∧ s.core.trapScr = 0 ∧
    (∀ i, (s.core.arrays.tile i).live = false) ∧ s.core.arrays.w0.valid = false ∧ s.core.arrays.w1.valid = false ∧
    s.core.arrays.wtag = 2 ∧ s.core.arrays.atag = 2 ∧ s.work.ctxs = [] ∧ s.work.pool = [] ∧
    (∀ f, (s.fn f).tdisp = .unlocked) ∧ (∀ p, (s.port p).state = .down) ∧ s.trust.debugOpen = false

/-- The model's form of memory, a list of address and byte (log 42): every step keeps it canonical. -/
def Obligations.MemoryStaysCanonical : Prop :=
  ∀ s t : State, s.memOk → step s = .next t → t.memOk

/-- The memory after reset has the canonical form (log 42). -/
def Obligations.ResetMemoryCanonical : Prop := State.reset.memOk

/-! ## Power, resets and training (02 R22 to R27, R37, R38; 12 R303; 25 R483) -/

/-- `t` is the machine after a package reset of `s` (R22, R24): every core, memory, table and function as at
reset, keys destroyed, the fused lifecycle state in force, fuses and flash kept. -/
def FreshPackage (s t : State) : Prop :=
  t.core = Core.reset ∧ t.parked = [] ∧ t.mem = Mem.reset ∧ t.xl = Xlat.reset ∧
    t.fns = List.replicate 33 Fn.reset ∧ t.work.ctxs = [] ∧ t.work.launches = [] ∧ t.work.pool = [] ∧
    t.trust.boot = 0 ∧ t.trust.keys = List.replicate 64 none ∧ t.trust.lcFuse = s.trust.lcFuse ∧
    t.trust.lcNow = s.trust.lcFuse ∧ t.trust.arbn = s.trust.arbn ∧ t.trust.dbgn = s.trust.dbgn ∧
    t.trust.banks = s.trust.banks

/-- A flash bank the ROM would take (R27): signed and not below the anti-rollback counter. -/
def BankGood (s : State) (b : Nat) (x : Flash) : Prop :=
  s.trust.banks[b]? = some x ∧ x.signed = true ∧ s.trust.arbn ≤ x.version

/-- 02 R22 to R27, R37, R38, 12 R303, 25 R483: resets, the steps after a reset, and the loss of a function's
contexts. A step out of its order changes nothing (log 1), HBM reads zero after a reset as all memory does (log 42), and
a function-level reset loses the function's contexts (log 48). -/
def Obligations.PackageEvents : Prop :=
  ∀ (f : Nat) (m : BitVec 16) (s : State),
    let live := (List.range 16).filter (fun i => m.getLsbD i)
    let ready : Prop := s.trust.boot = 2 ∨ s.trust.boot = 1 ∧ s.trust.recovery = true
    (∀ i ∈ [Instr.packageReset, .trustCoreWatchdog], Gives i s (fun t => FreshPackage s t ∧ t.powered = true)) ∧
    Gives .powerTrip s (fun t => FreshPackage s t ∧ t.powered = false) ∧
    (∀ b x, b < 2 → BankGood s b x → (∀ y, BankGood s (1 - b) y → y.version < x.version) →
      s.trust.boot = 0 → s.trust.parityError = false → Gives .firmwareVerified s (fun t => t.trust.running = b ∧
        t.trust.fwver = x.version ∧ t.trust.boot = 1 ∧ t.trust.recovery = s.trust.recovery ∧
        t.trust.slots.getD 1 zeroSlot = shake (zeroSlot ++ shake x.image) ∧
        t.trust.identity = Config.identityKey (fixLen 32 (Config.fuse 4)) (t.trust.slots.getD 1 zeroSlot) ∧
        t.core = s.core ∧ t.mem = s.mem)) ∧
    (s.trust.boot = 0 → (∀ b x, b < 2 → ¬BankGood s b x) ∨ s.trust.parityError = true →
      Gives .firmwareVerified s (fun t => t.trust.recovery = true ∧ t.trust.boot = 1 ∧ t.core = s.core)) ∧
    (s.trust.boot ≠ 0 → Gives .firmwareVerified s (fun t => t = s)) ∧
    (s.trust.boot = 1 → s.trust.recovery = false → Gives (.hbmTrainingDone m) s (fun t => t.xl.surv = live ∧
      t.xl.capacity = (if live.length < 8 then 0 else live.length * 2 ^ 36) ∧
      (∀ i, i < 16 → m.getLsbD i = true → t.xl.whome.getD i 0 = i) ∧ t.trust.boot = 2 ∧
      (s.xl.extents = [] → t.sweep.scrNum.toNat % 2 = 1) ∧ t.core = s.core)) ∧
    (s.trust.boot ≠ 1 ∨ s.trust.recovery = true → Gives (.hbmTrainingDone m) s (fun t => t = s)) ∧
    (ready → Gives .hostLinkConfigReady s (fun t => t = { s with trust := { s.trust with boot := 3 } })) ∧
    (¬ready → Gives .hostLinkConfigReady s (fun t => t = s)) ∧
    Gives (.functionLevelReset f) s (fun t => (∀ c ∈ t.work.ctxs, c.fn ≠ f) ∧
      (∀ c ∈ s.work.ctxs, (∀ d ∈ s.work.ctxs, d.fn = f → d.num ≠ c.num) → c ∈ t.work.ctxs)) ∧
    Gives (.ideFailure f) s (fun t => (t.fn f).tdisp = .error ∧ (∀ c ∈ t.work.ctxs, c.fn ≠ f))

/-! ## Mailbox commands (02 R31 to R33, R39 to R42, R487 to R489; 04 R76 to R78; 21 R450 to R452) -/

/-- Command `code` of function `f` will be served (R31, R32): the mailbox is open and idle, no other holds a command
and no revocation keeps it back, no notice is due, the length is in range, and the lifecycle state answers the
code. -/
def Served (s : State) (f code : Nat) : Prop :=
  s.mailOpen f = true ∧ (s.fn f).mbox.busy = false ∧ (∀ g, g ≠ f → s.mailPending g = false) ∧
    s.revokeWaits code = false ∧ (s.fn f).mbox.lostNotice = false ∧
    (s.fn f).mbox.len.toNat ≤ 4096 ∧ s.answers code = true

/-- The request in a mailbox's buffer. -/
def request (s : State) (f : Nat) : List Byte := fixLen (s.fn f).mbox.len.toNat (s.fn f).mbox.buf

/-- The command of function `f` is finished, with a status and a response (R31, R32). -/
def Answered (t : State) (f status : Nat) (bs : List Byte) : Prop :=
  let m := (t.fn f).mbox
  m.done = true ∧ m.busy = false ∧ m.status = BitVec.ofNat 8 status ∧ m.rlen = BitVec.ofNat 13 bs.length ∧
    m.buf.take bs.length = bs

/-- 02 R28, R33, R39 to R42, R487 to R489: the commands of the physical function, and STATUS. When a
command is served is log 33, what a request of FW_LOAD is log 92, which token passes the opaque check of log 4, and that
the wiped memory reads zero, HBM too, log 42. -/
def Obligations.MailboxCommands : Prop :=
  ∀ (f : Nat) (l : Lifecycle) (s : State),
    let q := request s 32
    let bank : Flash := ⟨[], 0, false⟩
    let wiped (t : State) : Prop := t.core = Core.reset ∧ t.mem = Mem.reset ∧ t.work.ctxs = []
    (Served s f 1 → Gives (.status f) s (fun t => ∃ bs, Answered t f 0 bs ∧ bs.length = 1536 ∧
      bs.getD 17 0 = BitVec.ofNat 8 s.trust.lcNow.code ∧ bs.getD 18 0 = BitVec.ofNat 8 s.trust.arbn ∧
      t.trust = { s.trust with last := f } ∧ t.core = s.core ∧ t.mem = s.mem)) ∧
    (Served s 32 3 → Gives (.reset 32) s (fun t => FreshPackage s t)) ∧
    (Served s 32 4 → Gives (.fwLoad 32) s (fun t => Answered t 32 0 [] ∧
      (t.trust.banks.getD (1 - s.trust.running) bank).image = q ∧
      ∀ k, k ≠ 1 - s.trust.running → t.trust.banks.getD k bank = s.trust.banks.getD k bank)) ∧
    (Served s 32 0x10 → Gives (.debugNonce 32) s (fun t => ∃ n, n.length = 32 ∧ t.trust.nonce = some n ∧
      Answered t 32 0 n ∧ t.trust.draws = s.trust.draws + 1)) ∧
    (Served s 32 0x11 → s.trust.lcNow = .provisioned ∨ s.trust.lcNow = .operational →
      s.sweep.retiringNow = false → Gives (.debugUnlock 32) s (fun t => t.trust.nonce = none ∧
        (∀ k, s.tokenCheck q = some k → Answered t 32 k [] ∧ t.trust.lcNow = s.trust.lcNow ∧ t.core = s.core) ∧
        (s.tokenCheck q = none → Answered t 32 0 [] ∧ t.trust.lcNow = .debug ∧ t.trust.debugOpen = true ∧
          t.trust.dbgn = s.trust.dbgn + 1 ∧ t.trust.lcFuse = s.trust.lcFuse ∧ wiped t))) ∧
    (Served s 32 0x20 → s.trust.lcNow.advance = some l → q = [BitVec.ofNat 8 l.code] → s.work.ctxs = [] →
      s.trust.identityFused = true → s.sweep.retiringNow = false → Gives (.lifecycleAdvance 32) s (fun t =>
        Answered t 32 0 [] ∧ t.trust.lcNow = l ∧ t.trust.lcFuse = l ∧ wiped t)) ∧
    (s.trust.pendingLc = some l → s.sweep.retiringNow = false → Gives .lifecycleTransition s (fun t =>
      Answered t 32 0 [] ∧ t.trust.lcNow = l ∧ t.trust.pendingLc = none ∧ wiped t))

/-- A tenant's command comes over its session, and its function is in RUN (R77). -/
def Tenant (s : State) (f : Nat) (sess : Option Nat) : Prop :=
  f ≠ 32 ∧ (s.fn f).tdisp = .run ∧ (s.fn f).session ≠ 0 ∧ sess = some (s.fn f).session

/-- 04 R76 to R78, 21 R450 to R453, 24 R479: the commands on contexts and handles. When a command is served
is log 33, the key slot and identifier taken log 53, which records CTX_END waits for log 59, a record never minted
log 92. -/
def Obligations.ContextCommands : Prop :=
  ∀ (f tid slot : Nat) (sess : Option Nat) (s : State) (c : Ctx),
    let q := request s f
    let e := field q 2 4
    let p := q.drop 6
    let r := HRec.read p
    let old := c.entry e
    (∀ g ctx n w counts, s.trust.revoke = some (g, ctx, n, w, counts) →
      (∀ k ∈ s.core :: s.parked.map (fun p => p.2), k.runs (fun j => j.ctx == ctx) = true →
        ∀ x ∈ k.cq, x.fail ≠ some (0xB, 0)) →
      Gives .revocationEnd s (fun t => Answered t g 0 (revokeBytes counts w) ∧ t.trust.revoke = none ∧
        t.sweep.revNum = s.sweep.revNum + 1)) ∧
    (Tenant s f sess →
      (Served s f 0x30 → (s.trust.lcNow = .operational ∨ s.trust.lcNow = .debug) → q.length = 4 →
        1 ≤ field q 0 4 → field q 0 4 ≤ 16384 → s.work.ctxs.length < 32 → s.xl.capacity ≠ 0 →
        s.xl.freeTid = some tid → s.trust.keys.findIdx? (fun k => k == none) = some slot →
        Gives (.ctxCreate f sess) s (fun t => ∃ x : Ctx, t.work.ctxs = s.work.ctxs ++ [x] ∧ x.fn = f ∧
          x.sess = (s.fn f).session ∧ x.tenant = tid ∧ x.keyslot = slot ∧ x.size = field q 0 4 ∧ x.table = [] ∧
          (t.xl.tid tid).state = .live ∧ (t.xl.tid tid).epoch = (s.xl.tid tid).epoch + 1 ∧
          x.key = x.domain ∧ t.trust.keys.getD slot none = some x.key ∧ Answered t f 0 (leBytes 2 x.num ++ leBytes 1 tid))) ∧
      (s.ctxOf f q = some c →
        (Served s f 0x31 → q.length = 2 → Gives (.ctxEnd f sess) s (fun t =>
          ((t.fn f).waiting = [] → Answered t f 0 []) ∧ ((t.fn f).waiting ≠ [] → (t.fn f).mbox.busy = true) ∧
          (∀ x ∈ t.work.ctxs, x.num ≠ c.num) ∧ (∀ l ∈ t.work.launches, l.ctx ≠ c.num) ∧
          ∀ x ∈ s.xl.extents, x.2.owner.toNat = c.tenant → ∀ a, a < 2 ^ 25 →
            memGet t.mem.cells (extentPlace x.1 + a) = 0)) ∧
        (Served s f 0x32 → q.length = 54 → e < c.size → s.mintFails c e p r = none → old.closed = false →
          old.gen ≠ 0xFFFF → Gives (.handleMint f sess) s (fun t => Answered t f 0 (leBytes 2 (old.gen + 1)) ∧
            ∀ x ∈ t.work.ctxs, x.num = c.num → x.entry e = ⟨some (({ r with
              tenant := c.tenant, keyslot := c.keyslot, gen := old.gen + 1 } : HRec).sealed s.trust.sealNo),
              old.gen + 1, false⟩)) ∧
        (Served s f 0x33 → s.trust.revoke = none → q.length = 6 → e < c.size → old.closed = false →
          old.gen < 0xFFFF → Gives (.handleRevoke f sess) s (fun t =>
            (∀ x ∈ t.work.ctxs, x.num = c.num → (x.entry e).gen = old.gen + 1) ∧
            (∀ k, k < 768 → (s.coreAt k).runs (fun j => j.ctx == c.num) = true →
              ∀ h ∈ (t.coreAt k).hcache, h.entry ≠ e) ∧
            t.trust.revoke.isSome = true ∧ t.sweep.revNum = s.sweep.revNum + 1 ∧ (t.fn f).mbox.busy = true)) ∧
        (Served s f 0x34 → q.length = 6 → e < c.size → Gives (.handleRead f sess) s (fun t =>
          Answered t f 0 ((match old.rec_ with
            | some r => r.bytes
            | none => List.replicate 48 0) ++ leBytes 2 old.gen) ∧ t.work = s.work))))

/-! ## SPDM and TDISP (02 R35 to R38) -/

/-- 02 R35 to R38, 16 R393: each message in its order gets its response and moves the flow, and the interface's
state, as the rules say; one out of its order is answered with an SPDM error and moves nothing (log 87). The bytes
of a response, and which requests are messages, are log 4. -/
def Obligations.SessionMessages : Prop :=
  ∀ (f p : Nat) (sess : Option Nat) (x : Port) (s : State),
    let n := s.fn f
    let tells (t : State) (kind : Nat) : Prop := Answered t f 0 (s.spdmBytes kind (request s f))
    (Served s f 2 →
      Gives (.getVersion f) s (fun t => tells t 0x84 ∧ (n.session = 0 → (t.fn f).spdm = .version) ∧
        (t.fn f).session = n.session) ∧
      (∀ i ∈ [(Instr.getCapabilities f, 0xE1, SpdmStage.version, SpdmStage.capabilities),
          (.negotiateAlgorithms f, 0xE3, .capabilities, .algorithms),
          (.keyExchange f, 0xE4, .algorithms, .exchanging)],
        n.spdm = i.2.2.1 → Gives i.1 s (fun t => tells t i.2.1 ∧ (t.fn f).spdm = i.2.2.2)) ∧
      (3 ≤ n.spdm.rank → ∀ i ∈ [(Instr.getDigests f, 0x81), (.getCertificate f, 0x82), (.challenge f, 0x83),
          (.getMeasurements f, 0xE0)],
        Gives i.1 s (fun t => tells t i.2 ∧ (t.fn f).spdm = n.spdm ∧ t.trust = { s.trust with last := f })) ∧
      (n.spdm = .exchanging → Gives (.finish f) s (fun t => tells t 0xE5 ∧ (t.fn f).spdm = .session ∧
        (t.fn f).session = s.trust.draws + 1)) ∧
      (n.spdm = .session → Gives (.endSession f) s (fun t => tells t 0xEC ∧ (t.fn f).session = 0)) ∧
      (n.spdm = .session → Gives (.ideKm f) s (fun t => (t.fn f).spdm = .session ∧
        (Config.securedIn n.session (request s f) = true → tells t 0x100 ∧ (t.fn f).ideKeyed = true) ∧
        (Config.securedIn n.session (request s f) = false → tells t spdmError ∧ (t.fn f).ideKeyed = n.ideKeyed))) ∧
      (∀ i ∈ [(Instr.getCapabilities f, n.spdm ≠ .version), (.negotiateAlgorithms f, n.spdm ≠ .capabilities),
          (.keyExchange f, n.spdm ≠ .algorithms), (.finish f, n.spdm ≠ .exchanging),
          (.endSession f, n.spdm ≠ .session), (.ideKm f, n.spdm ≠ .session),
          (.getDigests f, n.spdm.rank < 3), (.getCertificate f, n.spdm.rank < 3), (.challenge f, n.spdm.rank < 3),
          (.getMeasurements f, n.spdm.rank < 3), (.lockInterfaceRequest f, n.tdisp ≠ .unlocked),
          (.startInterfaceRequest f sess, n.tdisp ≠ .locked ∨ sess ≠ some n.session)],
        i.2 → Gives i.1 s (fun t => tells t spdmError ∧ (t.fn f).spdm = n.spdm ∧ (t.fn f).tdisp = n.tdisp ∧
          (t.fn f).session = n.session)) ∧
      (n.tdisp = .unlocked → f ≠ 32 → Gives (.lockInterfaceRequest f) s (fun t => tells t 0x103 ∧
        (t.fn f).tdisp = .locked)) ∧
      (n.tdisp = .locked → n.session ≠ 0 → sess = some n.session →
        Gives (.startInterfaceRequest f sess) s (fun t => tells t 0x105 ∧ (t.fn f).tdisp = .run)) ∧
      (n.tdisp = .unlocked → Gives (.stopInterfaceRequest f) s (fun t => tells t 0x106 ∧
        (t.fn f).tdisp = .unlocked)) ∧
      (n.tdisp = .locked ∨ n.tdisp = .run → Gives (.stopInterfaceRequest f) s (fun t =>
        (t.fn f).tdisp = .error ∧ (t.fn f).stopping = true ∧ (t.fn f).mbox.busy = true ∧
        ∀ c ∈ t.work.ctxs, c.fn ≠ f))) ∧
    (n.stopping = true → n.tdisp = .error → s.scrubbed f = true → Gives (.stopInterfaceComplete f) s (fun t =>
      Answered t f 0 (s.spdmBytes 0x106 []) ∧ (t.fn f).tdisp = .unlocked ∧ (t.fn f).stopping = false)) ∧
    (s.links.ports[p]? = some x → x.state = .open_ → Gives (.keyUpdate p) s (fun t =>
      t.links.ports[p]? = some { x with keyNo := x.keyNo + 1, groups := 0 } ∧
        ∀ k, k ≠ p → t.links.ports[k]? = s.links.ports[k]?))

/-! ## Launches (05 R97 to R106; 06 R112 to R114; 24 R475 to R478) -/

/-- A core runs a strand of function `f`. -/
def RunsFor (s : State) (f c : Nat) : Prop := (s.coreAt c).runs (fun j => j.fn == f) = true

/-- 05 R99 to R104, 24 R475 to R478: a slot submitted enters the queue; the first candidate of a partition is
admitted; a launch that ended frees what it held and hands its record over, and a record is written into the
ring. A slot is read at the write of TAIL (log 94); the last record that CTX_END waits for answers it (log 59). -/
def Obligations.LaunchEvents : Prop :=
  ∀ (f tail p l : Nat) (x : Launch) (s : State),
    let n := s.fn f
    let q := (lookup s.work.queues f).getD []
    let slot := fixLen 32 (n.slots.drop (32 * (n.lqHead.toNat % 64)))
    (f ≠ 32 → s.mailOpen f = true → n.tdisp = .run → n.submitted = [] → n.lqTail = n.lqHead →
      BitVec.ofNat 7 tail = n.lqHead + 1 → hostEntries q < 56 → q.length < 64 → (s.queuedOf slot).1.bad = false →
      Gives (.launchSubmit f tail) s (fun t =>
        (t.fn f).lqTail = n.lqHead + 1 ∧ (t.fn f).lqHead = n.lqHead + 1 ∧ (t.fn f).submitted = [] ∧
        ∃ e : Queued, (lookup t.work.queues f).getD [] = q ++ [e] ∧ e.ctx = field slot 0 2 ∧
          e.kind = field slot 2 1 ∧ e.hentry = field slot 4 4 ∧ e.hoff = field slot 8 8 ∧ e.device = false ∧
          e.enteredAt = s.stepNo)) ∧
    (∀ (c : Cand) (cs : List Cand),
      let u := s.fillQueues p
      bit (s.partField p 28 1) 0 = true → u.candidates p = c :: cs → c.q.waitsFor = none → c.q.kind = 0 →
      (c.q.held = some x ∨ c.q.held = none ∧ (c.q.seen = none ∧ u.admission p c.q = .ok x ∨
        ∃ y, c.q.seen = some y ∧ u.admitRest p c.q y [] = .ok x)) → u.hasRoom p x.hdr = true →
      Gives (.launchTake p) s (fun t =>
        t.work.launches = u.work.launches ++ [{ x with num := u.work.nextLaunch, part := p, readyAt := u.stepNo }] ∧
        t.work.nextLaunch = u.work.nextLaunch + 1 ∧
        (s.replays = [] → (∀ g, (s.fn g).submitted = []) → (∀ y ∈ s.work.finishing, ∃ e, y.2 = .page e) →
          u = s ∧ (lookup t.work.queues c.fn).getD [] = ((lookup s.work.queues c.fn).getD []).eraseIdx c.ix))) ∧
    (s.launch? l = some x → x.state = .ending → x.replay = none → (∀ y ∈ s.work.finishing, ∃ e, y.2 = .page e) →
      Gives (.launchComplete l) s (fun t =>
        t.launch? l = none ∧ (∀ h ∈ t.work.shares, h.launch ≠ l) ∧ (∀ h ∈ t.work.cps, h.launch ≠ l) ∧
        (x.device = false ∨ x.hdrView = none → (s.fn x.fn).tdisp = .run →
          (t.fn x.fn).waiting = (s.fn x.fn).waiting ++ [x.record]))) ∧
    (∀ (r : List Byte) (rs : List (List Byte)), n.waiting = r :: rs → n.tdisp = .run → n.cqHeld < n.cqRecords →
      n.cqSize.toNat ≤ 10 → r.length = 32 → Memory.wf s.host.hostMem = true →
      Gives (.completionRecordWrite f) s (fun t => (t.fn f).waiting = rs ∧
        (t.fn f).cqTail = BitVec.ofNat 17 ((n.cqTail.toNat + 1) % (2 * n.cqRecords)) ∧
        (t.fn f).msix = n.msix ++ [0] ∧ (n.endLeft = 1 → Answered t f 0 []) ∧
        memRead t.host.hostMem (n.cqBase.toNat * 4096 + n.cqTail.toNat % n.cqRecords * 32) 32 =
          stampRecord r s.cycle.toNat (!bit n.cqTail.toNat (n.cqSize.toNat + 6)) ∧ t.mem = s.mem))

/-- 06 R112 to R114, R125 to R127: groups bound, strands generated, gangs reserved and started, and the steps of a
stepped launch. Which cores a gang takes is log 55, a whole exchange step in one act log 60, the slots of saved strands
log 56. -/
def Obligations.PlacementEvents : Prop :=
  ∀ (l k cl off : Nat) (x : Launch) (s : State), s.launch? l = some x →
    let n := x.generated
    (x.state = .running → x.evicted = false → x.hdr.mode = 0 → x.bound.length < x.hdr.groups →
      s.chooseCluster x.part x.hdr.cpBytes = some cl → s.cpRoom cl x.hdr.cpBytes = some off →
      Gives (.clusterGroupBind l) s (fun t =>
        t.work.cps = s.work.cps ++ [⟨cl, off, x.hdr.cpBytes, l, x.bound.length⟩] ∧
        (∀ a, a < x.hdr.cpBytes → memGet t.mem.cells (cpPlace cl off + a) = 0) ∧
        SameOutside s t (cpPlace cl off) x.hdr.cpBytes ∧
        ∃ y, t.launch? l = some y ∧ y.bound = x.bound ++ [(x.bound.length, cl)])) ∧
    (x.state = .running → x.hdr.mode = 0 → n < x.hdr.strands →
      lookup x.bound (n / max 1 x.hdr.perCluster) = some cl → s.poolCount cl < 256 →
      Gives (.strandGenerate l) s (fun t => ∃ r, t.work.pool = s.work.pool ++ [r] ∧ r.launch = l ∧
        r.state = .ready ∧ r.first = true ∧ r.cluster = cl ∧ r.workid = x.hdr.workidAt n ∧
        r.pc = BitVec.ofNat 48 x.hdr.entry ∧ r.s1 = x.hdr.args.getD 0 0 ∧ r.s2 = x.hdr.args.getD 1 0 ∧
        r.s3 = x.hdr.args.getD 2 0 ∧ r.s4 = x.hdr.args.getD 3 0 ∧
        ∃ y, t.launch? l = some y ∧ y.generated = n + 1 ∧ y.live = x.live + 1)) ∧
    (x.state = .reserving →
      (s.gangMay x = true → s.gangWaits x = false →
        (∀ y ∈ s.work.launches, y.num ≠ l → y.state = .reserving → ∀ q ∈ y.reserved, ∀ p ∈ s.coresFor x, q.2 ≠ p.2) →
        Gives (.gangReserve l) s (fun t =>
          ∃ y, t.launch? l = some y ∧ y.state = .reserving ∧ y.reserved = s.coresFor x)) ∧
      (s.gangMay x = true → x.reserved.length = x.hdr.strands → x.reserved ≠ [] →
        (∀ p ∈ x.reserved, (s.coreAt p.2).job = none ∧ s.heldCore p.2 x.num = false) →
        (x.bound = [] → ∀ p ∈ x.reserved, (s.lmRoom p.2 x.hdr.lmBytes).isSome = true ∧
          (s.cpRoom (clusterOf p.2) x.hdr.cpBytes).isSome = true ∧ s.boundGroups (clusterOf p.2) < 16) →
        (x.bound ≠ [] → s.trust.debugOpen = false ∧ ∀ r ∈ s.work.pool, r.launch = l → r.save.isSome = true →
          s.slotMarked x r = true ∧ ∀ c, s.ctx? x.ctx = some c → s.areaBad c r.slot slotBytes = none) →
        Gives (.gangStart l) s (fun t => ∃ y, t.launch? l = some y ∧ y.state = .running))) ∧
    (x.allArrived = true →
      (∀ p c u, x.plan[k]? = some p → s.ctx? x.ctx = some c → k ∉ x.planDone → x.state = .running →
        x.planPage = none → s.planLines x c p (p.len / 64) 0 = .ok u →
        Gives (.exchangeStepIssue l k) s (fun t => t.mem = u.mem ∧
          ∃ y, t.launch? l = some y ∧ k ∈ y.planDone ∧ y.state = x.state)) ∧
      (x.state = .running → (∀ k, k < x.plan.length → k ∈ x.planDone) → Gives (.sstepRelease l) s (fun t =>
        ∃ y, t.launch? l = some y ∧ y.arrived = [] ∧ y.planDone = [] ∧
          y.overruns = if x.late then x.overruns + 1 else x.overruns)))

/-- 06 R103, R116 to R119, R122 to R124, 08 R176, 20 R425 to R429: dispatch, slices and budgets, wakes, steals, and
pre-emption, eviction and the watchdog. Watchers hit are log 39, saves and images with their slots log 56, RSEQ of a
record log 61, a deadline or watchdog at any time log 71. -/
def Obligations.SchedulingEvents : Prop :=
  ∀ (c f i : Nat) (j : Job) (s : State),
    let k := s.coreAt c
    let preempted (t : State) : Prop := ∀ n, n < 768 → RunsFor s f n → (t.coreAt n).preempt = true
    (∀ r l x, s.coreFree c = true → s.chooseRec c = some r → s.launch? r.launch = some l →
      s.ctx? l.ctx = some x →
      (∀ h, r.save = none → r.scope = 0 → s.shareFor c r = some h → Gives (.strandDispatch c) s (fun t =>
        (∃ y, (t.coreAt c).job = some y ∧ y.strand = r.strand ∧ y.workid = r.workid ∧ y.lmBase = h.off ∧
          y.launch = l.num) ∧
        (t.coreAt c).pc = r.pc ∧ (t.coreAt c).live = Regs.ofRec (Limits.mk l.hdr.vregs l.hdr.kregs l.hdr.rots l.hdr.rotv
          l.hdr.rotk) r ∧ (t.coreAt c).rseq = r.rseq ∧
        ∀ y ∈ t.work.pool, y.strand ≠ r.strand)) ∧
      (∀ y, r.save = some y → s.areaBad x r.slot slotBytes = none → Gives (.strandDispatch c) s (fun t =>
        (t.coreAt c).pc = y.pc ∧ (t.coreAt c).live.s = y.live.s ∧ (t.coreAt c).preempt = false ∧
        (t.coreAt c).job = y.job.map (fun j => { j with readyAt := r.readyAt })))) ∧
    (s.othersReady c = true → k.job = some j → Gives (.sliceEnd c) s (fun t => (t.coreAt c).preempt = true)) ∧
    (s.within_ f = false → Gives (.budgetExhausted f) s preempted) ∧
    Gives (.budgetPeriodStart f) s (fun t => (t.fn f).used = 0 ∧ t = { s with fns := t.fns }) ∧
    (s.mailOpen 32 = true → (s.fn f).evict = 0 → Gives (.functionEvict f) s (fun t => (t.fn f).evict = 1 ∧ preempted t)) ∧
    (∀ w, s.mem.watchers[i]? = some w → w.hit = true → Gives (.watchWake i) s (fun t =>
      w ∉ t.mem.watchers ∧ t.mem.cells = s.mem.cells ∧
      ∀ (n : Nat) (r : Rec), s.work.pool[n]? = some r → r.strand = w.strand → r.state = .watching →
        ∃ y : Rec, t.work.pool[n]? = some y ∧ y.state = .ready)) ∧
    (∀ a b x, s.steals[i]? = some x → x.back = false → s.isHeld x.id = false → x.route = a :: b →
      (s.coreAt a).runs (fun j => j.launch == x.launch) = true → (s.coreAt a).thief = false →
      Gives (.stealRequestArrive i) s (fun t => (t.coreAt a).heldSteals = (s.coreAt a).heldSteals ++ [x.id])) ∧
    (∀ a x, s.steals[i]? = some x → x.back = true → s.coreOfStrand x.thief = some a →
      Gives (.stealGrantArrive i) s (fun t => (t.coreAt a).stealReturned = true ∧ (t.coreAt a).grant = x.granted ∧
        ∀ y ∈ t.steals, y.id ≠ x.id)) ∧
    (k.job = some j → k.stopped = false → k.lines = [] → k.cq = [] →
      (k.preempt = true → k.preemptReady = false → k.arrayPoint = true → k.stall = .none → k.sbuf = [] →
        Gives (.preemptPointReached c) s (fun t => (t.coreAt c).preemptReady = true ∧ (t.coreAt c).live = k.live ∧
          (t.coreAt c).ckpt = k.live ∧ (t.coreAt c).rseq = k.rseq + 1)) ∧
      (k.preempt = true → k.preemptReady = false → k.stall ≠ .drain → (s.focus c).regionLive = false →
        (k.rollBack 3).tilesFree = true →
        (k.rollBack 3).mq = [] →
        Gives (.preemptDeadline c) s (fun t => (t.coreAt c).preemptReady = true ∧ (t.coreAt c).live = k.ckpt ∧
          (t.coreAt c).pc = k.startPc))) ∧
    (∀ l, k.job = some j → s.launch? j.launch = some l →
      (∀ x a no u, k.preemptReady = true → k.posted = [] → (∀ r ∈ s.links.reqs, r.core = c → r.resp.isSome = true) →
        s.saveAreaOk j.tenant l.part = true → s.ctx? j.ctx = some x → s.freeSlot j.tenant l.part = some a →
        s.areaWaits x true a slotBytes = [] → s.saveOut x a slotBytes = some (no, u) →
        Gives (.preemptSaveComplete c) s (fun t => (t.coreAt c).job = none ∧ t.mem = u.mem ∧
          ∃ r, t.work.pool = s.work.pool ++ [r] ∧ r.strand = j.strand ∧ r.state = .ready ∧ r.pc = k.pc ∧
            r.save = some { k with heldSteals := [] } ∧ r.slot = a ∧ r.saveNo = no)) ∧
      (k.preempt = true → k.preemptReady = false → k.stopped = false →
        s.looseWaits (fun y => y.runs (fun x => x.launch == j.launch)) = [] → Gives (.watchdog c) s (fun t =>
        (t.coreAt c).job = none ∧ ∃ y, t.launch? j.launch = some y ∧ y.state = .ending ∧
          y.status = some (0x18, c, j.workid.toNat)))) ∧
    (∀ x u, (s.fn f).evict = 1 → s.coresOf f = [] → s.evictWaits f = [] →
      s.work.ctxs.filter (fun c => c.fn == f) = [x] → s.saveAreaOk x.tenant ((s.partOf f).getD 32) = true →
      State.writeImages x (s.imagesOf x ((s.partOf f).getD 32)) s = some u →
      Gives (.evictionDone f) s (fun t => (t.fn f).evict = 2 ∧
        ∀ h ∈ s.work.shares, s.launchOf x.num h.launch = true → h ∉ t.work.shares ∧
          ∃ y ∈ t.work.images, y.fn = f ∧ y.lm = some h ∧
            y.cells = cellsIn s.mem.cells (lmPlace h.core h.off) h.len)) ∧
    (∀ x y, s.mailOpen 32 = true → (s.fn f).evict = 2 → s.work.images = [y] → y.fn = f → s.imageFits y = true →
      s.ctx? y.ctx = some x → s.marked_ x y.saveNo y.slot y.range.2 = true → s.areaBad x y.slot y.range.2 = none →
      Gives (.functionResume f) s (fun t => (t.fn f).evict = 0 ∧ t.work.images = [] ∧
        t.work.shares = s.work.shares ++ y.lm.toList ∧ t.work.cps = s.work.cps ++ y.cp.toList ∧
        ∀ l ∈ t.work.launches, l.fn = f → l.evicted = false))

/-! ## Host registers (06 R107 to R110; 12 R298 to R310; 20 R416, R417, R430; 23 R471 to R473) -/

/-- 06 R110, 12 R298, R300, R304 to R310, 20 R417, R430, 23 R471 to R473: what a host write of a register, and the
end of the work it starts, does when its checks pass. A commit, an extent change, an invalidation and a save-area check
look at the state of their end (log 44); the host's status is log 98, the key of its lines log 36. -/
def Obligations.HostRegisterEvents : Prop :=
  ∀ (f i off : Nat) (v : Word) (bs : List Byte) (s : State),
    let w := s.part
    let owner := bits s.xl.patop.toNat 23 16
    let bm := bit s.xl.patop.toNat 15
    let ix := bits s.xl.patop.toNat 14 0
    let e := if bm then 32768 + ix else ix
    let a := off % 2 ^ 27
    let fr := (a - 2 ^ 20) / 16 * 16 + off / 2 ^ 27
    let up : Prop := s.mailOpen 32 = true
    (up → Gives .ptCommit s (fun t => t = { s with part := { w with busy := true } })) ∧
    (¬up → ∀ x ∈ [Instr.ptCommit, .calendarGo, .calendarPost, .patChange v, .xlinv v, .walkApertureWrite off bs,
      .pageRequestClose i, .pageRequestRefuse i, .saveAreaCheck i], Gives x s (fun t => t = s)) ∧
    (w.busy = true → s.commitFails = none → Gives .ptCommitDone s (fun t =>
      t.part.iDescr = w.descr ∧ t.part.iFence = w.fence ∧ t.part.iBudget = w.budget ∧ t.part.busy = false ∧
        t.part.code = 0)) ∧
    (up → s.cal.busy = false → s.calCheck s.cal.pending false = 0 → Gives .calendarGo s (fun t =>
      t = { s with cal := { s.cal with busy := true, code := 0, staged := some s.cal.pending } })) ∧
    (up → s.cal.busy = false → s.calCheck s.cal.pending true = 0 → Gives .calendarPost s (fun t =>
      t = { s with cal := { s.cal with code := 0, post := some s.cal.pending } })) ∧
    (∀ l, s.cal.staged = some l → Gives .calendarInstall s (fun t => t.cal.installed = l ∧ t.cal.staged = none ∧
      t.cal.busy = false)) ∧
    (up → s.xl.patBusy = false → v.getLsbD 63 = true → Gives (.patChange v) s (fun t =>
      t = { s with xl := { s.xl with patBusy := true, patop := v } })) ∧
    (s.xl.patBusy = true → s.patCheck bm ix owner = 0 → Gives .patChangeDone s (fun t =>
      t.xl.extent e = { s.xl.extent e with owner := BitVec.ofNat 8 owner } ∧ t.xl.patBusy = false ∧
        t.xl.patCode = 0 ∧ t.mem = s.mem)) ∧
    (up → s.xl.xlBusy = false → v.getLsbD 63 = true → Gives (.xlinv v) s (fun t =>
      t = { s with xl := { s.xl with xlBusy := true, xlinv := v } })) ∧
    (s.xl.xlBusy = true → s.links.adds = [] → (∀ k ∈ s.core :: s.parked.map (fun p => p.2), s.heldBack k = false) →
      s.looseWaits (fun k => k.runs (fun j => j.tenant == bits s.xl.xlinv.toNat 55 48)) = [] →
      Gives .xlinvComplete s (fun t => t.xl.xlBusy = false ∧
      (bit s.xl.xlinv.toNat 62 = true → ∀ x ∈ t.xl.cache, x.tenant ≠ bits s.xl.xlinv.toNat 55 48) ∧
      ∀ x ∈ s.xl.cache, x.tenant ≠ bits s.xl.xlinv.toNat 55 48 → x ∈ t.xl.cache)) ∧
    (up → off / 2 ^ 27 < 16 → 2 ^ 20 ≤ a → fr < frames → bs.length = 16 → a % 16 = 0 → s.entryOk fr bs = true →
      IptEntry.read bs ≠ IptEntry.empty → entryLine fr ∉ s.xl.walkBad → Gives (.walkApertureWrite off bs) s (fun t =>
        t.xl.entry fr = IptEntry.read bs ∧ ∀ k, k ≠ fr → t.xl.entry k = s.xl.entry k)) ∧
    (up → s.isOpen i = true → s.xl.prq.Pairwise (fun a b => a.1 < b.1) →
      Gives (.pageRequestClose i) s (fun t => lookup t.xl.prq i = none ∧
        (∀ n, (s.coreAt n).stall = .page i → (t.coreAt n).stall = .none) ∧
        ∀ x ∈ t.core.cq, x.paused ≠ some i) ∧
      (s.waitingOn i = [] → (∀ l ∈ s.work.launches, ∀ q, l.planPage = some q → q.1 ≠ i) →
        Gives (.pageRequestRefuse i) s (fun t => lookup t.xl.prq i = none ∧
        ∀ (n : Nat) (x : Cmd), s.core.cq[n]? = some x → x.paused = some i →
          ∃ y : Cmd, t.core.cq[n]? = some y ∧ y.paused = none ∧ y.fail = some (3, 0)))) ∧
    (up → s.saveLocked i = false → Gives (.saveAreaCheck i) s (fun t =>
      t.saveArea i = { s.saveArea i with state := 1 })) ∧
    ((s.saveArea i).state = 1 → s.saveCheckWaits i = false → Gives (.saveAreaCheckDone i) s (fun t =>
      t.saveArea i = { s.saveArea i with state := if s.saveAreaPasses i then 2 else 3 })) ∧
    (i < 8 → f ≠ 32 → s.mailOpen f = true → Gives (.pmevtWrite f i v) s (fun t =>
      let un : Prop := v.toNat % 65536 ∉ [0x01, 0x02, 0x10, 0x20, 0x30, 0x40, 0x41, 0x42, 0x43, 0x50, 0x51, 0x52]
      ((t.fn f).pmevt.getD i 0).getLsbD 63 = v.getLsbD 63 ∧
        (((t.fn f).pmevt.getD i 0).getLsbD 62 = true ↔ un) ∧
        ((t.fn f).pmevt.getD i 0).toNat % 65536 = v.toNat % 65536 ∧ (un → (t.fn f).pmcnt.getD i 0 = 0))) ∧
    (s.mailOpen f = true → Gives (.registerWrite f 0 v) s (fun t => (t.fn f).mbox = { (s.fn f).mbox with
      cmd := BitVec.ofNat 8 (bits v.toNat 23 16), len := BitVec.ofNat 13 v.toNat })) ∧
    (i < 256 → s.mailOpen 32 = true → Gives (.registerWrite 32 (0x5100 + 8 * i) v) s (fun t =>
      t.xl.tid i = { s.xl.tid i with hint := BitVec.ofNat 4 v.toNat })) ∧
    (f < 33 → s.mailOpen 32 = true → s.frozen f = true → (s.fn f).weight ≠ BitVec.ofNat 8 v.toNat →
      Gives (.registerWrite 32 (0x1F0000 + 4 * f) v) s (fun t => (t.fn f).tdisp = .error ∧
        ∀ c ∈ t.work.ctxs, c.fn ≠ f)) ∧
    (s.mailOpen f = true → s.host.queue = [] →
      let served (t : State) (m : List Host.Cell) (st : Nat) : Prop := t.mem.cells = m ∧ t.core = s.core ∧
        t.host = { s.host with access := st, deficits := eraseKey s.host.deficits f, turn := f }
      let slot : Prop := 0 < slotsOf (calBytes s.cal.installed (s.homeOf (i / 64))) 0xC3
      let good (wr : Option (List Byte)) : Prop :=
        (∀ l ∈ linesOf i (hostSize (f, i, wr)), s.bad (s.hostKey f) l = false) ∧ s.hostWaits (f, i, wr) = none
      (i + 64 ≤ s.xl.capacity → slot → good none →
        Gives (.hostMemoryAccess f i none) s (fun t => served t s.mem.cells 0 ∧ t.mem = s.mem)) ∧
      (s.memOk → i + bs.length ≤ s.xl.capacity → slot → good (some bs) →
        Gives (.hostMemoryAccess f i (some bs)) s (fun t =>
          BytesPut s t i bs ∧ served t (memWrite s.mem.cells i bs) 0)) ∧
      (∀ wr, s.xl.capacity < i + hostSize (f, i, wr) →
        Gives (.hostMemoryAccess f i wr) s (fun t => served t s.mem.cells 8)) ∧
      (∀ wr, i + hostSize (f, i, wr) ≤ s.xl.capacity → ¬slot ∨ s.hostWaits (f, i, wr) ≠ none →
        Gives (.hostMemoryAccess f i wr) s (fun t => t.host = { s.host with queue := [(f, i, wr)] } ∧ t.mem = s.mem))) ∧
    (s.mailOpen f = false → ∀ wr, ∀ x ∈ [Instr.hostMemoryAccess f i wr, .registerWrite f off v, .pmevtWrite f i v],
      Gives x s (fun t => t = s))

/-! ## Sweeps and errors (12 R305 to R315; 20 R434; 21 R435 to R458) -/

/-- 21 R437 to R445, R458: the acts of a stack retirement. -/
def RetirementActs : Prop :=
  ∀ (t p k g : Nat) (v : Word) (s : State),
    let w := s.sweep
    let n := bits v.toNat 15 0
    let up : Prop := s.mailOpen 32 = true
    (up → v.getLsbD 63 = true → n ≤ s.xl.capacity / 2 ^ 25 → 16384 ≤ n →
      (∀ x ∈ s.xl.extents, n ≤ x.1 → x.1 < 32768 → x.2.owner = 0) → w.retiringNow = false →
      Gives (.swcap v) s (fun x => x.xl.capacity = n * 2 ^ 25 ∧ x.sweep.swCode = 0 ∧ x.mem = s.mem)) ∧
    (up → v.getLsbD 63 = true → s.retireCheck (bits v.toNat 3 0) (bits v.toNat 24 16) = 0 →
      Gives (.swret v) s (fun x => x.sweep.phaseNum = w.phaseNum + 1 ∧
        x.sweep.retiring = some (bits v.toNat 3 0) ∧ x.sweep.swBusy = true ∧ x.sweep.stalled = 0 ∧ x.sweep.refused = 0 ∧
        x.sweep.win = min 15 (s.xl.capacity / 4096 - 256) ∧ x.sweep.win + x.sweep.gran = s.xl.capacity / 4096)) ∧
    (¬up → ∀ x ∈ [Instr.swcap v, .swret v, .keyRotationStart t], Gives x s (fun y => y = s)) ∧
    (w.retiringNow = true → w.staged = false →
      (256 < w.gran → w.win = 15 →
        (w.done (w.gran + 14) = 128 → Gives .granuleMoveComplete s (fun x =>
          x.sweep.gran = w.gran - 1 ∧ x.sweep.win = 15 ∧ x.mem = s.mem)) ∧
        (w.done (w.gran + 14) ≠ 128 → Gives .granuleMoveComplete s (fun x => x = s))) ∧
      (w.gran = 256 → w.win = 1 → w.done 256 = 128 → Gives .granuleMoveComplete s (fun x =>
        x.sweep.gran = 0 ∧ x.sweep.win = 256 ∧ x.mem = s.mem)) ∧
      (w.gran = 0 → w.win = 256 → (∀ g, g < 256 → w.done g = 128) → s.memOk → Gives .stagingBlockMove s (fun x =>
        x.sweep.staged = true ∧ x.sweep.win = 0 ∧ SameOutside s x (bmBase + w.stage * 2 ^ 25) (2 ^ 20) ∧
        ∀ a, a < 2 ^ 20 → memGet x.mem.cells (bmBase + w.stage * 2 ^ 25 + a) = Config.stageByte s.drawn a))) ∧
    (w.retiring = some t → w.retiringNow = true → w.staged = true → Gives .retirementEnd s (fun x =>
      x.sweep.phaseNum = w.phaseNum + 1 ∧ x.xl.surv = s.xl.surv.filter (fun y => y != t) ∧
        (∀ i, s.xl.whome.getD i 0 ≠ t → x.xl.whome.getD i 0 = s.xl.whome.getD i 0) ∧ x.sweep.swBusy = false ∧
        x.cal.staged = some (s.calAfter t) ∧ x.mem = s.mem)) ∧
    ((calBytes s.cal.installed p).getD k 0xFF = 0xC1 → s.askedAt p = none → s.moveAt p = some g → Gives (.calendarSlot p k) s (fun x =>
      x.sweep.done g = w.done g + 1 ∧ x.mem.cells = s.mem.cells ∧
      (w.done g < 64 → 64 * g + w.done g ∈ s.mem.faulty → s.unscrubbed (64 * g + w.done g) = false →
        64 * g + w.done g ∈ x.mem.poison)))

/-- 12 R305, R309, R315, 16 R397, 21 R436, R446 to R449, R453 to R455: key rotation, scrub, patrol and the slots of the
calendars, a line that holds a write scrubbed before all else. -/
def SlotActs : Prop :=
  ∀ (t p k f a : Nat) (r : Rotation) (bad : List Nat) (u : PatrolUnit) (s : State),
    let w := s.sweep
    let code := (calBytes s.cal.installed p).getD k 0xFF
    let found := s.patrolFinds u bad
    let clean (l : Nat) (x : State) : Prop := x.mem.cells = s.mem.cells ∧ l ∉ x.mem.poison ∧ l ∉ x.mem.faulty
    (∀ c slot, s.mailOpen 32 = true → (s.xl.tid t).state = .live → (s.rotation t).act = false →
      s.work.ctxs.find? (fun c => c.tenant == t) = some c →
      s.trust.keys.findIdx? (fun k => k == none) = some slot → Gives (.keyRotationStart t) s (fun x =>
        (x.rotation t).act = true ∧ (x.rotation t).num = (s.rotation t).num + 1 ∧ (x.rotation t).code = 0 ∧
        (x.rotation t).newSlot = slot ∧ (x.rotation t).newKey = s.work.nextDomain ∧
        x.trust.keys.getD slot none = some s.work.nextDomain)) ∧
    ((s.rotation t).act = true → extents ≤ (s.rotation t).ext → Gives (.keyRotationEnd t) s (fun x =>
      (x.rotation t).act = false ∧ (x.rotation t).num = (s.rotation t).num + 1 ∧
      x.trust.keys.getD (s.rotation t).oldSlot none = none ∧
      ∀ c ∈ x.work.ctxs, c.tenant = t → c.keyslot = (s.rotation t).newSlot ∧ c.key = (s.rotation t).newKey)) ∧
    (w.scrExt = some k → w.passed k = true → Gives .scrubExtentDone s (fun x =>
      (x.xl.extent k).scrub = 0 ∧ (x.xl.extent k).owner = (s.xl.extent k).owner ∧ x.mem.cells = s.mem.cells ∧
        ∀ l, (extentLine l).1 = k → s.unscrubbed l = true → l ∉ x.mem.poison ∧ l ∉ x.mem.faulty)) ∧
    (∀ l, code = 0xC1 → s.askedAt p = some l → Gives (.calendarSlot p k) s (fun x =>
      x.unscrubbed l = false ∧ l ∉ x.sweep.asked ∧ clean l x)) ∧
    (code = 0xC1 → s.askedAt p = none → s.moveAt p = none →
      (w.rot.find? (fun x => s.rotatesAt p x.2) = some (t, r) → r.line + 1 < 2 ^ 19 →
        Gives (.calendarSlot p k) s (fun x => x.rotation t = { r with line := r.line + 1 } ∧
          x.mem.cells = s.mem.cells)) ∧
      (∀ e, w.rot.find? (fun x => s.rotatesAt p x.2) = none → s.scrubsAt p = true → w.scrExt = some e →
        Gives (.calendarSlot p k) s (fun x => x.sweep = { w with scrLine := w.scrLine + 1 } ∧
          (s.unscrubbed (e * 2 ^ 19 + w.scrLine) = true → clean (e * 2 ^ 19 + w.scrLine) x)))) ∧
    (code = 0xC3 → f ≤ 32 → s.host.queue = [(f, a, none)] → s.hostReady (f, a, none) = true →
      s.homeOf (a / 64) = p → a + 64 ≤ s.xl.capacity → (∀ l ∈ linesOf a 64, s.bad (s.hostKey f) l = false) →
      Gives (.calendarSlot p k) s (fun x => x.host.queue = [] ∧ x.host.access = 0 ∧ x.mem = s.mem)) ∧
    (code ≠ 0xC1 → code ≠ 0xC3 → Gives (.calendarSlot p k) s (fun x => x = { s with fns := x.fns })) ∧
    Gives (.refreshForced p k) s (fun x => lookup x.cal.refcut p =
      some (BitVec.ofNat 32 (min 0xFFFFFFFF (((lookup s.cal.refcut p).getD 0).toNat + 1))) ∧ x.mem = s.mem) ∧
    (∀ l, l ∈ found ↔ PatrolUnit.place u / 64 ≤ l ∧ l < PatrolUnit.place u / 64 + PatrolUnit.lines u ∧
      (l ∈ s.mem.faulty ∨ ∃ i ∈ bad, l = PatrolUnit.place u / 64 + i) ∧ l ∉ s.mem.poison ∧ s.unscrubbed l = false) ∧
    Gives (.bankPatrol u bad) s (fun x => (∀ l ∈ found, l ∈ x.mem.poison) ∧ x.mem.cells = s.mem.cells ∧
      x.trust.log = s.trust.log ++ found.eraseDups.map (fun l => ⟨.poison, l * 64, PatrolUnit.number u, s.cycle.toNat⟩))

/-- 20 R434: what a soft error does by the state it strikes (log 69). -/
def SoftErrors : Prop :=
  ∀ (p k : Nat) (q : PathUnit) (s : State),
    (k < 768 →
      ((s.coreAt k).job.isSome = true → Gives (.softError (.coreLogic k)) s (fun x =>
        (x.coreAt k).live = (s.coreAt k).ckpt ∧ (x.coreAt k).pc = (s.coreAt k).startPc ∧
          (x.coreAt k).lastCause = 2)) ∧
      Gives (.softError (.handleCache k p)) s (fun x => ∀ h ∈ (x.coreAt k).hcache, h.entry ≠ p) ∧
      (∀ j, (s.coreAt k).job = some j → Gives (.softError (.regionLog k)) s (fun x => x.ctx? j.ctx = none))) ∧
    Gives (.softError (.xlateCache k)) s (fun x => x.xl.cache = s.xl.cache.eraseIdx k) ∧
    (PathUnit.present q = true → Gives (.softError (.path q [k])) s (fun x => x.ctx? k = none)) ∧
    Gives (.softError .trustCore) s (fun x => FreshPackage s x)

/-- 12 R305, R309, R315, 16 R397, R437 to R449, 20 R434, 21 R453 to R458: the acts of the sweeps, of patrol and of soft
errors. The order of a sweep slot's work is log 35, what the other slots count log 2, the staging area's bytes log 37,
the bytes under a scrub, zero since their context ended, log 43, what a soft error does log 69. -/
def Obligations.SweepEvents : Prop := RetirementActs ∧ SlotActs ∧ SoftErrors

/-! ## Links between packages (15 R375; 13 R338; 16 R384 to R408) -/

/-- 16 R392, R393, R395: the acts of a rack port. Dead marks are set as a port leaves OPEN and taken back at ALLOW
(log 57). -/
def PortActs : Prop :=
  ∀ (p : Nat) (x : Port) (peer : PeerRecord) (s : State), s.links.ports[p]? = some x →
    let port (t : State) : Option Port := t.links.ports[p]?
    let up : Prop := s.mailOpen 32 = true
    let downed (t : State) : Prop := port t = some { x with state := .down, failed := 0 } ∧
      (x.state = .open_ → x.peer.toNat ∈ t.links.deadPkgs ∧
        ∀ k ∈ s.links.keysOf x.peer.toNat, (x.peer.toNat, k) ∈ t.links.dead)
    (x.state = .down → s.trust.lcNow ≠ .retired → Gives (.linkPeerSignal p) s (fun t =>
      port t = some { x with state := .training })) ∧
    (x.state = .training → (s.trust.lcNow ≠ .retired → Gives (.linkTrainingDone p true peer) s (fun t =>
        port t = some { x with state := .attesting, peer := BitVec.ofNat 5 peer.pkg, rec_ := peer })) ∧
      (s.trust.lcNow = .retired → Gives (.linkTrainingDone p true peer) s (fun t =>
        port t = some { x with state := .down })) ∧
      Gives (.linkTrainingDone p false peer) s (fun t => port t = some { x with state := .down })) ∧
    Gives (.linkSignalLoss p) s downed ∧
    (up → Gives (.close p) s downed) ∧
    (x.state = .attesting →
      Gives (.attestTimeout p) s (fun t => port t = some { x with state := .down, failed := 0 }) ∧
      (up → Gives (.deny p) s (fun t => port t = some { x with state := .down, failed := 0 })) ∧
      (s.trust.lcNow = .retired → Gives (.allow p) s (fun t => t = s)) ∧
      (up → s.trust.lcNow ≠ .retired → Gives (.allow p) s (fun t =>
        port t = some { x with state := .open_, failed := 0, groups := 0, keyNo := x.keyNo + 1 } ∧
        (∀ d ∈ t.links.dead, d.1 ≠ x.peer.toNat) ∧
        t.links.sent = s.links.sent ++ s.links.unsent.filter (fun x => x.1 == p) ∧
        t.links.unsent = s.links.unsent.filter (fun x => x.1 != p)))) ∧
    (x.state = .open_ →
      Gives (.flitGroupReceive p true) s (fun t => port t = some { x with failed := 0, groups := x.groups + 1 }) ∧
      Gives (.flitGroupReceive p false) s (fun t => ∃ y, port t = some y ∧
        y.err = BitVec.ofNat 32 (min 0xFFFFFFFF (x.err.toNat + 1)) ∧
        y.state = (if 4 ≤ x.failed + 1 then .error else .open_))) ∧
    (¬up → ∀ i ∈ [Instr.allow p, .deny p, .close p], Gives i s (fun t => t = s))

/-- 16 R390, R391: the two tables of the rack hoop. -/
def LinkTables : Prop :=
  ∀ (i : Nat) (v : Word) (h : W32) (s : State),
    let w := v &&& 0xC000FFFF00FFFFFF#64
    (s.mailOpen 32 = true →
      (i < 4096 → (s.links.rank i).getLsbD 63 = false → w ≠ 0 → Gives (.rankTableWrite i v) s (fun t =>
        t.links.rank i = w ∧ ∀ k, k ≠ i → t.links.rank k = s.links.rank k)) ∧
      (i < 32 → h.toNat % 65536 ≠ 0 → Gives (.admissionTableWrite i h) s (fun t =>
        ∀ k, t.links.admits.getD k 0 = if k = i then h &&& 0x80FFFFFF else s.links.admits.getD k 0))) ∧
    (s.mailOpen 32 = false → ∀ x ∈ [Instr.rankTableWrite i v, .admissionTableWrite i h], Gives x s (fun t => t = s))

/-- 16 R384 to R386, R389, R390, R392: what a port does with a data flit. A flit whose package is another's passes on as
it came, the way it travels, or waits until that port is OPEN (logs 57, 75). -/
def FlitsReceived : Prop :=
  ∀ (p : Nat) (f : Flit) (s : State), s.reaches p f = true → f.fits = true → f.resv = 0 →
    let on := s.onward p f
    let key := s.links.admitted f.pkey.toNat
    let back (t : State) (bs : Req → Req) : Prop :=
      ∀ (n : Nat) (r : Req), s.links.reqs[n]? = some r → r.id % 65536 = f.tag.toNat → r.resp = none →
        t.links.reqs[n]? = some (bs r)
    (f.cls = 0 ∨ f.cls = 1 → key.isSome = true → f.goal ≠ Config.ownPackage → Gives (.flitReceive p f) s (fun t =>
      t.mem = s.mem ∧ (s.links.crosses on = true → t.links.sent = s.links.sent ++ [(on, f)]) ∧
      (s.links.crosses on = false → t.links.unsent = s.links.unsent ++ [(on, f)]))) ∧
    (f.cls = 1 → key.isSome = true → f.dpkg = Config.ownPackage → (∀ r ∈ s.links.reqs, r.posted = false) →
      Gives (.flitReceive p f) s (fun t => t.mem = s.mem ∧
        back t (fun r => { r with resp := some (BitVec.ofNat 8 (min f.addr.toNat 0xFF), f.payload) }))) ∧
    (f.cls = 0 → f.ret = true → key.isSome = true → f.spkg = Config.ownPackage → Gives (.flitReceive p f) s (fun t =>
      t.mem = s.mem ∧ back t (fun r => { r with returned := true, tries := r.tries + 1 }))) ∧
    (f.cls = 0 → key = none → f.spkg ≠ Config.ownPackage →
      s.links.crosses (s.outPort f.ddie.toNat f.spkg.toNat) = true → Gives (.flitReceive p f) s (fun t =>
      t.links.keydrop = s.links.keydrop + 1 ∧ t.mem = s.mem ∧
        ∃ q y, t.links.sent = s.links.sent ++ [(q, y)] ∧ y.cls = 1 ∧ y.tag = f.tag ∧ y.addr = 1 ∧ y.dpkg = f.spkg)) ∧
    (f.cls = 1 → key = none → Gives (.flitReceive p f) s (fun t =>
      t = { s with links := { s.links with keydrop := s.links.keydrop + 1 } }))

/-- 16 R386, R388, R395, R407, R408: requests of this package sent again, acknowledged, and answered by a notice. -/
def RequestsSettled : Prop :=
  ∀ (c i e : Nat) (code : BitVec 8) (s : State),
    (∀ r : Req, s.links.reqs[i]? = some r → r.returned = true →
      (∀ (n : Nat) (q : Req), n < i → s.links.reqs[n]? = some q → q.sameLine r = true →
        q.returned = false ∨ q.resp.isSome = true) →
      Gives (.requestRetry i) s (fun t =>
        (∀ (n : Nat) (q : Req), s.links.reqs[n]? = some q →
          t.links.reqs[n]? = some (if i ≤ n ∧ q.sameLine r = true then { q with returned := false } else q)) ∧
        ((∀ q ∈ s.links.reqs, s.links.crosses q.port = true) → t.links.sent = s.links.sent ++
          ((s.links.reqs.drop i).filter (fun q => q.sameLine r && q.returned)).map (fun q => (q.port, q.flit))))) ∧
    (∀ id r, (s.coreAt c).posted[i]? = some id → s.links.reqs.find? (fun r => r.id == id) = some r →
      r.ext = true ∨ r.dpkg = Config.ownPackage ∨ s.links.anyOpen = true → code.toNat ≤ 0xD → Gives (.remoteWriteAck c i code) s (fun t =>
        id ∉ (t.coreAt c).posted ∧ (∀ q ∈ t.links.reqs, q.id ≠ id) ∧
        (code = 0 → (t.coreAt c).held = (s.coreAt c).held) ∧
        (code ≠ 0 → lookup (t.coreAt c).held id = some code))) ∧
    (s.links.anyOpen = true ∨ i = Config.ownPackage.toNat → Gives (.deadContextNotice i (BitVec.ofNat 16 e)) s (fun t =>
      (i, e % 65536) ∈ t.links.dead ∧ ∀ r ∈ t.links.reqs, r.towards i (e % 65536) = true → r.resp.isSome = true))

/-- 16 R398, R399: endpoints of the scale-out fabric; go-back-N is read as log 74 says. -/
def ScaleOut : Prop :=
  ∀ (p e q : Nat) (f : Flit) (s : State),
    let x := s.endpoint e
    let key := s.links.admitted f.pkey.toNat
    let lost (t : State) : Prop := e ∈ t.links.unreachable ∧
      ∀ r ∈ t.links.reqs, r.toEndpoint e = true → r.resp.isSome = true
    ((∃ w ∈ x.window, w.2.2.cls = 0 ∧ 64 ≤ w.2.1) → Gives (.endpointUnreachable e) s lost) ∧
    ((∀ w ∈ x.window, w.2.2.cls = 0 → w.2.1 < 64) → Gives (.endpointUnreachable e) s (fun t => t = s)) ∧
    ((∀ w ∈ x.window, w.2.2.cls = 0 → w.2.1 < 64) → Gives (.retransmissionTimeout e) s (fun t =>
      t.endpoint e = { x with window := x.window.map (fun w => (w.1, w.2.1 + 1, w.2.2)) } ∧
      t.links.frames = s.links.frames ++ x.window.map (fun w => ⟨e, w.1, .op w.2.2⟩))) ∧
    ((∃ w ∈ x.window, w.2.2.cls = 0 ∧ 64 ≤ w.2.1) → Gives (.retransmissionTimeout e) s lost) ∧
    (p < 8 → e < 2048 →
      Gives (.scaleOutFrameReceive p ⟨e, 0, .ack q⟩) s (fun t =>
        t.endpoint e = { x with window := x.window.filter (fun w => decide (q ≤ w.1)) } ∧ t.mem = s.mem) ∧
      (q ≠ x.expect → Gives (.scaleOutFrameReceive p ⟨e, q, .op f⟩) s (fun t => t = s)) ∧
      (f.cls = 1 → key.isSome = true → (∀ r ∈ s.links.reqs, r.posted = false) →
        Gives (.scaleOutFrameReceive p ⟨e, x.expect, .op f⟩) s (fun t =>
          t.endpoint e = { x with expect := x.expect + 1 } ∧
          t.links.frames = s.links.frames ++ [⟨e, 0, .ack (x.expect + 1)⟩] ∧
          ∀ (n : Nat) (r : Req), s.links.reqs[n]? = some r → r.id % 65536 = f.tag.toNat → r.resp = none →
            ∃ y : Req, t.links.reqs[n]? = some y ∧ y.resp.isSome = true)) ∧
      (f.cls = 0 → key = none → f.spkg ≠ Config.ownPackage →
        Gives (.scaleOutFrameReceive p ⟨e, x.expect, .op f⟩) s (fun t =>
          (t.endpoint e).expect = x.expect + 1 ∧ (t.endpoint e).next = x.next + 1 ∧
          t.links.keydrop = s.links.keydrop + 1 ∧ t.mem = s.mem)))

/-- 13 R338, 15 R375: a piece counted on its barrier, and an addition made to a counter word. -/
def Arrivals : Prop :=
  ∀ (i a n : Nat) (s : State), s.memOk →
    (∀ l, s.links.arrivals[i]? = some (a, n, l) → s.bad s.domain (a / 64) = false → Gives (.barrierArrive i) s (fun t =>
      let old := memRead s.mem.cells a 16
      BytesPut s t a (((Barrier.read old).arrive n).into old) ∧ t.links.arrivals = s.links.arrivals.eraseIdx i)) ∧
    (∀ c via x, s.links.adds[i]? = some (a, n, c, via, x) →
      (∀ l ∈ linesOf a 8, s.bad (fun l => ((s.ctx? c).map (fun y => s.keyFor y l)).getD 0) l = false) →
      s.writeWaits a 8 = none → Gives (.remoteCounterAdd i) s (fun t =>
        BytesPut s t a (leBytes 8 (leNat (memRead s.mem.cells a 8) + n)) ∧
        t.links.adds = s.links.adds.eraseIdx i))

/-- 13 R338, 15 R375, 16 R384 to R399, R408: rack ports, tables, flits, notices, scale-out, and what arrives. A
refusal record that stands is log 38, ports and dead marks log 57, go-back-N log 74, the hoops' paths log 75. -/
def Obligations.LinkEvents : Prop :=
  PortActs ∧ LinkTables ∧ FlitsReceived ∧ RequestsSettled ∧ ScaleOut ∧ Arrivals

/-! ## The debug port (23 R459 to R468) -/

/-- 23 R459 to R461, R465, R468: the commands of the debug port in DEBUG, its data register, tracing and replay. What a
command does to a strand already stopped or running is log 40, how DBGREG counts log 41. -/
def Obligations.DebugEvents : Prop :=
  ∀ (c : Nat) (e : Eng) (v : Word) (s : State), s.trust.debugOpen = true →
    let k := s.coreAt c
    let at_ := s.coreAt s.dbg.core
    let ring := bits v.toNat 8 0
    (s.dbg.busy = false → c ≤ 767 →
      (k.job.isSome = true → k.stopped = false → Gives (.dbgStop c) s (fun t =>
        (t.coreAt c).stopPending = true ∧ t.dbg.core = c ∧ t.mem = s.mem)) ∧
      (k.stopped = true →
        Gives (.dbgResume c) s (fun t => (t.coreAt c).stopped = false ∧ t.dbg.core = c) ∧
        Gives (.dbgStep c) s (fun t => (t.coreAt c).stopped = false ∧ (t.coreAt c).stopPending = true) ∧
        (e ≠ .copy → Gives (.dbgReplay c e) s (fun t => t.dbg.replaying = some (c, e) ∧ t.dbg.busy = true))) ∧
      (e ≠ .copy →
        (s.platformExtent (bits s.dbg.log.toNat 8 0) = true → Gives (.dbgLog c e) s (fun t =>
          (t.coreAt c).cmdLog.getD e.code false = true ∧ (s.logRuns = false → t.dbg.logPos = 0))) ∧
        Gives (.dbgLogoff c e) s (fun t => (t.coreAt c).cmdLog.getD e.code false = false))) ∧
    (at_.stopped = true → s.dbg.replaying = none →
      (s.dbg.reg.toNat < 62 → Gives .debugDataRead s (fun t =>
        t.dbg.data = at_.live.s.getD s.dbg.reg.toNat 0 ∧ t.core = s.core)) ∧
      (1 ≤ s.dbg.reg.toNat → s.dbg.reg.toNat < 62 → Gives (.debugDataWrite v) s (fun t =>
        (t.coreAt s.dbg.core).live = { at_.live with s := upd 0 at_.live.s s.dbg.reg.toNat v } ∧ t.mem = s.mem))) ∧
    (v.getLsbD 63 = true → s.dbg.trcctl.getLsbD 63 = false → s.platformExtent ring = true →
      Gives (.traceEnable v) s (fun t => t.dbg.trcctl.getLsbD 63 = true ∧ t.dbg.trcctl.toNat % 512 = ring ∧
        t.dbg.trchead = 0 ∧ t.mem = s.mem)) ∧
    (s.dbg.replaying = some (c, e) → Gives (.debugReplayDone c) s (fun t =>
      t.dbg.busy = false ∧ t.dbg.replaying = none ∧
        (s.dbg.logged = [] → (t.coreAt c).arrays.w0 = k.arrays.w0 ∧ (t.coreAt c).live = k.live ∧ t.mem = s.mem)))

/-! ## The engines (09 R183; 10 R235; 11 R267; 13 R324) -/

/-- `x` heads an engine's queue on the acting core, which has not reached its pre-emption point, and whose matrix array
no pre-emption stops; it has started, waits for nothing and has not failed (R183, R235, R249, R267). -/
def Head (s : State) (e : Eng) (x : Cmd) : Prop :=
  s.core.preemptReady = false ∧ (e = .matrix → s.core.arrayStops = false) ∧ (∃ l, s.core.queue e = x :: l) ∧
    x.ready = true ∧ s.awaiting x = false ∧ x.fail = none ∧ x.started = true ∧ x.cursor = 0

/-- `x` has left its engine's queue, and the token it names is complete with OK (R366). -/
def Finished (s t : State) (e : Eng) (x : Cmd) : Prop :=
  (∀ y ∈ t.core.queue e, y.prod ≠ x.prod) ∧
    ∀ ph kd, x.tok = some (ph, kd) → ph ≠ 0 → x.orphan = false →
      (s.core.live.k.getD ph Tok.reset).pend = true → (s.core.live.k.getD ph Tok.reset).prod = x.prod →
      t.core.live.k.getD ph Tok.reset = ⟨false, 0, 0, 0⟩

/-- Element `e` of register `r` of a vector command, under a tag. -/
def elemOf (s : State) (x : Cmd) (r : BitVec 6) (tag e : Nat) : Nat := ((s.vregAt x r.toNat).codes tag).getD e 0

/-- Register `d` of a vector command holds, valid and under `tag`, element `f e` where `e` is active, and its old element
where it is not (R193); no other vector register, and no byte of memory, changed. -/
def VectorHolds (s t : State) (x : Cmd) (o : OpV) (tag : Nat) (f : Nat → Nat) : Prop :=
  (∀ p, p ≠ s.vphys x o.d.toNat → t.core.live.v.getD p VReg.reset = s.core.live.v.getD p VReg.reset) ∧
  (t.vregAt x o.d.toNat).valid = true ∧ (t.vregAt x o.d.toNat).tag.toNat = tag ∧
  (∀ e, e < elemsPerReg tag →
    elemOf t x o.d tag e = if s.core.live.active o e then f e else elemOf s x o.d tag e) ∧ t.mem = s.mem

/-- 09 R201 to R203: VADD, VSUB and VMUL of single registers, as INT32 and as FP32 (the modes that draw no random
bits). -/
def VectorArithmetic : Prop :=
  ∀ (o : OpV) (x : Cmd) (s : State), o.w = 0 → o.sa = 0 → o.sb = 0 → Head s .vector x →
    ∀ (i : OpV → Instr) (f : Int → Int → Int) (g : Nat → Val → Val → Val × BitVec 5),
      (i, f, g) ∈ [(Instr.vadd, (fun a b => a + b), addV), (.vsub, (fun a b => a - b), fun m a b => addV m a b.neg),
        (.vmul, (fun a b => a * b), fun _ a b => mulV a b)] →
      x.instr = i o → s.tagAt x o.a.toNat = o.t → s.tagAt x o.b.toNat = o.t →
      (o.t = 0xC → Gives (.vectorExecute s.coreId) s (fun t => Finished s t .vector x ∧ VectorHolds s t x o 0xC (fun e =>
        let v := f (sext 32 (elemOf s x o.a 0xC e)) (sext 32 (elemOf s x o.b 0xC e))
        wrapTo 32 (if o.sat then max (-2 ^ 31) (min (2 ^ 31 - 1) v) else v)))) ∧
      (o.t = 1 → o.rnd.toNat ≤ 4 → Gives (.vectorExecute s.coreId) s (fun t => Finished s t .vector x ∧
        VectorHolds s t x o 1 (fun e => (finish .fp32 o.rnd.toNat (.reg o.sat) (g o.rnd.toNat
          (decodeVal .fp32 (elemOf s x o.a 1 e)) (decodeVal .fp32 (elemOf s x o.b 1 e))) ⟨0, 0⟩).1)))

/-- 09 R188, R196: VLD and VST of single registers whose elements are whole bytes. -/
def VectorMoves : Prop :=
  ∀ (o : OpV) (x : Cmd) (s : State), o.w = 0 → Head s .vector x → s.replaysHere = false →
    let at_ (n e : Nat) : Nat := s.lmAt (x.arg 0 + e * n)
    let good (tag n : Nat) : Prop := memBits tag = 8 * n ∧ elemBits tag = 8 * n ∧
      ∀ e, e < elemsPerReg tag → s.core.live.active o e = true → s.goodAt (at_ n e) n
    (∀ n, x.instr = .vld o → good o.ldTag n → Gives (.vectorExecute s.coreId) s (fun t => Finished s t .vector x ∧
      VectorHolds s t x o o.ldTag (fun e => leNat (memRead s.mem.cells (at_ n e) n)))) ∧
    (∀ n tag, s.memOk → x.instr = .vst o → s.tagAt x o.d.toNat = tag → good tag n →
      let stored (e : Nat) : Prop := e < elemsPerReg tag ∧ s.core.live.active o e = true
      Gives (.vectorExecute s.coreId) s (fun t => Finished s t .vector x ∧ t.core.live.v = s.core.live.v ∧
        (∀ e, stored e → memRead t.mem.cells (at_ n e) n = leBytes n (elemOf s x o.d tag e)) ∧
        ∀ c, (∀ e, stored e → c < at_ n e ∨ at_ n e + n ≤ c) → memGet t.mem.cells c = memGet s.mem.cells c))

/-- 09 R220: MNOT writes the complement of a mask register. -/
def MaskComplement : Prop :=
  ∀ (o : OpV) (x : Cmd) (s : State), o.d ≠ 0 → Head s .vector x → x.instr = .mnot o →
    Gives (.vectorExecute s.coreId) s (fun t => Finished s t .vector x ∧ t.mem = s.mem ∧ t.core.live.v = s.core.live.v ∧
      ∀ r, t.core.live.m.getD r 0 =
        if r = o.d.toNat then ~~~(s.core.live.m.getD o.a.toNat 0) else s.core.live.m.getD r 0)

/-- 10 R231, R241 to R246: what the matrix array's commands leave in planes, tiles and local memory. MMUL is told by
`Arrays.mulRow`, row after row. -/
def MatrixActs : Prop :=
  ∀ (o : OpE) (x : Cmd) (s : State), Head s .matrix x →
    let a := s.core.arrays
    let gives (p : State → Prop) : Prop := Gives (.matrixExecute s.coreId) s (fun t => Finished s t .matrix x ∧ p t)
    let only (t : State) (n : Nat) : Prop := t.core.arrays = a.setTile n (t.core.arrays.tile n) ∧ t.mem = s.mem
    let fresh (y : Tile) : Prop := y.live = true ∧ y.invc = 0 ∧ y.ovfc = 0 ∧ y.count = 0
    let row (r : Nat) : Nat := s.lmAt (x.arg 0 + r * x.arg 1)
    (x.instr = .mswap o → gives (fun t => t.core.arrays = { a with w0 := a.w1, w1 := a.w0 } ∧ t.mem = s.mem)) ∧
    (x.instr = .mzero o → let n := wbits o.w1 31 30
      gives (fun t => only t n ∧ fresh (t.core.arrays.tile n) ∧
        ∀ m k, ((t.core.arrays.tile n).row m).getD k 0 = 0)) ∧
    (x.instr = .mretFree o → let n := wbits o.w1 11 10
      gives (fun t => only t n ∧ (t.core.arrays.tile n).live = false)) ∧
    (s.replaysHere = false →
      (x.instr = .mldw o → bit o.w1.toNat 9 = false → a.wbs = false →
        (∀ k, k < depthKP a.wtag → s.goodAt (row k) (rowBytesW a.wtag)) →
        gives (fun t => t.mem = s.mem ∧ t.core.arrays = { a with w1 := t.core.arrays.w1 } ∧
          t.core.arrays.w1.tag = a.wtag ∧ t.core.arrays.w1.valid = true ∧ t.core.arrays.w1.c = false ∧
          t.core.arrays.w1.s = false ∧ ∀ k, k < depthKP a.wtag →
            t.core.arrays.w1.rows.getD k [] = unpack a.wtag 64 (memRead s.mem.cells (row k) (rowBytesW a.wtag)))) ∧
      (x.instr = .mlda o →
        let tag := wbits o.w1 15 12
        let n := wbits o.w1 11 10
        (∀ m, m < 64 → s.goodAt (row m) (memBytes tag 64)) → gives (fun t => only t n ∧ fresh (t.core.arrays.tile n) ∧
          ∀ m k, m < 64 → k < 64 → ((t.core.arrays.tile n).row m).getD k 0 = (roundTo .fp32 (tagVal tag
            ((unpack tag 64 (memRead s.mem.cells (row m) (memBytes tag 64))).getD k 0)) 0 (.reg false) ⟨0, 0⟩).1)) ∧
      (x.instr = .mmul o → planeOk a.w0 a.atag = true →
        let kp := depthKP a.atag
        let rows := wbits o.w2 23 18 + 1
        let scales (r : Nat) : Nat := s.lmAt (x.arg 2 + r * (kp / 32))
        let codes (r : Nat) : List Nat := unpack a.atag kp (memRead s.mem.cells (row r) (rowBytesA a.atag))
        let exps (r : Nat) : Option (List Nat) :=
          if a.abs_ then some ((memRead s.mem.cells (scales r) (kp / 32)).map BitVec.toNat) else none
        let step (p : Arrays × Word) (r : Nat) : Arrays × Word :=
          let q := p.1.mulRow (wbits o.w2 31 30) (wbits o.w2 29 24 + r) (activations a.atag (exps r) (codes r)) p.2
          (q.1, q.2.st)
        (∀ r, r < rows → s.goodAt (row r) (rowBytesA a.atag) ∧ (a.abs_ = true → s.goodAt (scales r) (kp / 32))) →
        gives (fun t => t.mem = s.mem ∧
          t.core.arrays = ((List.range rows).foldl step (a, s.stream .matrix)).1)) ∧
      (x.instr = .mret o → s.memOk →
        let tag := wbits o.w1 15 12
        let n := wbits o.w1 11 10
        let mode := wbits o.w1 9 7
        let size := memBytes tag 64
        let exc := bit o.w1.toNat 4
        let y := a.tile n
        let held (m : Nat) : List Nat := if y.live then y.row m else List.replicate 64 0
        mode ≤ 4 → size ≤ x.arg 1 → (∀ m, m < 64 → s.goodAt (row m) size) → (exc = true → s.goodAt (row 64) 8) →
        gives (fun t => t.core.arrays = a.setTile n Tile.reset ∧
          (∀ m, m < 64 → memRead t.mem.cells (row m) size = pack tag ((held m).map (fun c =>
            (roundTo ((Fmt.ofTag tag).getD .fp32) (decodeVal .fp32 c) mode (.reg (bit o.w1.toNat 6)) ⟨0, 0⟩).1))) ∧
          (exc = true → memRead t.mem.cells (row 64) 8 = if y.live then y.recordBytes else List.replicate 8 0) ∧
          ∀ c, (∀ m, m < 64 → c < row m ∨ row m + size ≤ c) → (exc = true → c < row 64 ∨ row 64 + 8 ≤ c) →
            memGet t.mem.cells c = memGet s.mem.cells c)))

/-- 11 R275, R276: what PLCLR, PLSWAP and PLLOAD leave in the two planes of the plait array. -/
def PlaitActs : Prop :=
  ∀ (o : OpE) (x : Cmd) (s : State), Head s .plait x →
    let a := s.core.arrays
    let from_ := plF2 o.w2
    let count := plF3 o.w2
    let lane (b : Arrays) (i l : Nat) : Nat := ((b.plane (plP o.w2)).getD i []).getD l 0
    let gives (p : State → Prop) : Prop :=
      Gives (.plaitExecute s.coreId) s (fun t => Finished s t .plait x ∧ t.mem = s.mem ∧ p t)
    let only (t : State) : Prop := t.core.arrays = a.setPlane (plP o.w2) (t.core.arrays.plane (plP o.w2))
    (x.instr = .plswap o → gives (fun t => t.core.arrays = { a with tq0 := a.tq1, tq1 := a.tq0 })) ∧
    (x.instr = .plclr o →
      let cleared (i l : Nat) : Prop := wbits o.w1 11 6 ≤ l ∧ l < wbits o.w1 11 6 + wbits o.w1 5 0 ∧ i ≤ l
      let p := wbits o.w1 17 17 = 1
      gives (fun t =>
        (p → t.core.arrays = { a with tq1 := t.core.arrays.tq1 }) ∧ (¬p → t.core.arrays = { a with tq0 := t.core.arrays.tq0 }) ∧
        ∀ i l, i < 32 → l < 41 →
          let at_ (b : Arrays) : Nat := ((b.plane (plP o.w1)).getD i []).getD l 0
          (cleared i l → at_ t.core.arrays = 0) ∧ (¬cleared i l → at_ t.core.arrays = at_ a))) ∧
    (x.instr = .plload o → s.replaysHere = false → from_ + count ≤ 41 →
      let tag := plF o.w2
      let w := plWidth tag
      let place (i l : Nat) : Nat := s.lmAt (x.arg 0 + i * x.arg 1 + (l - from_) * w)
      let loaded (i l : Nat) : Prop := i ≤ plF1 o.w2 ∧ from_ ≤ l ∧ l < from_ + count ∧ i ≤ l
      memBits tag = 8 * w → (∀ i l, loaded i l → s.goodAt (place i l) w) → gives (fun t => only t ∧
        ∀ i l, i < 32 → l < 41 →
          (loaded i l → lane t.core.arrays i l =
            let c := widen tag (leNat (memRead s.mem.cells (place i l) w))
            if f32Nan c then nan32 else c) ∧
          (¬loaded i l → lane t.core.arrays i l = lane a i l)))

/-- 13 R324, R334, R337: CPY and CPFILL in local memory, whose bytes R327 defines. -/
def CopyActs : Prop :=
  ∀ (i : Nat) (m : OpE) (x : Cmd) (s : State), s.core.preemptReady = false → s.requestsFull = false →
    s.core.cq[i]? = some x →
    x.ready = true → s.awaiting x = false → x.fail = none →
    (∀ l, s.core.cq = x :: l → x.started = false → x.broken = false → s.trust.debugOpen = false → x.instr = .cpy m →
      Gives (.copyStart s.coreId) s (fun t =>
        ∃ y l', t.core.cq = y :: l' ∧ y.started = true ∧ y.prod = x.prod ∧ y.instr = x.instr ∧ t.mem = s.mem)) ∧
    (x.started = true → s.cmd? .copy x.prod = some x →
      let gives (p : State → Prop) : Prop := Gives (.copyComplete s.coreId i) s (fun t => Finished s t .copy x ∧ p t)
      let inside (k col : Nat) : Prop := k < x.rows ∧ col < x.len
      let dst (k : Nat) : Nat := x.dst.base + x.x2 + k * x.y2
      let put (t : State) (f : Nat → Nat → Byte) : Prop :=
        (∀ k col, inside k col → memGet t.mem.cells (dst k + col) = f k col) ∧
        ∀ c, (∀ k col, inside k col → c ≠ dst k + col) → memGet t.mem.cells c = memGet s.mem.cells c
      (x.isRun = false → (copyUnits x).1 ≤ x.cursor → (∀ g o, x.instr ≠ .tblbase g o) → gives (fun t => t.mem = s.mem)) ∧
      (x.cursor = 0 → s.memOk → x.dst.kind = 0 → (∀ k, k < x.rows → s.goodAt (dst k) x.len) →
        (x.instr = .cpy m → x.src.kind = 0 → x.src.local_ = true → x.dst.local_ = true →
          let src (k : Nat) : Nat := x.src.base + x.x1 + k * x.y1
          (∀ k, k < x.rows → s.goodAt (src k) x.len) → (∀ k col, inside k col → x.undefAt k col = false) →
          gives (fun t => put t (fun k col => memGet s.mem.cells (src k + col)))) ∧
        (x.instr = .cpfill m → (∀ k col, inside k col → rowHits (dst 0) x.y2 x.rows x.len (dst k + col) ≤ 1) →
          gives (fun t => put t (fun _ col =>
            BitVec.ofNat 8 (x.c8 / 256 ^ (col % 2 ^ wbits m.w2 19 16)))))))

/-- 09 R183 to R220, 10 R231 to R246, 11 R275, R276, 13 R324 to R337: an engine carries the command at its turn to its
end, with the results its rule gives. Which entry acts is log 76; the bytes of one command are written in the order of
log 34. -/
def Obligations.EngineActs : Prop :=
  VectorArithmetic ∧ VectorMoves ∧ MaskComplement ∧ MatrixActs ∧ PlaitActs ∧ CopyActs
end

