-- ==== Sys2Proof/Laws/Encoding.lean ====
section
/-! SUPPORT. The fields of a word put together by the encoder, read back by the decoder. -/

namespace Sys2Proof

/-- A field of an appended word that lies within its low part. -/
theorem extract_low {m n : Nat} (x : BitVec m) (y : BitVec n) (i w : Nat) (h : i + w ≤ n) :
    (x ++ y).extractLsb' i w = y.extractLsb' i w := by
  apply BitVec.eq_of_getLsbD_eq
  intro j hj
  simp only [BitVec.getLsbD_extractLsb', BitVec.getLsbD_append, hj, decide_true, Bool.true_and]
  rw [if_pos (by omega)]

/-- A field of an appended word that lies within its high part. -/
theorem extract_high {m n : Nat} (x : BitVec m) (y : BitVec n) (i w : Nat) (h : n ≤ i) :
    (x ++ y).extractLsb' i w = x.extractLsb' (i - n) w := by
  apply BitVec.eq_of_getLsbD_eq
  intro j hj
  simp only [BitVec.getLsbD_extractLsb', BitVec.getLsbD_append, hj, decide_true, Bool.true_and]
  rw [if_neg (by omega)]
  congr 1
  omega

/-- The whole of a word. -/
theorem extract_all {n : Nat} (x : BitVec n) (i : Nat) (h : i = 0) : x.extractLsb' i n = x := by
  subst h
  apply BitVec.eq_of_getLsbD_eq
  intro j hj
  simp [hj]

/-! ## Format A -/

@[simp] theorem major_a (maj : BitVec 6) (d : BitVec 6) (a : BitVec 6) (b : BitVec 6) (fn : BitVec 8) :
    major (maj ++ d ++ a ++ b ++ fn) = maj := by
  change @BitVec.extractLsb' (6 + 6 + 6 + 6 + 8) 26 6 (maj ++ d ++ a ++ b ++ fn) = maj
  simp (disch := omega) only [extract_high, extract_low, extract_all]

@[simp] theorem d_a (maj : BitVec 6) (d : BitVec 6) (a : BitVec 6) (b : BitVec 6) (fn : BitVec 8) :
    @BitVec.extractLsb' 32 20 6 (maj ++ d ++ a ++ b ++ fn) = d := by
  change @BitVec.extractLsb' (6 + 6 + 6 + 6 + 8) 20 6 (maj ++ d ++ a ++ b ++ fn) = d
  simp (disch := omega) only [extract_high, extract_low, extract_all]

@[simp] theorem a_a (maj : BitVec 6) (d : BitVec 6) (a : BitVec 6) (b : BitVec 6) (fn : BitVec 8) :
    @BitVec.extractLsb' 32 14 6 (maj ++ d ++ a ++ b ++ fn) = a := by
  change @BitVec.extractLsb' (6 + 6 + 6 + 6 + 8) 14 6 (maj ++ d ++ a ++ b ++ fn) = a
  simp (disch := omega) only [extract_high, extract_low, extract_all]

@[simp] theorem b_a (maj : BitVec 6) (d : BitVec 6) (a : BitVec 6) (b : BitVec 6) (fn : BitVec 8) :
    @BitVec.extractLsb' 32 8 6 (maj ++ d ++ a ++ b ++ fn) = b := by
  change @BitVec.extractLsb' (6 + 6 + 6 + 6 + 8) 8 6 (maj ++ d ++ a ++ b ++ fn) = b
  simp (disch := omega) only [extract_high, extract_low, extract_all]

@[simp] theorem fn_a (maj : BitVec 6) (d : BitVec 6) (a : BitVec 6) (b : BitVec 6) (fn : BitVec 8) :
    @BitVec.extractLsb' 32 0 8 (maj ++ d ++ a ++ b ++ fn) = fn := by
  change @BitVec.extractLsb' (6 + 6 + 6 + 6 + 8) 0 8 (maj ++ d ++ a ++ b ++ fn) = fn
  simp (disch := omega) only [extract_high, extract_low, extract_all]

/-! ## Format I -/

@[simp] theorem major_i (maj : BitVec 6) (d : BitVec 6) (a : BitVec 6) (n : BitVec 14) :
    major (maj ++ d ++ a ++ n) = maj := by
  change @BitVec.extractLsb' (6 + 6 + 6 + 14) 26 6 (maj ++ d ++ a ++ n) = maj
  simp (disch := omega) only [extract_high, extract_low, extract_all]

@[simp] theorem d_i (maj : BitVec 6) (d : BitVec 6) (a : BitVec 6) (n : BitVec 14) :
    @BitVec.extractLsb' 32 20 6 (maj ++ d ++ a ++ n) = d := by
  change @BitVec.extractLsb' (6 + 6 + 6 + 14) 20 6 (maj ++ d ++ a ++ n) = d
  simp (disch := omega) only [extract_high, extract_low, extract_all]

@[simp] theorem a_i (maj : BitVec 6) (d : BitVec 6) (a : BitVec 6) (n : BitVec 14) :
    @BitVec.extractLsb' 32 14 6 (maj ++ d ++ a ++ n) = a := by
  change @BitVec.extractLsb' (6 + 6 + 6 + 14) 14 6 (maj ++ d ++ a ++ n) = a
  simp (disch := omega) only [extract_high, extract_low, extract_all]

@[simp] theorem n_i (maj : BitVec 6) (d : BitVec 6) (a : BitVec 6) (n : BitVec 14) :
    @BitVec.extractLsb' 32 0 14 (maj ++ d ++ a ++ n) = n := by
  change @BitVec.extractLsb' (6 + 6 + 6 + 14) 0 14 (maj ++ d ++ a ++ n) = n
  simp (disch := omega) only [extract_high, extract_low, extract_all]

/-! ## Format I with a selector -/

@[simp] theorem major_j (maj : BitVec 6) (d : BitVec 6) (a : BitVec 6) (k : BitVec 2) (n : BitVec 12) :
    major (maj ++ d ++ a ++ k ++ n) = maj := by
  change @BitVec.extractLsb' (6 + 6 + 6 + 2 + 12) 26 6 (maj ++ d ++ a ++ k ++ n) = maj
  simp (disch := omega) only [extract_high, extract_low, extract_all]

@[simp] theorem d_j (maj : BitVec 6) (d : BitVec 6) (a : BitVec 6) (k : BitVec 2) (n : BitVec 12) :
    @BitVec.extractLsb' 32 20 6 (maj ++ d ++ a ++ k ++ n) = d := by
  change @BitVec.extractLsb' (6 + 6 + 6 + 2 + 12) 20 6 (maj ++ d ++ a ++ k ++ n) = d
  simp (disch := omega) only [extract_high, extract_low, extract_all]

@[simp] theorem a_j (maj : BitVec 6) (d : BitVec 6) (a : BitVec 6) (k : BitVec 2) (n : BitVec 12) :
    @BitVec.extractLsb' 32 14 6 (maj ++ d ++ a ++ k ++ n) = a := by
  change @BitVec.extractLsb' (6 + 6 + 6 + 2 + 12) 14 6 (maj ++ d ++ a ++ k ++ n) = a
  simp (disch := omega) only [extract_high, extract_low, extract_all]

@[simp] theorem k_j (maj : BitVec 6) (d : BitVec 6) (a : BitVec 6) (k : BitVec 2) (n : BitVec 12) :
    @BitVec.extractLsb' 32 12 2 (maj ++ d ++ a ++ k ++ n) = k := by
  change @BitVec.extractLsb' (6 + 6 + 6 + 2 + 12) 12 2 (maj ++ d ++ a ++ k ++ n) = k
  simp (disch := omega) only [extract_high, extract_low, extract_all]

@[simp] theorem n_j (maj : BitVec 6) (d : BitVec 6) (a : BitVec 6) (k : BitVec 2) (n : BitVec 12) :
    @BitVec.extractLsb' 32 0 12 (maj ++ d ++ a ++ k ++ n) = n := by
  change @BitVec.extractLsb' (6 + 6 + 6 + 2 + 12) 0 12 (maj ++ d ++ a ++ k ++ n) = n
  simp (disch := omega) only [extract_high, extract_low, extract_all]

/-! ## Format B, branches -/

@[simp] theorem major_br (maj : BitVec 6) (c : BitVec 4) (a : BitVec 6) (x : BitVec 16) :
    major (maj ++ c ++ a ++ x) = maj := by
  change @BitVec.extractLsb' (6 + 4 + 6 + 16) 26 6 (maj ++ c ++ a ++ x) = maj
  simp (disch := omega) only [extract_high, extract_low, extract_all]

@[simp] theorem c_br (maj : BitVec 6) (c : BitVec 4) (a : BitVec 6) (x : BitVec 16) :
    @BitVec.extractLsb' 32 22 4 (maj ++ c ++ a ++ x) = c := by
  change @BitVec.extractLsb' (6 + 4 + 6 + 16) 22 4 (maj ++ c ++ a ++ x) = c
  simp (disch := omega) only [extract_high, extract_low, extract_all]

@[simp] theorem a_br (maj : BitVec 6) (c : BitVec 4) (a : BitVec 6) (x : BitVec 16) :
    @BitVec.extractLsb' 32 16 6 (maj ++ c ++ a ++ x) = a := by
  change @BitVec.extractLsb' (6 + 4 + 6 + 16) 16 6 (maj ++ c ++ a ++ x) = a
  simp (disch := omega) only [extract_high, extract_low, extract_all]

@[simp] theorem x_br (maj : BitVec 6) (c : BitVec 4) (a : BitVec 6) (x : BitVec 16) :
    @BitVec.extractLsb' 32 0 16 (maj ++ c ++ a ++ x) = x := by
  change @BitVec.extractLsb' (6 + 4 + 6 + 16) 0 16 (maj ++ c ++ a ++ x) = x
  simp (disch := omega) only [extract_high, extract_low, extract_all]

/-! ## Format B, loops -/

@[simp] theorem major_lp (maj : BitVec 6) (f : BitVec 2) (n : BitVec 2) (a : BitVec 6) (x : BitVec 16) :
    major (maj ++ f ++ n ++ a ++ x) = maj := by
  change @BitVec.extractLsb' (6 + 2 + 2 + 6 + 16) 26 6 (maj ++ f ++ n ++ a ++ x) = maj
  simp (disch := omega) only [extract_high, extract_low, extract_all]

@[simp] theorem f_lp (maj : BitVec 6) (f : BitVec 2) (n : BitVec 2) (a : BitVec 6) (x : BitVec 16) :
    @BitVec.extractLsb' 32 24 2 (maj ++ f ++ n ++ a ++ x) = f := by
  change @BitVec.extractLsb' (6 + 2 + 2 + 6 + 16) 24 2 (maj ++ f ++ n ++ a ++ x) = f
  simp (disch := omega) only [extract_high, extract_low, extract_all]

@[simp] theorem n_lp (maj : BitVec 6) (f : BitVec 2) (n : BitVec 2) (a : BitVec 6) (x : BitVec 16) :
    @BitVec.extractLsb' 32 22 2 (maj ++ f ++ n ++ a ++ x) = n := by
  change @BitVec.extractLsb' (6 + 2 + 2 + 6 + 16) 22 2 (maj ++ f ++ n ++ a ++ x) = n
  simp (disch := omega) only [extract_high, extract_low, extract_all]

@[simp] theorem a_lp (maj : BitVec 6) (f : BitVec 2) (n : BitVec 2) (a : BitVec 6) (x : BitVec 16) :
    @BitVec.extractLsb' 32 16 6 (maj ++ f ++ n ++ a ++ x) = a := by
  change @BitVec.extractLsb' (6 + 2 + 2 + 6 + 16) 16 6 (maj ++ f ++ n ++ a ++ x) = a
  simp (disch := omega) only [extract_high, extract_low, extract_all]

@[simp] theorem x_lp (maj : BitVec 6) (f : BitVec 2) (n : BitVec 2) (a : BitVec 6) (x : BitVec 16) :
    @BitVec.extractLsb' 32 0 16 (maj ++ f ++ n ++ a ++ x) = x := by
  change @BitVec.extractLsb' (6 + 2 + 2 + 6 + 16) 0 16 (maj ++ f ++ n ++ a ++ x) = x
  simp (disch := omega) only [extract_high, extract_low, extract_all]

/-! ## Format M -/

@[simp] theorem major_m (maj : BitVec 6) (t : BitVec 6) (h : BitVec 4) (x : BitVec 6) (sz : BitVec 2) (od : BitVec 2) (sc : BitVec 3) (sl : BitVec 3) :
    major (maj ++ t ++ h ++ x ++ sz ++ od ++ sc ++ sl) = maj := by
  change @BitVec.extractLsb' (6 + 6 + 4 + 6 + 2 + 2 + 3 + 3) 26 6 (maj ++ t ++ h ++ x ++ sz ++ od ++ sc ++ sl) = maj
  simp (disch := omega) only [extract_high, extract_low, extract_all]

@[simp] theorem t_m (maj : BitVec 6) (t : BitVec 6) (h : BitVec 4) (x : BitVec 6) (sz : BitVec 2) (od : BitVec 2) (sc : BitVec 3) (sl : BitVec 3) :
    @BitVec.extractLsb' 32 20 6 (maj ++ t ++ h ++ x ++ sz ++ od ++ sc ++ sl) = t := by
  change @BitVec.extractLsb' (6 + 6 + 4 + 6 + 2 + 2 + 3 + 3) 20 6 (maj ++ t ++ h ++ x ++ sz ++ od ++ sc ++ sl) = t
  simp (disch := omega) only [extract_high, extract_low, extract_all]

@[simp] theorem h_m (maj : BitVec 6) (t : BitVec 6) (h : BitVec 4) (x : BitVec 6) (sz : BitVec 2) (od : BitVec 2) (sc : BitVec 3) (sl : BitVec 3) :
    @BitVec.extractLsb' 32 16 4 (maj ++ t ++ h ++ x ++ sz ++ od ++ sc ++ sl) = h := by
  change @BitVec.extractLsb' (6 + 6 + 4 + 6 + 2 + 2 + 3 + 3) 16 4 (maj ++ t ++ h ++ x ++ sz ++ od ++ sc ++ sl) = h
  simp (disch := omega) only [extract_high, extract_low, extract_all]

@[simp] theorem x_m (maj : BitVec 6) (t : BitVec 6) (h : BitVec 4) (x : BitVec 6) (sz : BitVec 2) (od : BitVec 2) (sc : BitVec 3) (sl : BitVec 3) :
    @BitVec.extractLsb' 32 10 6 (maj ++ t ++ h ++ x ++ sz ++ od ++ sc ++ sl) = x := by
  change @BitVec.extractLsb' (6 + 6 + 4 + 6 + 2 + 2 + 3 + 3) 10 6 (maj ++ t ++ h ++ x ++ sz ++ od ++ sc ++ sl) = x
  simp (disch := omega) only [extract_high, extract_low, extract_all]

@[simp] theorem sz_m (maj : BitVec 6) (t : BitVec 6) (h : BitVec 4) (x : BitVec 6) (sz : BitVec 2) (od : BitVec 2) (sc : BitVec 3) (sl : BitVec 3) :
    @BitVec.extractLsb' 32 8 2 (maj ++ t ++ h ++ x ++ sz ++ od ++ sc ++ sl) = sz := by
  change @BitVec.extractLsb' (6 + 6 + 4 + 6 + 2 + 2 + 3 + 3) 8 2 (maj ++ t ++ h ++ x ++ sz ++ od ++ sc ++ sl) = sz
  simp (disch := omega) only [extract_high, extract_low, extract_all]

@[simp] theorem od_m (maj : BitVec 6) (t : BitVec 6) (h : BitVec 4) (x : BitVec 6) (sz : BitVec 2) (od : BitVec 2) (sc : BitVec 3) (sl : BitVec 3) :
    @BitVec.extractLsb' 32 6 2 (maj ++ t ++ h ++ x ++ sz ++ od ++ sc ++ sl) = od := by
  change @BitVec.extractLsb' (6 + 6 + 4 + 6 + 2 + 2 + 3 + 3) 6 2 (maj ++ t ++ h ++ x ++ sz ++ od ++ sc ++ sl) = od
  simp (disch := omega) only [extract_high, extract_low, extract_all]

@[simp] theorem sc_m (maj : BitVec 6) (t : BitVec 6) (h : BitVec 4) (x : BitVec 6) (sz : BitVec 2) (od : BitVec 2) (sc : BitVec 3) (sl : BitVec 3) :
    @BitVec.extractLsb' 32 3 3 (maj ++ t ++ h ++ x ++ sz ++ od ++ sc ++ sl) = sc := by
  change @BitVec.extractLsb' (6 + 6 + 4 + 6 + 2 + 2 + 3 + 3) 3 3 (maj ++ t ++ h ++ x ++ sz ++ od ++ sc ++ sl) = sc
  simp (disch := omega) only [extract_high, extract_low, extract_all]

@[simp] theorem sl_m (maj : BitVec 6) (t : BitVec 6) (h : BitVec 4) (x : BitVec 6) (sz : BitVec 2) (od : BitVec 2) (sc : BitVec 3) (sl : BitVec 3) :
    @BitVec.extractLsb' 32 0 3 (maj ++ t ++ h ++ x ++ sz ++ od ++ sc ++ sl) = sl := by
  change @BitVec.extractLsb' (6 + 6 + 4 + 6 + 2 + 2 + 3 + 3) 0 3 (maj ++ t ++ h ++ x ++ sz ++ od ++ sc ++ sl) = sl
  simp (disch := omega) only [extract_high, extract_low, extract_all]

/-! ## The operation word of an atomic -/

@[simp] theorem op_p (op : BitVec 5) (v : BitVec 6) (w : BitVec 6) (z : BitVec 15) :
    @BitVec.extractLsb' 32 27 5 (op ++ v ++ w ++ z) = op := by
  change @BitVec.extractLsb' (5 + 6 + 6 + 15) 27 5 (op ++ v ++ w ++ z) = op
  simp (disch := omega) only [extract_high, extract_low, extract_all]

@[simp] theorem v_p (op : BitVec 5) (v : BitVec 6) (w : BitVec 6) (z : BitVec 15) :
    @BitVec.extractLsb' 32 21 6 (op ++ v ++ w ++ z) = v := by
  change @BitVec.extractLsb' (5 + 6 + 6 + 15) 21 6 (op ++ v ++ w ++ z) = v
  simp (disch := omega) only [extract_high, extract_low, extract_all]

@[simp] theorem w_p (op : BitVec 5) (v : BitVec 6) (w : BitVec 6) (z : BitVec 15) :
    @BitVec.extractLsb' 32 15 6 (op ++ v ++ w ++ z) = w := by
  change @BitVec.extractLsb' (5 + 6 + 6 + 15) 15 6 (op ++ v ++ w ++ z) = w
  simp (disch := omega) only [extract_high, extract_low, extract_all]

@[simp] theorem z_p (op : BitVec 5) (v : BitVec 6) (w : BitVec 6) (z : BitVec 15) :
    @BitVec.extractLsb' 32 0 15 (op ++ v ++ w ++ z) = z := by
  change @BitVec.extractLsb' (5 + 6 + 6 + 15) 0 15 (op ++ v ++ w ++ z) = z
  simp (disch := omega) only [extract_high, extract_low, extract_all]

/-! ## Format V, the first word -/

@[simp] theorem major_v (maj : BitVec 6) (d : BitVec 6) (a : BitVec 6) (b : BitVec 6) (w : BitVec 2) (fn : BitVec 6) :
    major (maj ++ d ++ a ++ b ++ w ++ fn) = maj := by
  change @BitVec.extractLsb' (6 + 6 + 6 + 6 + 2 + 6) 26 6 (maj ++ d ++ a ++ b ++ w ++ fn) = maj
  simp (disch := omega) only [extract_high, extract_low, extract_all]

@[simp] theorem d_v (maj : BitVec 6) (d : BitVec 6) (a : BitVec 6) (b : BitVec 6) (w : BitVec 2) (fn : BitVec 6) :
    @BitVec.extractLsb' 32 20 6 (maj ++ d ++ a ++ b ++ w ++ fn) = d := by
  change @BitVec.extractLsb' (6 + 6 + 6 + 6 + 2 + 6) 20 6 (maj ++ d ++ a ++ b ++ w ++ fn) = d
  simp (disch := omega) only [extract_high, extract_low, extract_all]

@[simp] theorem a_v (maj : BitVec 6) (d : BitVec 6) (a : BitVec 6) (b : BitVec 6) (w : BitVec 2) (fn : BitVec 6) :
    @BitVec.extractLsb' 32 14 6 (maj ++ d ++ a ++ b ++ w ++ fn) = a := by
  change @BitVec.extractLsb' (6 + 6 + 6 + 6 + 2 + 6) 14 6 (maj ++ d ++ a ++ b ++ w ++ fn) = a
  simp (disch := omega) only [extract_high, extract_low, extract_all]

@[simp] theorem b_v (maj : BitVec 6) (d : BitVec 6) (a : BitVec 6) (b : BitVec 6) (w : BitVec 2) (fn : BitVec 6) :
    @BitVec.extractLsb' 32 8 6 (maj ++ d ++ a ++ b ++ w ++ fn) = b := by
  change @BitVec.extractLsb' (6 + 6 + 6 + 6 + 2 + 6) 8 6 (maj ++ d ++ a ++ b ++ w ++ fn) = b
  simp (disch := omega) only [extract_high, extract_low, extract_all]

@[simp] theorem w_v (maj : BitVec 6) (d : BitVec 6) (a : BitVec 6) (b : BitVec 6) (w : BitVec 2) (fn : BitVec 6) :
    @BitVec.extractLsb' 32 6 2 (maj ++ d ++ a ++ b ++ w ++ fn) = w := by
  change @BitVec.extractLsb' (6 + 6 + 6 + 6 + 2 + 6) 6 2 (maj ++ d ++ a ++ b ++ w ++ fn) = w
  simp (disch := omega) only [extract_high, extract_low, extract_all]

@[simp] theorem fn_v (maj : BitVec 6) (d : BitVec 6) (a : BitVec 6) (b : BitVec 6) (w : BitVec 2) (fn : BitVec 6) :
    @BitVec.extractLsb' 32 0 6 (maj ++ d ++ a ++ b ++ w ++ fn) = fn := by
  change @BitVec.extractLsb' (6 + 6 + 6 + 6 + 2 + 6) 0 6 (maj ++ d ++ a ++ b ++ w ++ fn) = fn
  simp (disch := omega) only [extract_high, extract_low, extract_all]

/-! ## Format V, the second word -/

@[simp] theorem sa_x (sa : BitVec 4) (sb : BitVec 4) (t : BitVec 4) (r : BitVec 3) (cl : BitVec 1) (mk : BitVec 3) (mi : BitVec 1) (c : BitVec 6) (z : BitVec 6) :
    @BitVec.extractLsb' 32 28 4 (sa ++ sb ++ t ++ r ++ cl ++ mk ++ mi ++ c ++ z) = sa := by
  change @BitVec.extractLsb' (4 + 4 + 4 + 3 + 1 + 3 + 1 + 6 + 6) 28 4 (sa ++ sb ++ t ++ r ++ cl ++ mk ++ mi ++ c ++ z) = sa
  simp (disch := omega) only [extract_high, extract_low, extract_all]

@[simp] theorem sb_x (sa : BitVec 4) (sb : BitVec 4) (t : BitVec 4) (r : BitVec 3) (cl : BitVec 1) (mk : BitVec 3) (mi : BitVec 1) (c : BitVec 6) (z : BitVec 6) :
    @BitVec.extractLsb' 32 24 4 (sa ++ sb ++ t ++ r ++ cl ++ mk ++ mi ++ c ++ z) = sb := by
  change @BitVec.extractLsb' (4 + 4 + 4 + 3 + 1 + 3 + 1 + 6 + 6) 24 4 (sa ++ sb ++ t ++ r ++ cl ++ mk ++ mi ++ c ++ z) = sb
  simp (disch := omega) only [extract_high, extract_low, extract_all]

@[simp] theorem t_x (sa : BitVec 4) (sb : BitVec 4) (t : BitVec 4) (r : BitVec 3) (cl : BitVec 1) (mk : BitVec 3) (mi : BitVec 1) (c : BitVec 6) (z : BitVec 6) :
    @BitVec.extractLsb' 32 20 4 (sa ++ sb ++ t ++ r ++ cl ++ mk ++ mi ++ c ++ z) = t := by
  change @BitVec.extractLsb' (4 + 4 + 4 + 3 + 1 + 3 + 1 + 6 + 6) 20 4 (sa ++ sb ++ t ++ r ++ cl ++ mk ++ mi ++ c ++ z) = t
  simp (disch := omega) only [extract_high, extract_low, extract_all]

@[simp] theorem r_x (sa : BitVec 4) (sb : BitVec 4) (t : BitVec 4) (r : BitVec 3) (cl : BitVec 1) (mk : BitVec 3) (mi : BitVec 1) (c : BitVec 6) (z : BitVec 6) :
    @BitVec.extractLsb' 32 17 3 (sa ++ sb ++ t ++ r ++ cl ++ mk ++ mi ++ c ++ z) = r := by
  change @BitVec.extractLsb' (4 + 4 + 4 + 3 + 1 + 3 + 1 + 6 + 6) 17 3 (sa ++ sb ++ t ++ r ++ cl ++ mk ++ mi ++ c ++ z) = r
  simp (disch := omega) only [extract_high, extract_low, extract_all]

@[simp] theorem cl_x (sa : BitVec 4) (sb : BitVec 4) (t : BitVec 4) (r : BitVec 3) (cl : BitVec 1) (mk : BitVec 3) (mi : BitVec 1) (c : BitVec 6) (z : BitVec 6) :
    @BitVec.extractLsb' 32 16 1 (sa ++ sb ++ t ++ r ++ cl ++ mk ++ mi ++ c ++ z) = cl := by
  change @BitVec.extractLsb' (4 + 4 + 4 + 3 + 1 + 3 + 1 + 6 + 6) 16 1 (sa ++ sb ++ t ++ r ++ cl ++ mk ++ mi ++ c ++ z) = cl
  simp (disch := omega) only [extract_high, extract_low, extract_all]

@[simp] theorem mk_x (sa : BitVec 4) (sb : BitVec 4) (t : BitVec 4) (r : BitVec 3) (cl : BitVec 1) (mk : BitVec 3) (mi : BitVec 1) (c : BitVec 6) (z : BitVec 6) :
    @BitVec.extractLsb' 32 13 3 (sa ++ sb ++ t ++ r ++ cl ++ mk ++ mi ++ c ++ z) = mk := by
  change @BitVec.extractLsb' (4 + 4 + 4 + 3 + 1 + 3 + 1 + 6 + 6) 13 3 (sa ++ sb ++ t ++ r ++ cl ++ mk ++ mi ++ c ++ z) = mk
  simp (disch := omega) only [extract_high, extract_low, extract_all]

@[simp] theorem mi_x (sa : BitVec 4) (sb : BitVec 4) (t : BitVec 4) (r : BitVec 3) (cl : BitVec 1) (mk : BitVec 3) (mi : BitVec 1) (c : BitVec 6) (z : BitVec 6) :
    @BitVec.extractLsb' 32 12 1 (sa ++ sb ++ t ++ r ++ cl ++ mk ++ mi ++ c ++ z) = mi := by
  change @BitVec.extractLsb' (4 + 4 + 4 + 3 + 1 + 3 + 1 + 6 + 6) 12 1 (sa ++ sb ++ t ++ r ++ cl ++ mk ++ mi ++ c ++ z) = mi
  simp (disch := omega) only [extract_high, extract_low, extract_all]

@[simp] theorem c_x (sa : BitVec 4) (sb : BitVec 4) (t : BitVec 4) (r : BitVec 3) (cl : BitVec 1) (mk : BitVec 3) (mi : BitVec 1) (c : BitVec 6) (z : BitVec 6) :
    @BitVec.extractLsb' 32 6 6 (sa ++ sb ++ t ++ r ++ cl ++ mk ++ mi ++ c ++ z) = c := by
  change @BitVec.extractLsb' (4 + 4 + 4 + 3 + 1 + 3 + 1 + 6 + 6) 6 6 (sa ++ sb ++ t ++ r ++ cl ++ mk ++ mi ++ c ++ z) = c
  simp (disch := omega) only [extract_high, extract_low, extract_all]

@[simp] theorem z_x (sa : BitVec 4) (sb : BitVec 4) (t : BitVec 4) (r : BitVec 3) (cl : BitVec 1) (mk : BitVec 3) (mi : BitVec 1) (c : BitVec 6) (z : BitVec 6) :
    @BitVec.extractLsb' 32 0 6 (sa ++ sb ++ t ++ r ++ cl ++ mk ++ mi ++ c ++ z) = z := by
  change @BitVec.extractLsb' (4 + 4 + 4 + 3 + 1 + 3 + 1 + 6 + 6) 0 6 (sa ++ sb ++ t ++ r ++ cl ++ mk ++ mi ++ c ++ z) = z
  simp (disch := omega) only [extract_high, extract_low, extract_all]

/-! ## Format E, the header -/

@[simp] theorem major_e (maj : BitVec 6) (op : BitVec 6) (kd : BitVec 5) (ka : BitVec 5) (kb : BitVec 5) (kc : BitVec 5) :
    major (maj ++ op ++ kd ++ ka ++ kb ++ kc) = maj := by
  change @BitVec.extractLsb' (6 + 6 + 5 + 5 + 5 + 5) 26 6 (maj ++ op ++ kd ++ ka ++ kb ++ kc) = maj
  simp (disch := omega) only [extract_high, extract_low, extract_all]

@[simp] theorem op_e (maj : BitVec 6) (op : BitVec 6) (kd : BitVec 5) (ka : BitVec 5) (kb : BitVec 5) (kc : BitVec 5) :
    @BitVec.extractLsb' 32 20 6 (maj ++ op ++ kd ++ ka ++ kb ++ kc) = op := by
  change @BitVec.extractLsb' (6 + 6 + 5 + 5 + 5 + 5) 20 6 (maj ++ op ++ kd ++ ka ++ kb ++ kc) = op
  simp (disch := omega) only [extract_high, extract_low, extract_all]

@[simp] theorem kd_e (maj : BitVec 6) (op : BitVec 6) (kd : BitVec 5) (ka : BitVec 5) (kb : BitVec 5) (kc : BitVec 5) :
    @BitVec.extractLsb' 32 15 5 (maj ++ op ++ kd ++ ka ++ kb ++ kc) = kd := by
  change @BitVec.extractLsb' (6 + 6 + 5 + 5 + 5 + 5) 15 5 (maj ++ op ++ kd ++ ka ++ kb ++ kc) = kd
  simp (disch := omega) only [extract_high, extract_low, extract_all]

@[simp] theorem ka_e (maj : BitVec 6) (op : BitVec 6) (kd : BitVec 5) (ka : BitVec 5) (kb : BitVec 5) (kc : BitVec 5) :
    @BitVec.extractLsb' 32 10 5 (maj ++ op ++ kd ++ ka ++ kb ++ kc) = ka := by
  change @BitVec.extractLsb' (6 + 6 + 5 + 5 + 5 + 5) 10 5 (maj ++ op ++ kd ++ ka ++ kb ++ kc) = ka
  simp (disch := omega) only [extract_high, extract_low, extract_all]

@[simp] theorem kb_e (maj : BitVec 6) (op : BitVec 6) (kd : BitVec 5) (ka : BitVec 5) (kb : BitVec 5) (kc : BitVec 5) :
    @BitVec.extractLsb' 32 5 5 (maj ++ op ++ kd ++ ka ++ kb ++ kc) = kb := by
  change @BitVec.extractLsb' (6 + 6 + 5 + 5 + 5 + 5) 5 5 (maj ++ op ++ kd ++ ka ++ kb ++ kc) = kb
  simp (disch := omega) only [extract_high, extract_low, extract_all]

@[simp] theorem kc_e (maj : BitVec 6) (op : BitVec 6) (kd : BitVec 5) (ka : BitVec 5) (kb : BitVec 5) (kc : BitVec 5) :
    @BitVec.extractLsb' 32 0 5 (maj ++ op ++ kd ++ ka ++ kb ++ kc) = kc := by
  change @BitVec.extractLsb' (6 + 6 + 5 + 5 + 5 + 5) 0 5 (maj ++ op ++ kd ++ ka ++ kb ++ kc) = kc
  simp (disch := omega) only [extract_high, extract_low, extract_all]

/-! ## Reading what was put together -/

/-- No check fails: the decoder goes on. -/
theorem firstFailure_none (k : Checks) (h : k.all = true) : firstFailure k = none := by
  simp only [Checks.all, Bool.and_eq_true] at h
  simp [firstFailure, h]

/-- A literal read back. -/
theorem take_litWords (c : BitVec 6) (l : Word) (h : litCanon c l = true) :
    takeLit c (litWords c l) = some (l, (litWords c l).length) := by
  by_cases h62 : c = 62#6
  · subst h62
    simp [litCanon] at h
    simp [takeLit, litWords]
    apply BitVec.eq_of_toNat_eq
    simp; omega
  · by_cases h63 : c = 63#6
    · subst h63
      simp [takeLit, litWords]
      apply BitVec.eq_of_getLsbD_eq
      intro i hi
      change ((BitVec.extractLsb' 32 32 l ++ BitVec.extractLsb' 0 32 l : BitVec (32 + 32)).getLsbD i) = _
      simp only [BitVec.getLsbD_append, BitVec.getLsbD_extractLsb']
      by_cases hi2 : i < 32
      · simp [hi2]
      · simp [hi2]; rw [show 32 + (i - 32) = i by omega, decide_eq_true (by omega : i - 32 < 32), Bool.true_and]
    · simp [litCanon, h62, h63] at h
      simp [takeLit, litWords, h62, h63, h]

/-- A format A instruction with a literal-capable field read back. -/
theorem readA_mk (maj : BitVec 6) (fn : BitVec 8) (o : OpA) (i j : Instr)
  (h0 : mkInstrA maj.toNat fn ⟨o.d, o.a, o.b, 0⟩ = some i)
  (h1 : litA i = true) (h2 : mkInstrA maj.toNat fn o = some j) (h3 : litCanon o.b o.lit = true) :
  readA (maj ++ o.d ++ o.a ++ o.b ++ fn) (litWords o.b o.lit) = .ok j (1 + (litWords o.b o.lit).length) := by
  unfold readA
  simp only [major_a, fn_a, b_a, fieldsA, d_a, a_a, h0, h1, if_true, take_litWords _ _ h3]
  rw [h2]

/-- A format A instruction without a literal read back. -/
theorem readA_plain (maj : BitVec 6) (fn : BitVec 8) (o : OpA) (i : Instr)
    (h0 : mkInstrA maj.toNat fn ⟨o.d, o.a, o.b, 0⟩ = some i) (h1 : litA i = false) :
    readA (maj ++ o.d ++ o.a ++ o.b ++ fn) [] = .ok i 1 := by
  unfold readA
  simp only [major_a, fn_a, fieldsA, d_a, a_a, b_a, h0, h1]
  rfl

/-- LD and ST read back. -/
theorem readM_mk (maj : BitVec 6) (o : OpM) (h : litCanon o.x o.lit = true) :
    readM (maj ++ o.t ++ o.h ++ o.x ++ o.size ++ o.order ++ o.scope ++ o.scale) (litWords o.x o.lit) =
      .ok (if maj.toNat = 0x18 then .ld o else .st o) (1 + (litWords o.x o.lit).length) := by
  simp [readM, fieldsM, take_litWords _ _ h]

/-- A format V instruction read back. -/
theorem readV_mk (maj fn : BitVec 6) (o : OpV) (i j : Instr) (h0 : mkInstrV maj.toNat fn.toNat
    (fieldsV (maj ++ o.d ++ o.a ++ o.b ++ o.w ++ fn) 0) = some i) (h1 : mkInstrV maj.toNat fn.toNat o = some j) :
    readV (maj ++ o.d ++ o.a ++ o.b ++ o.w ++ fn)
      [o.sa ++ o.sb ++ o.dtag ++ o.rnd ++ o.clamp ++ o.mask ++ o.minv ++ o.c ++ 0#6] = .ok j 2 := by
  unfold readV
  simp only [major_v, fn_v, h0, z_x]
  rw [if_neg (by simp)]
  simp only [fieldsV, d_v, a_v, b_v, w_v, sa_x, sb_x, t_x, r_x, cl_x, mk_x, mi_x, c_x, h1]

end Sys2Proof
end

