-- ==== Sys2Proof/Laws/Handles.lean ====
section
/-! SUPPORT. Sealed handle records: a record sealed under the key in force passes its check, is live, and gives the
supervisor's entry. -/

namespace Sys2Proof.Machine

/-- The seal is computed over bytes 0 to 47 alone (R74). -/
theorem sealed_bytes (r : HRec) (k : Nat) : (r.sealed k).bytes = r.bytes := rfl

/-- A record passes the seal check under the key that sealed it (R74, R85). -/
theorem sealOk_sealed (r : HRec) (k : Nat) : (r.sealed k).sealOk k = true := by
  simp [HRec.sealOk, HRec.sealed, HRec.bytes]

/-- A record minted under the key in force is live while its entry keeps its generation (R76). -/
theorem liveRec_sealed {s : State} {c : Ctx} {e : Nat} {r : HRec}
    (h : (c.entry e).rec_ = some (r.sealed s.trust.sealNo))
    (hk : (decide (r.gen = (c.entry e).gen) && !(c.entry e).closed && decide (e < c.size)) = true) :
    s.liveRec c e = some (r.sealed s.trust.sealNo) := by
  simp only [Bool.and_eq_true, decide_eq_true_eq, Bool.not_eq_true'] at hk
  simp only [State.liveRec, h]
  exact if_pos ⟨hk.1.1, hk.1.2, sealOk_sealed r _, hk.2⟩

/-- The supervisor's code and TRAPVEC, its record sealed under the key in force (R418). -/
theorem supervisor_sealed {s : State} {j : Job} {c : Ctx} {r : HRec} (hj : s.core.job = some j)
    (hc : s.ctx? j.ctx = some c) (h : (c.entry 0).rec_ = some (r.sealed s.trust.sealNo))
    (hk : (decide (r.gen = (c.entry 0).gen) && !(c.entry 0).closed && r.rights.getLsbD 2 &&
      decide (c.trapvec.toNat % 4 = 0) && decide (c.trapvec.toNat + 4 ≤ r.length)) = true) :
    s.supervisor = some (⟨0, (c.entry 0).gen, r.base, r.length, r.kind⟩, c.trapvec) := by
  simp only [Bool.and_eq_true, decide_eq_true_eq, Bool.not_eq_true'] at hk
  have hs : s.supervisorCode = some ⟨0, (c.entry 0).gen, r.base, r.length, r.kind⟩ := by
    simp only [State.supervisorCode, hj, hc, h]
    exact if_pos ⟨hk.1.1.1.1, hk.1.1.1.2, sealOk_sealed r _, hk.1.1.2⟩
  have hv : s.trapVector = c.trapvec := by simp [State.trapVector, hj, hc]
  simp only [State.supervisor, hs, hv]
  exact if_pos ⟨hk.1.2, hk.2⟩

end Sys2Proof.Machine
end

