-- ==== Sys2Proof/Laws/State.lean ====
section
/-! SUPPORT. One lemma per field per update of the state, so that no proof unfolds a record update. -/

namespace Sys2Proof.Machine

/-! ## The acting core -/

@[simp] theorem State.upCore_core (s : State) (f : Core → Core) : (s.upCore f).core = f s.core := rfl
@[simp] theorem State.upCore_coreId (s : State) (f : Core → Core) : (s.upCore f).coreId = s.coreId := rfl
@[simp] theorem State.upCore_parked (s : State) (f : Core → Core) : (s.upCore f).parked = s.parked := rfl
@[simp] theorem State.upCore_inputs (s : State) (f : Core → Core) : (s.upCore f).inputs = s.inputs := rfl
@[simp] theorem State.upCore_stepNo (s : State) (f : Core → Core) : (s.upCore f).stepNo = s.stepNo := rfl
@[simp] theorem State.upCore_resetStep (s : State) (f : Core → Core) : (s.upCore f).resetStep = s.resetStep := rfl
@[simp] theorem State.upCore_drawn (s : State) (f : Core → Core) : (s.upCore f).drawn = s.drawn := rfl
@[simp] theorem State.upCore_powered (s : State) (f : Core → Core) : (s.upCore f).powered = s.powered := rfl
@[simp] theorem State.upCore_mem (s : State) (f : Core → Core) : (s.upCore f).mem = s.mem := rfl
@[simp] theorem State.upCore_xl (s : State) (f : Core → Core) : (s.upCore f).xl = s.xl := rfl
@[simp] theorem State.upCore_work (s : State) (f : Core → Core) : (s.upCore f).work = s.work := rfl
@[simp] theorem State.upCore_replays (s : State) (f : Core → Core) : (s.upCore f).replays = s.replays := rfl
@[simp] theorem State.upCore_steals (s : State) (f : Core → Core) : (s.upCore f).steals = s.steals := rfl
@[simp] theorem State.upCore_fns (s : State) (f : Core → Core) : (s.upCore f).fns = s.fns := rfl
@[simp] theorem State.upCore_trust (s : State) (f : Core → Core) : (s.upCore f).trust = s.trust := rfl
@[simp] theorem State.upCore_part (s : State) (f : Core → Core) : (s.upCore f).part = s.part := rfl
@[simp] theorem State.upCore_cal (s : State) (f : Core → Core) : (s.upCore f).cal = s.cal := rfl
@[simp] theorem State.upCore_sweep (s : State) (f : Core → Core) : (s.upCore f).sweep = s.sweep := rfl
@[simp] theorem State.upCore_links (s : State) (f : Core → Core) : (s.upCore f).links = s.links := rfl
@[simp] theorem State.upCore_dbg (s : State) (f : Core → Core) : (s.upCore f).dbg = s.dbg := rfl
@[simp] theorem State.upCore_host (s : State) (f : Core → Core) : (s.upCore f).host = s.host := rfl

@[simp] theorem State.upRegs_core (s : State) (f : Regs → Regs) : (s.upRegs f).core = { s.core with live := f s.core.live } := rfl
@[simp] theorem State.upRegs_coreId (s : State) (f : Regs → Regs) : (s.upRegs f).coreId = s.coreId := rfl
@[simp] theorem State.upRegs_parked (s : State) (f : Regs → Regs) : (s.upRegs f).parked = s.parked := rfl
@[simp] theorem State.upRegs_inputs (s : State) (f : Regs → Regs) : (s.upRegs f).inputs = s.inputs := rfl
@[simp] theorem State.upRegs_stepNo (s : State) (f : Regs → Regs) : (s.upRegs f).stepNo = s.stepNo := rfl
@[simp] theorem State.upRegs_resetStep (s : State) (f : Regs → Regs) : (s.upRegs f).resetStep = s.resetStep := rfl
@[simp] theorem State.upRegs_drawn (s : State) (f : Regs → Regs) : (s.upRegs f).drawn = s.drawn := rfl
@[simp] theorem State.upRegs_powered (s : State) (f : Regs → Regs) : (s.upRegs f).powered = s.powered := rfl
@[simp] theorem State.upRegs_mem (s : State) (f : Regs → Regs) : (s.upRegs f).mem = s.mem := rfl
@[simp] theorem State.upRegs_xl (s : State) (f : Regs → Regs) : (s.upRegs f).xl = s.xl := rfl
@[simp] theorem State.upRegs_work (s : State) (f : Regs → Regs) : (s.upRegs f).work = s.work := rfl
@[simp] theorem State.upRegs_replays (s : State) (f : Regs → Regs) : (s.upRegs f).replays = s.replays := rfl
@[simp] theorem State.upRegs_steals (s : State) (f : Regs → Regs) : (s.upRegs f).steals = s.steals := rfl
@[simp] theorem State.upRegs_fns (s : State) (f : Regs → Regs) : (s.upRegs f).fns = s.fns := rfl
@[simp] theorem State.upRegs_trust (s : State) (f : Regs → Regs) : (s.upRegs f).trust = s.trust := rfl
@[simp] theorem State.upRegs_part (s : State) (f : Regs → Regs) : (s.upRegs f).part = s.part := rfl
@[simp] theorem State.upRegs_cal (s : State) (f : Regs → Regs) : (s.upRegs f).cal = s.cal := rfl
@[simp] theorem State.upRegs_sweep (s : State) (f : Regs → Regs) : (s.upRegs f).sweep = s.sweep := rfl
@[simp] theorem State.upRegs_links (s : State) (f : Regs → Regs) : (s.upRegs f).links = s.links := rfl
@[simp] theorem State.upRegs_dbg (s : State) (f : Regs → Regs) : (s.upRegs f).dbg = s.dbg := rfl
@[simp] theorem State.upRegs_host (s : State) (f : Regs → Regs) : (s.upRegs f).host = s.host := rfl

@[simp] theorem State.advance_core (s : State) (n : Nat) : (s.advance n).core = { s.core with pc := s.core.pc + BitVec.ofNat 48 (4 * n) } := rfl
@[simp] theorem State.advance_coreId (s : State) (n : Nat) : (s.advance n).coreId = s.coreId := rfl
@[simp] theorem State.advance_parked (s : State) (n : Nat) : (s.advance n).parked = s.parked := rfl
@[simp] theorem State.advance_inputs (s : State) (n : Nat) : (s.advance n).inputs = s.inputs := rfl
@[simp] theorem State.advance_stepNo (s : State) (n : Nat) : (s.advance n).stepNo = s.stepNo := rfl
@[simp] theorem State.advance_resetStep (s : State) (n : Nat) : (s.advance n).resetStep = s.resetStep := rfl
@[simp] theorem State.advance_drawn (s : State) (n : Nat) : (s.advance n).drawn = s.drawn := rfl
@[simp] theorem State.advance_powered (s : State) (n : Nat) : (s.advance n).powered = s.powered := rfl
@[simp] theorem State.advance_mem (s : State) (n : Nat) : (s.advance n).mem = s.mem := rfl
@[simp] theorem State.advance_xl (s : State) (n : Nat) : (s.advance n).xl = s.xl := rfl
@[simp] theorem State.advance_work (s : State) (n : Nat) : (s.advance n).work = s.work := rfl
@[simp] theorem State.advance_replays (s : State) (n : Nat) : (s.advance n).replays = s.replays := rfl
@[simp] theorem State.advance_steals (s : State) (n : Nat) : (s.advance n).steals = s.steals := rfl
@[simp] theorem State.advance_fns (s : State) (n : Nat) : (s.advance n).fns = s.fns := rfl
@[simp] theorem State.advance_trust (s : State) (n : Nat) : (s.advance n).trust = s.trust := rfl
@[simp] theorem State.advance_part (s : State) (n : Nat) : (s.advance n).part = s.part := rfl
@[simp] theorem State.advance_cal (s : State) (n : Nat) : (s.advance n).cal = s.cal := rfl
@[simp] theorem State.advance_sweep (s : State) (n : Nat) : (s.advance n).sweep = s.sweep := rfl
@[simp] theorem State.advance_links (s : State) (n : Nat) : (s.advance n).links = s.links := rfl
@[simp] theorem State.advance_dbg (s : State) (n : Nat) : (s.advance n).dbg = s.dbg := rfl
@[simp] theorem State.advance_host (s : State) (n : Nat) : (s.advance n).host = s.host := rfl

@[simp] theorem State.jump_core (s : State) (n : Nat) : (s.jump n).core = { s.core with pc := BitVec.ofNat 48 n } := rfl
@[simp] theorem State.jump_coreId (s : State) (n : Nat) : (s.jump n).coreId = s.coreId := rfl
@[simp] theorem State.jump_parked (s : State) (n : Nat) : (s.jump n).parked = s.parked := rfl
@[simp] theorem State.jump_inputs (s : State) (n : Nat) : (s.jump n).inputs = s.inputs := rfl
@[simp] theorem State.jump_stepNo (s : State) (n : Nat) : (s.jump n).stepNo = s.stepNo := rfl
@[simp] theorem State.jump_resetStep (s : State) (n : Nat) : (s.jump n).resetStep = s.resetStep := rfl
@[simp] theorem State.jump_drawn (s : State) (n : Nat) : (s.jump n).drawn = s.drawn := rfl
@[simp] theorem State.jump_powered (s : State) (n : Nat) : (s.jump n).powered = s.powered := rfl
@[simp] theorem State.jump_mem (s : State) (n : Nat) : (s.jump n).mem = s.mem := rfl
@[simp] theorem State.jump_xl (s : State) (n : Nat) : (s.jump n).xl = s.xl := rfl
@[simp] theorem State.jump_work (s : State) (n : Nat) : (s.jump n).work = s.work := rfl
@[simp] theorem State.jump_replays (s : State) (n : Nat) : (s.jump n).replays = s.replays := rfl
@[simp] theorem State.jump_steals (s : State) (n : Nat) : (s.jump n).steals = s.steals := rfl
@[simp] theorem State.jump_fns (s : State) (n : Nat) : (s.jump n).fns = s.fns := rfl
@[simp] theorem State.jump_trust (s : State) (n : Nat) : (s.jump n).trust = s.trust := rfl
@[simp] theorem State.jump_part (s : State) (n : Nat) : (s.jump n).part = s.part := rfl
@[simp] theorem State.jump_cal (s : State) (n : Nat) : (s.jump n).cal = s.cal := rfl
@[simp] theorem State.jump_sweep (s : State) (n : Nat) : (s.jump n).sweep = s.sweep := rfl
@[simp] theorem State.jump_links (s : State) (n : Nat) : (s.jump n).links = s.links := rfl
@[simp] theorem State.jump_dbg (s : State) (n : Nat) : (s.jump n).dbg = s.dbg := rfl
@[simp] theorem State.jump_host (s : State) (n : Nat) : (s.jump n).host = s.host := rfl

/-! ## Registers -/

@[simp] theorem State.setS_coreId (s : State) (r : Nat) (v : Word) : (s.setS r v).coreId = s.coreId := by
  unfold State.setS; split <;> rfl
@[simp] theorem State.setS_parked (s : State) (r : Nat) (v : Word) : (s.setS r v).parked = s.parked := by
  unfold State.setS; split <;> rfl
@[simp] theorem State.setS_inputs (s : State) (r : Nat) (v : Word) : (s.setS r v).inputs = s.inputs := by
  unfold State.setS; split <;> rfl
@[simp] theorem State.setS_stepNo (s : State) (r : Nat) (v : Word) : (s.setS r v).stepNo = s.stepNo := by
  unfold State.setS; split <;> rfl
@[simp] theorem State.setS_resetStep (s : State) (r : Nat) (v : Word) : (s.setS r v).resetStep = s.resetStep := by
  unfold State.setS; split <;> rfl
@[simp] theorem State.setS_drawn (s : State) (r : Nat) (v : Word) : (s.setS r v).drawn = s.drawn := by
  unfold State.setS; split <;> rfl
@[simp] theorem State.setS_powered (s : State) (r : Nat) (v : Word) : (s.setS r v).powered = s.powered := by
  unfold State.setS; split <;> rfl
@[simp] theorem State.setS_mem (s : State) (r : Nat) (v : Word) : (s.setS r v).mem = s.mem := by
  unfold State.setS; split <;> rfl
@[simp] theorem State.setS_xl (s : State) (r : Nat) (v : Word) : (s.setS r v).xl = s.xl := by
  unfold State.setS; split <;> rfl
@[simp] theorem State.setS_work (s : State) (r : Nat) (v : Word) : (s.setS r v).work = s.work := by
  unfold State.setS; split <;> rfl
@[simp] theorem State.setS_replays (s : State) (r : Nat) (v : Word) : (s.setS r v).replays = s.replays := by
  unfold State.setS; split <;> rfl
@[simp] theorem State.setS_steals (s : State) (r : Nat) (v : Word) : (s.setS r v).steals = s.steals := by
  unfold State.setS; split <;> rfl
@[simp] theorem State.setS_fns (s : State) (r : Nat) (v : Word) : (s.setS r v).fns = s.fns := by
  unfold State.setS; split <;> rfl
@[simp] theorem State.setS_trust (s : State) (r : Nat) (v : Word) : (s.setS r v).trust = s.trust := by
  unfold State.setS; split <;> rfl
@[simp] theorem State.setS_part (s : State) (r : Nat) (v : Word) : (s.setS r v).part = s.part := by
  unfold State.setS; split <;> rfl
@[simp] theorem State.setS_cal (s : State) (r : Nat) (v : Word) : (s.setS r v).cal = s.cal := by
  unfold State.setS; split <;> rfl
@[simp] theorem State.setS_sweep (s : State) (r : Nat) (v : Word) : (s.setS r v).sweep = s.sweep := by
  unfold State.setS; split <;> rfl
@[simp] theorem State.setS_links (s : State) (r : Nat) (v : Word) : (s.setS r v).links = s.links := by
  unfold State.setS; split <;> rfl
@[simp] theorem State.setS_dbg (s : State) (r : Nat) (v : Word) : (s.setS r v).dbg = s.dbg := by
  unfold State.setS; split <;> rfl
@[simp] theorem State.setS_host (s : State) (r : Nat) (v : Word) : (s.setS r v).host = s.host := by
  unfold State.setS; split <;> rfl

@[simp] theorem State.setS_core_pc (s : State) (r : Nat) (v : Word) : (s.setS r v).core.pc = s.core.pc := by
  unfold State.setS; split <;> rfl
@[simp] theorem State.setS_core_ckpt (s : State) (r : Nat) (v : Word) : (s.setS r v).core.ckpt = s.core.ckpt := by
  unfold State.setS; split <;> rfl
@[simp] theorem State.setS_core_startPc (s : State) (r : Nat) (v : Word) : (s.setS r v).core.startPc = s.core.startPc := by
  unfold State.setS; split <;> rfl
@[simp] theorem State.setS_core_startPriv (s : State) (r : Nat) (v : Word) : (s.setS r v).core.startPriv = s.core.startPriv := by
  unfold State.setS; split <;> rfl
@[simp] theorem State.setS_core_priv (s : State) (r : Nat) (v : Word) : (s.setS r v).core.priv = s.core.priv := by
  unfold State.setS; split <;> rfl
@[simp] theorem State.setS_core_rseq (s : State) (r : Nat) (v : Word) : (s.setS r v).core.rseq = s.core.rseq := by
  unfold State.setS; split <;> rfl
@[simp] theorem State.setS_core_lastCause (s : State) (r : Nat) (v : Word) : (s.setS r v).core.lastCause = s.core.lastCause := by
  unfold State.setS; split <;> rfl
@[simp] theorem State.setS_core_closed (s : State) (r : Nat) (v : Word) : (s.setS r v).core.closed = s.core.closed := by
  unfold State.setS; split <;> rfl
@[simp] theorem State.setS_core_reexec (s : State) (r : Nat) (v : Word) : (s.setS r v).core.reexec = s.core.reexec := by
  unfold State.setS; split <;> rfl
@[simp] theorem State.setS_core_reexecPriv (s : State) (r : Nat) (v : Word) : (s.setS r v).core.reexecPriv = s.core.reexecPriv := by
  unfold State.setS; split <;> rfl
@[simp] theorem State.setS_core_sub (s : State) (r : Nat) (v : Word) : (s.setS r v).core.sub = s.core.sub := by
  unfold State.setS; split <;> rfl
@[simp] theorem State.setS_core_subSeq (s : State) (r : Nat) (v : Word) : (s.setS r v).core.subSeq = s.core.subSeq := by
  unfold State.setS; split <;> rfl
@[simp] theorem State.setS_core_oldSubs (s : State) (r : Nat) (v : Word) : (s.setS r v).core.oldSubs = s.core.oldSubs := by
  unfold State.setS; split <;> rfl
@[simp] theorem State.setS_core_trapCause (s : State) (r : Nat) (v : Word) : (s.setS r v).core.trapCause = s.core.trapCause := by
  unfold State.setS; split <;> rfl
@[simp] theorem State.setS_core_trapInfo (s : State) (r : Nat) (v : Word) : (s.setS r v).core.trapInfo = s.core.trapInfo := by
  unfold State.setS; split <;> rfl
@[simp] theorem State.setS_core_epc (s : State) (r : Nat) (v : Word) : (s.setS r v).core.epc = s.core.epc := by
  unfold State.setS; split <;> rfl
@[simp] theorem State.setS_core_trapScr (s : State) (r : Nat) (v : Word) : (s.setS r v).core.trapScr = s.core.trapScr := by
  unfold State.setS; split <;> rfl
@[simp] theorem State.setS_core_job (s : State) (r : Nat) (v : Word) : (s.setS r v).core.job = s.core.job := by
  unfold State.setS; split <;> rfl
@[simp] theorem State.setS_core_hcache (s : State) (r : Nat) (v : Word) : (s.setS r v).core.hcache = s.core.hcache := by
  unfold State.setS; split <;> rfl
@[simp] theorem State.setS_core_icache (s : State) (r : Nat) (v : Word) : (s.setS r v).core.icache = s.core.icache := by
  unfold State.setS; split <;> rfl
@[simp] theorem State.setS_core_lines (s : State) (r : Nat) (v : Word) : (s.setS r v).core.lines = s.core.lines := by
  unfold State.setS; split <;> rfl
@[simp] theorem State.setS_core_sbuf (s : State) (r : Nat) (v : Word) : (s.setS r v).core.sbuf = s.core.sbuf := by
  unfold State.setS; split <;> rfl
@[simp] theorem State.setS_core_vq (s : State) (r : Nat) (v : Word) : (s.setS r v).core.vq = s.core.vq := by
  unfold State.setS; split <;> rfl
@[simp] theorem State.setS_core_mq (s : State) (r : Nat) (v : Word) : (s.setS r v).core.mq = s.core.mq := by
  unfold State.setS; split <;> rfl
@[simp] theorem State.setS_core_pq (s : State) (r : Nat) (v : Word) : (s.setS r v).core.pq = s.core.pq := by
  unfold State.setS; split <;> rfl
@[simp] theorem State.setS_core_cq (s : State) (r : Nat) (v : Word) : (s.setS r v).core.cq = s.core.cq := by
  unfold State.setS; split <;> rfl
@[simp] theorem State.setS_core_prod (s : State) (r : Nat) (v : Word) : (s.setS r v).core.prod = s.core.prod := by
  unfold State.setS; split <;> rfl
@[simp] theorem State.setS_core_arrays (s : State) (r : Nat) (v : Word) : (s.setS r v).core.arrays = s.core.arrays := by
  unfold State.setS; split <;> rfl
@[simp] theorem State.setS_core_arraysCkpt (s : State) (r : Nat) (v : Word) : (s.setS r v).core.arraysCkpt = s.core.arraysCkpt := by
  unfold State.setS; split <;> rfl
@[simp] theorem State.setS_core_matSeq (s : State) (r : Nat) (v : Word) : (s.setS r v).core.matSeq = s.core.matSeq := by
  unfold State.setS; split <;> rfl
@[simp] theorem State.setS_core_plaitSeq (s : State) (r : Nat) (v : Word) : (s.setS r v).core.plaitSeq = s.core.plaitSeq := by
  unfold State.setS; split <;> rfl
@[simp] theorem State.setS_core_tables (s : State) (r : Nat) (v : Word) : (s.setS r v).core.tables = s.core.tables := by
  unfold State.setS; split <;> rfl
@[simp] theorem State.setS_core_tablesCkpt (s : State) (r : Nat) (v : Word) : (s.setS r v).core.tablesCkpt = s.core.tablesCkpt := by
  unfold State.setS; split <;> rfl
@[simp] theorem State.setS_core_stallSel (s : State) (r : Nat) (v : Word) : (s.setS r v).core.stallSel = s.core.stallSel := by
  unfold State.setS; split <;> rfl
@[simp] theorem State.setS_core_stallCnt (s : State) (r : Nat) (v : Word) : (s.setS r v).core.stallCnt = s.core.stallCnt := by
  unfold State.setS; split <;> rfl
@[simp] theorem State.setS_core_cmdLog (s : State) (r : Nat) (v : Word) : (s.setS r v).core.cmdLog = s.core.cmdLog := by
  unfold State.setS; split <;> rfl
@[simp] theorem State.setS_core_stall (s : State) (r : Nat) (v : Word) : (s.setS r v).core.stall = s.core.stall := by
  unfold State.setS; split <;> rfl
@[simp] theorem State.setS_core_awaits (s : State) (r : Nat) (v : Word) : (s.setS r v).core.awaits = s.core.awaits := by
  unfold State.setS; split <;> rfl
@[simp] theorem State.setS_core_posted (s : State) (r : Nat) (v : Word) : (s.setS r v).core.posted = s.core.posted := by
  unfold State.setS; split <;> rfl
@[simp] theorem State.setS_core_held (s : State) (r : Nat) (v : Word) : (s.setS r v).core.held = s.core.held := by
  unfold State.setS; split <;> rfl
@[simp] theorem State.setS_core_remote (s : State) (r : Nat) (v : Word) : (s.setS r v).core.remote = s.core.remote := by
  unfold State.setS; split <;> rfl
@[simp] theorem State.setS_core_kept (s : State) (r : Nat) (v : Word) : (s.setS r v).core.kept = s.core.kept := by
  unfold State.setS; split <;> rfl
@[simp] theorem State.setS_core_thief (s : State) (r : Nat) (v : Word) : (s.setS r v).core.thief = s.core.thief := by
  unfold State.setS; split <;> rfl
@[simp] theorem State.setS_core_atBarrier (s : State) (r : Nat) (v : Word) : (s.setS r v).core.atBarrier = s.core.atBarrier := by
  unfold State.setS; split <;> rfl
@[simp] theorem State.setS_core_grant (s : State) (r : Nat) (v : Word) : (s.setS r v).core.grant = s.core.grant := by
  unfold State.setS; split <;> rfl
@[simp] theorem State.setS_core_stealReturned (s : State) (r : Nat) (v : Word) : (s.setS r v).core.stealReturned = s.core.stealReturned := by
  unfold State.setS; split <;> rfl
@[simp] theorem State.setS_core_heldSteals (s : State) (r : Nat) (v : Word) : (s.setS r v).core.heldSteals = s.core.heldSteals := by
  unfold State.setS; split <;> rfl
@[simp] theorem State.setS_core_preempt (s : State) (r : Nat) (v : Word) : (s.setS r v).core.preempt = s.core.preempt := by
  unfold State.setS; split <;> rfl
@[simp] theorem State.setS_core_preemptReady (s : State) (r : Nat) (v : Word) : (s.setS r v).core.preemptReady = s.core.preemptReady := by
  unfold State.setS; split <;> rfl
@[simp] theorem State.setS_core_halting (s : State) (r : Nat) (v : Word) : (s.setS r v).core.halting = s.core.halting := by
  unfold State.setS; split <;> rfl
@[simp] theorem State.setS_core_entering (s : State) (r : Nat) (v : Word) : (s.setS r v).core.entering = s.core.entering := by
  unfold State.setS; split <;> rfl
@[simp] theorem State.setS_core_stopped (s : State) (r : Nat) (v : Word) : (s.setS r v).core.stopped = s.core.stopped := by
  unfold State.setS; split <;> rfl
@[simp] theorem State.setS_core_stopPending (s : State) (r : Nat) (v : Word) : (s.setS r v).core.stopPending = s.core.stopPending := by
  unfold State.setS; split <;> rfl
@[simp] theorem State.setS_core_stopPassed (s : State) (r : Nat) (v : Word) : (s.setS r v).core.stopPassed = s.core.stopPassed := by
  unfold State.setS; split <;> rfl

@[simp] theorem State.setS_live_v (s : State) (r : Nat) (v : Word) :
    (s.setS r v).core.live.v = s.core.live.v := by
  unfold State.setS; split <;> rfl
@[simp] theorem State.setS_live_k (s : State) (r : Nat) (v : Word) :
    (s.setS r v).core.live.k = s.core.live.k := by
  unfold State.setS; split <;> rfl
@[simp] theorem State.setS_live_m (s : State) (r : Nat) (v : Word) :
    (s.setS r v).core.live.m = s.core.live.m := by
  unfold State.setS; split <;> rfl
@[simp] theorem State.setS_live_q (s : State) (r : Nat) (v : Word) :
    (s.setS r v).core.live.q = s.core.live.q := by
  unfold State.setS; split <;> rfl
@[simp] theorem State.setS_live_lc (s : State) (r : Nat) (v : Word) :
    (s.setS r v).core.live.lc = s.core.live.lc := by
  unfold State.setS; split <;> rfl
@[simp] theorem State.setS_live_itc (s : State) (r : Nat) (v : Word) :
    (s.setS r v).core.live.itc = s.core.live.itc := by
  unfold State.setS; split <;> rfl
@[simp] theorem State.setS_live_lsp (s : State) (r : Nat) (v : Word) :
    (s.setS r v).core.live.lsp = s.core.live.lsp := by
  unfold State.setS; split <;> rfl
@[simp] theorem State.setS_live_rbs (s : State) (r : Nat) (v : Word) :
    (s.setS r v).core.live.rbs = s.core.live.rbs := by
  unfold State.setS; split <;> rfl
@[simp] theorem State.setS_live_rbv (s : State) (r : Nat) (v : Word) :
    (s.setS r v).core.live.rbv = s.core.live.rbv := by
  unfold State.setS; split <;> rfl
@[simp] theorem State.setS_live_rbk (s : State) (r : Nat) (v : Word) :
    (s.setS r v).core.live.rbk = s.core.live.rbk := by
  unfold State.setS; split <;> rfl
@[simp] theorem State.setS_live_h (s : State) (r : Nat) (v : Word) :
    (s.setS r v).core.live.h = s.core.live.h := by
  unfold State.setS; split <;> rfl
@[simp] theorem State.setS_live_flags (s : State) (r : Nat) (v : Word) :
    (s.setS r v).core.live.flags = s.core.live.flags := by
  unfold State.setS; split <;> rfl
@[simp] theorem State.setS_live_flagen (s : State) (r : Nat) (v : Word) :
    (s.setS r v).core.live.flagen = s.core.live.flagen := by
  unfold State.setS; split <;> rfl
@[simp] theorem State.setS_live_rnglo (s : State) (r : Nat) (v : Word) :
    (s.setS r v).core.live.rnglo = s.core.live.rnglo := by
  unfold State.setS; split <;> rfl
@[simp] theorem State.setS_live_rnghi (s : State) (r : Nat) (v : Word) :
    (s.setS r v).core.live.rnghi = s.core.live.rnghi := by
  unfold State.setS; split <;> rfl
@[simp] theorem State.setS_live_openGroup (s : State) (r : Nat) (v : Word) :
    (s.setS r v).core.live.openGroup = s.core.live.openGroup := by
  unfold State.setS; split <;> rfl
@[simp] theorem State.setS_live_closedGroups (s : State) (r : Nat) (v : Word) :
    (s.setS r v).core.live.closedGroups = s.core.live.closedGroups := by
  unfold State.setS; split <;> rfl
@[simp] theorem State.setS_live_nextGroup (s : State) (r : Nat) (v : Word) :
    (s.setS r v).core.live.nextGroup = s.core.live.nextGroup := by
  unfold State.setS; split <;> rfl

@[simp] theorem State.orFlags_coreId (s : State) (x : BitVec 5) : (s.orFlags x).coreId = s.coreId := rfl
@[simp] theorem State.orFlags_parked (s : State) (x : BitVec 5) : (s.orFlags x).parked = s.parked := rfl
@[simp] theorem State.orFlags_inputs (s : State) (x : BitVec 5) : (s.orFlags x).inputs = s.inputs := rfl
@[simp] theorem State.orFlags_stepNo (s : State) (x : BitVec 5) : (s.orFlags x).stepNo = s.stepNo := rfl
@[simp] theorem State.orFlags_resetStep (s : State) (x : BitVec 5) : (s.orFlags x).resetStep = s.resetStep := rfl
@[simp] theorem State.orFlags_drawn (s : State) (x : BitVec 5) : (s.orFlags x).drawn = s.drawn := rfl
@[simp] theorem State.orFlags_powered (s : State) (x : BitVec 5) : (s.orFlags x).powered = s.powered := rfl
@[simp] theorem State.orFlags_mem (s : State) (x : BitVec 5) : (s.orFlags x).mem = s.mem := rfl
@[simp] theorem State.orFlags_xl (s : State) (x : BitVec 5) : (s.orFlags x).xl = s.xl := rfl
@[simp] theorem State.orFlags_work (s : State) (x : BitVec 5) : (s.orFlags x).work = s.work := rfl
@[simp] theorem State.orFlags_replays (s : State) (x : BitVec 5) : (s.orFlags x).replays = s.replays := rfl
@[simp] theorem State.orFlags_steals (s : State) (x : BitVec 5) : (s.orFlags x).steals = s.steals := rfl
@[simp] theorem State.orFlags_fns (s : State) (x : BitVec 5) : (s.orFlags x).fns = s.fns := rfl
@[simp] theorem State.orFlags_trust (s : State) (x : BitVec 5) : (s.orFlags x).trust = s.trust := rfl
@[simp] theorem State.orFlags_part (s : State) (x : BitVec 5) : (s.orFlags x).part = s.part := rfl
@[simp] theorem State.orFlags_cal (s : State) (x : BitVec 5) : (s.orFlags x).cal = s.cal := rfl
@[simp] theorem State.orFlags_sweep (s : State) (x : BitVec 5) : (s.orFlags x).sweep = s.sweep := rfl
@[simp] theorem State.orFlags_links (s : State) (x : BitVec 5) : (s.orFlags x).links = s.links := rfl
@[simp] theorem State.orFlags_dbg (s : State) (x : BitVec 5) : (s.orFlags x).dbg = s.dbg := rfl
@[simp] theorem State.orFlags_host (s : State) (x : BitVec 5) : (s.orFlags x).host = s.host := rfl
@[simp] theorem State.orFlags_core_pc (s : State) (x : BitVec 5) : (s.orFlags x).core.pc = s.core.pc := rfl
@[simp] theorem State.orFlags_core_ckpt (s : State) (x : BitVec 5) : (s.orFlags x).core.ckpt = s.core.ckpt := rfl
@[simp] theorem State.orFlags_core_startPc (s : State) (x : BitVec 5) : (s.orFlags x).core.startPc = s.core.startPc := rfl
@[simp] theorem State.orFlags_core_startPriv (s : State) (x : BitVec 5) : (s.orFlags x).core.startPriv = s.core.startPriv := rfl
@[simp] theorem State.orFlags_core_priv (s : State) (x : BitVec 5) : (s.orFlags x).core.priv = s.core.priv := rfl
@[simp] theorem State.orFlags_core_rseq (s : State) (x : BitVec 5) : (s.orFlags x).core.rseq = s.core.rseq := rfl
@[simp] theorem State.orFlags_core_lastCause (s : State) (x : BitVec 5) : (s.orFlags x).core.lastCause = s.core.lastCause := rfl
@[simp] theorem State.orFlags_core_closed (s : State) (x : BitVec 5) : (s.orFlags x).core.closed = s.core.closed := rfl
@[simp] theorem State.orFlags_core_reexec (s : State) (x : BitVec 5) : (s.orFlags x).core.reexec = s.core.reexec := rfl
@[simp] theorem State.orFlags_core_reexecPriv (s : State) (x : BitVec 5) : (s.orFlags x).core.reexecPriv = s.core.reexecPriv := rfl
@[simp] theorem State.orFlags_core_sub (s : State) (x : BitVec 5) : (s.orFlags x).core.sub = s.core.sub := rfl
@[simp] theorem State.orFlags_core_subSeq (s : State) (x : BitVec 5) : (s.orFlags x).core.subSeq = s.core.subSeq := rfl
@[simp] theorem State.orFlags_core_oldSubs (s : State) (x : BitVec 5) : (s.orFlags x).core.oldSubs = s.core.oldSubs := rfl
@[simp] theorem State.orFlags_core_trapCause (s : State) (x : BitVec 5) : (s.orFlags x).core.trapCause = s.core.trapCause := rfl
@[simp] theorem State.orFlags_core_trapInfo (s : State) (x : BitVec 5) : (s.orFlags x).core.trapInfo = s.core.trapInfo := rfl
@[simp] theorem State.orFlags_core_epc (s : State) (x : BitVec 5) : (s.orFlags x).core.epc = s.core.epc := rfl
@[simp] theorem State.orFlags_core_trapScr (s : State) (x : BitVec 5) : (s.orFlags x).core.trapScr = s.core.trapScr := rfl
@[simp] theorem State.orFlags_core_job (s : State) (x : BitVec 5) : (s.orFlags x).core.job = s.core.job := rfl
@[simp] theorem State.orFlags_core_hcache (s : State) (x : BitVec 5) : (s.orFlags x).core.hcache = s.core.hcache := rfl
@[simp] theorem State.orFlags_core_icache (s : State) (x : BitVec 5) : (s.orFlags x).core.icache = s.core.icache := rfl
@[simp] theorem State.orFlags_core_lines (s : State) (x : BitVec 5) : (s.orFlags x).core.lines = s.core.lines := rfl
@[simp] theorem State.orFlags_core_sbuf (s : State) (x : BitVec 5) : (s.orFlags x).core.sbuf = s.core.sbuf := rfl
@[simp] theorem State.orFlags_core_vq (s : State) (x : BitVec 5) : (s.orFlags x).core.vq = s.core.vq := rfl
@[simp] theorem State.orFlags_core_mq (s : State) (x : BitVec 5) : (s.orFlags x).core.mq = s.core.mq := rfl
@[simp] theorem State.orFlags_core_pq (s : State) (x : BitVec 5) : (s.orFlags x).core.pq = s.core.pq := rfl
@[simp] theorem State.orFlags_core_cq (s : State) (x : BitVec 5) : (s.orFlags x).core.cq = s.core.cq := rfl
@[simp] theorem State.orFlags_core_prod (s : State) (x : BitVec 5) : (s.orFlags x).core.prod = s.core.prod := rfl
@[simp] theorem State.orFlags_core_arrays (s : State) (x : BitVec 5) : (s.orFlags x).core.arrays = s.core.arrays := rfl
@[simp] theorem State.orFlags_core_arraysCkpt (s : State) (x : BitVec 5) : (s.orFlags x).core.arraysCkpt = s.core.arraysCkpt := rfl
@[simp] theorem State.orFlags_core_matSeq (s : State) (x : BitVec 5) : (s.orFlags x).core.matSeq = s.core.matSeq := rfl
@[simp] theorem State.orFlags_core_plaitSeq (s : State) (x : BitVec 5) : (s.orFlags x).core.plaitSeq = s.core.plaitSeq := rfl
@[simp] theorem State.orFlags_core_tables (s : State) (x : BitVec 5) : (s.orFlags x).core.tables = s.core.tables := rfl
@[simp] theorem State.orFlags_core_tablesCkpt (s : State) (x : BitVec 5) : (s.orFlags x).core.tablesCkpt = s.core.tablesCkpt := rfl
@[simp] theorem State.orFlags_core_stallSel (s : State) (x : BitVec 5) : (s.orFlags x).core.stallSel = s.core.stallSel := rfl
@[simp] theorem State.orFlags_core_stallCnt (s : State) (x : BitVec 5) : (s.orFlags x).core.stallCnt = s.core.stallCnt := rfl
@[simp] theorem State.orFlags_core_cmdLog (s : State) (x : BitVec 5) : (s.orFlags x).core.cmdLog = s.core.cmdLog := rfl
@[simp] theorem State.orFlags_core_stall (s : State) (x : BitVec 5) : (s.orFlags x).core.stall = s.core.stall := rfl
@[simp] theorem State.orFlags_core_awaits (s : State) (x : BitVec 5) : (s.orFlags x).core.awaits = s.core.awaits := rfl
@[simp] theorem State.orFlags_core_posted (s : State) (x : BitVec 5) : (s.orFlags x).core.posted = s.core.posted := rfl
@[simp] theorem State.orFlags_core_held (s : State) (x : BitVec 5) : (s.orFlags x).core.held = s.core.held := rfl
@[simp] theorem State.orFlags_core_remote (s : State) (x : BitVec 5) : (s.orFlags x).core.remote = s.core.remote := rfl
@[simp] theorem State.orFlags_core_kept (s : State) (x : BitVec 5) : (s.orFlags x).core.kept = s.core.kept := rfl
@[simp] theorem State.orFlags_core_thief (s : State) (x : BitVec 5) : (s.orFlags x).core.thief = s.core.thief := rfl
@[simp] theorem State.orFlags_core_atBarrier (s : State) (x : BitVec 5) : (s.orFlags x).core.atBarrier = s.core.atBarrier := rfl
@[simp] theorem State.orFlags_core_grant (s : State) (x : BitVec 5) : (s.orFlags x).core.grant = s.core.grant := rfl
@[simp] theorem State.orFlags_core_stealReturned (s : State) (x : BitVec 5) : (s.orFlags x).core.stealReturned = s.core.stealReturned := rfl
@[simp] theorem State.orFlags_core_heldSteals (s : State) (x : BitVec 5) : (s.orFlags x).core.heldSteals = s.core.heldSteals := rfl
@[simp] theorem State.orFlags_core_preempt (s : State) (x : BitVec 5) : (s.orFlags x).core.preempt = s.core.preempt := rfl
@[simp] theorem State.orFlags_core_preemptReady (s : State) (x : BitVec 5) : (s.orFlags x).core.preemptReady = s.core.preemptReady := rfl
@[simp] theorem State.orFlags_core_halting (s : State) (x : BitVec 5) : (s.orFlags x).core.halting = s.core.halting := rfl
@[simp] theorem State.orFlags_core_entering (s : State) (x : BitVec 5) : (s.orFlags x).core.entering = s.core.entering := rfl
@[simp] theorem State.orFlags_core_stopped (s : State) (x : BitVec 5) : (s.orFlags x).core.stopped = s.core.stopped := rfl
@[simp] theorem State.orFlags_core_stopPending (s : State) (x : BitVec 5) : (s.orFlags x).core.stopPending = s.core.stopPending := rfl
@[simp] theorem State.orFlags_core_stopPassed (s : State) (x : BitVec 5) : (s.orFlags x).core.stopPassed = s.core.stopPassed := rfl
@[simp] theorem State.orFlags_live_s (s : State) (x : BitVec 5) :
    (s.orFlags x).core.live.s = s.core.live.s := rfl
@[simp] theorem State.orFlags_live_v (s : State) (x : BitVec 5) :
    (s.orFlags x).core.live.v = s.core.live.v := rfl
@[simp] theorem State.orFlags_live_k (s : State) (x : BitVec 5) :
    (s.orFlags x).core.live.k = s.core.live.k := rfl
@[simp] theorem State.orFlags_live_m (s : State) (x : BitVec 5) :
    (s.orFlags x).core.live.m = s.core.live.m := rfl
@[simp] theorem State.orFlags_live_q (s : State) (x : BitVec 5) :
    (s.orFlags x).core.live.q = s.core.live.q := rfl
@[simp] theorem State.orFlags_live_lc (s : State) (x : BitVec 5) :
    (s.orFlags x).core.live.lc = s.core.live.lc := rfl
@[simp] theorem State.orFlags_live_itc (s : State) (x : BitVec 5) :
    (s.orFlags x).core.live.itc = s.core.live.itc := rfl
@[simp] theorem State.orFlags_live_lsp (s : State) (x : BitVec 5) :
    (s.orFlags x).core.live.lsp = s.core.live.lsp := rfl
@[simp] theorem State.orFlags_live_rbs (s : State) (x : BitVec 5) :
    (s.orFlags x).core.live.rbs = s.core.live.rbs := rfl
@[simp] theorem State.orFlags_live_rbv (s : State) (x : BitVec 5) :
    (s.orFlags x).core.live.rbv = s.core.live.rbv := rfl
@[simp] theorem State.orFlags_live_rbk (s : State) (x : BitVec 5) :
    (s.orFlags x).core.live.rbk = s.core.live.rbk := rfl
@[simp] theorem State.orFlags_live_h (s : State) (x : BitVec 5) :
    (s.orFlags x).core.live.h = s.core.live.h := rfl
@[simp] theorem State.orFlags_live_flags (s : State) (x : BitVec 5) :
    (s.orFlags x).core.live.flags = s.core.live.flags ||| BitVec.zeroExtend 64 x := rfl
@[simp] theorem State.orFlags_live_flagen (s : State) (x : BitVec 5) :
    (s.orFlags x).core.live.flagen = s.core.live.flagen := rfl
@[simp] theorem State.orFlags_live_rnglo (s : State) (x : BitVec 5) :
    (s.orFlags x).core.live.rnglo = s.core.live.rnglo := rfl
@[simp] theorem State.orFlags_live_rnghi (s : State) (x : BitVec 5) :
    (s.orFlags x).core.live.rnghi = s.core.live.rnghi := rfl
@[simp] theorem State.orFlags_live_openGroup (s : State) (x : BitVec 5) :
    (s.orFlags x).core.live.openGroup = s.core.live.openGroup := rfl
@[simp] theorem State.orFlags_live_closedGroups (s : State) (x : BitVec 5) :
    (s.orFlags x).core.live.closedGroups = s.core.live.closedGroups := rfl
@[simp] theorem State.orFlags_live_nextGroup (s : State) (x : BitVec 5) :
    (s.orFlags x).core.live.nextGroup = s.core.live.nextGroup := rfl

@[simp] theorem State.setQ_coreId (s : State) (i : Nat) (b : Bool) : (s.setQ i b).coreId = s.coreId := rfl
@[simp] theorem State.setQ_parked (s : State) (i : Nat) (b : Bool) : (s.setQ i b).parked = s.parked := rfl
@[simp] theorem State.setQ_inputs (s : State) (i : Nat) (b : Bool) : (s.setQ i b).inputs = s.inputs := rfl
@[simp] theorem State.setQ_stepNo (s : State) (i : Nat) (b : Bool) : (s.setQ i b).stepNo = s.stepNo := rfl
@[simp] theorem State.setQ_resetStep (s : State) (i : Nat) (b : Bool) : (s.setQ i b).resetStep = s.resetStep := rfl
@[simp] theorem State.setQ_drawn (s : State) (i : Nat) (b : Bool) : (s.setQ i b).drawn = s.drawn := rfl
@[simp] theorem State.setQ_powered (s : State) (i : Nat) (b : Bool) : (s.setQ i b).powered = s.powered := rfl
@[simp] theorem State.setQ_mem (s : State) (i : Nat) (b : Bool) : (s.setQ i b).mem = s.mem := rfl
@[simp] theorem State.setQ_xl (s : State) (i : Nat) (b : Bool) : (s.setQ i b).xl = s.xl := rfl
@[simp] theorem State.setQ_work (s : State) (i : Nat) (b : Bool) : (s.setQ i b).work = s.work := rfl
@[simp] theorem State.setQ_replays (s : State) (i : Nat) (b : Bool) : (s.setQ i b).replays = s.replays := rfl
@[simp] theorem State.setQ_steals (s : State) (i : Nat) (b : Bool) : (s.setQ i b).steals = s.steals := rfl
@[simp] theorem State.setQ_fns (s : State) (i : Nat) (b : Bool) : (s.setQ i b).fns = s.fns := rfl
@[simp] theorem State.setQ_trust (s : State) (i : Nat) (b : Bool) : (s.setQ i b).trust = s.trust := rfl
@[simp] theorem State.setQ_part (s : State) (i : Nat) (b : Bool) : (s.setQ i b).part = s.part := rfl
@[simp] theorem State.setQ_cal (s : State) (i : Nat) (b : Bool) : (s.setQ i b).cal = s.cal := rfl
@[simp] theorem State.setQ_sweep (s : State) (i : Nat) (b : Bool) : (s.setQ i b).sweep = s.sweep := rfl
@[simp] theorem State.setQ_links (s : State) (i : Nat) (b : Bool) : (s.setQ i b).links = s.links := rfl
@[simp] theorem State.setQ_dbg (s : State) (i : Nat) (b : Bool) : (s.setQ i b).dbg = s.dbg := rfl
@[simp] theorem State.setQ_host (s : State) (i : Nat) (b : Bool) : (s.setQ i b).host = s.host := rfl
@[simp] theorem State.setQ_live_s (s : State) (i : Nat) (b : Bool) :
    (s.setQ i b).core.live.s = s.core.live.s := rfl
@[simp] theorem State.setQ_live_v (s : State) (i : Nat) (b : Bool) :
    (s.setQ i b).core.live.v = s.core.live.v := rfl
@[simp] theorem State.setQ_live_k (s : State) (i : Nat) (b : Bool) :
    (s.setQ i b).core.live.k = s.core.live.k := rfl
@[simp] theorem State.setQ_live_m (s : State) (i : Nat) (b : Bool) :
    (s.setQ i b).core.live.m = s.core.live.m := rfl
@[simp] theorem State.setQ_live_lc (s : State) (i : Nat) (b : Bool) :
    (s.setQ i b).core.live.lc = s.core.live.lc := rfl
@[simp] theorem State.setQ_live_itc (s : State) (i : Nat) (b : Bool) :
    (s.setQ i b).core.live.itc = s.core.live.itc := rfl
@[simp] theorem State.setQ_live_lsp (s : State) (i : Nat) (b : Bool) :
    (s.setQ i b).core.live.lsp = s.core.live.lsp := rfl
@[simp] theorem State.setQ_live_rbs (s : State) (i : Nat) (b : Bool) :
    (s.setQ i b).core.live.rbs = s.core.live.rbs := rfl
@[simp] theorem State.setQ_live_rbv (s : State) (i : Nat) (b : Bool) :
    (s.setQ i b).core.live.rbv = s.core.live.rbv := rfl
@[simp] theorem State.setQ_live_rbk (s : State) (i : Nat) (b : Bool) :
    (s.setQ i b).core.live.rbk = s.core.live.rbk := rfl
@[simp] theorem State.setQ_live_h (s : State) (i : Nat) (b : Bool) :
    (s.setQ i b).core.live.h = s.core.live.h := rfl
@[simp] theorem State.setQ_live_flags (s : State) (i : Nat) (b : Bool) :
    (s.setQ i b).core.live.flags = s.core.live.flags := rfl
@[simp] theorem State.setQ_live_flagen (s : State) (i : Nat) (b : Bool) :
    (s.setQ i b).core.live.flagen = s.core.live.flagen := rfl
@[simp] theorem State.setQ_live_rnglo (s : State) (i : Nat) (b : Bool) :
    (s.setQ i b).core.live.rnglo = s.core.live.rnglo := rfl
@[simp] theorem State.setQ_live_rnghi (s : State) (i : Nat) (b : Bool) :
    (s.setQ i b).core.live.rnghi = s.core.live.rnghi := rfl
@[simp] theorem State.setQ_live_openGroup (s : State) (i : Nat) (b : Bool) :
    (s.setQ i b).core.live.openGroup = s.core.live.openGroup := rfl
@[simp] theorem State.setQ_live_closedGroups (s : State) (i : Nat) (b : Bool) :
    (s.setQ i b).core.live.closedGroups = s.core.live.closedGroups := rfl
@[simp] theorem State.setQ_live_nextGroup (s : State) (i : Nat) (b : Bool) :
    (s.setQ i b).core.live.nextGroup = s.core.live.nextGroup := rfl

/-! ## Functions and launches -/

@[simp] theorem State.upFn_core (s : State) (n : Nat) (g : Fn → Fn) : (s.upFn n g).core = s.core := rfl
@[simp] theorem State.upFn_coreId (s : State) (n : Nat) (g : Fn → Fn) : (s.upFn n g).coreId = s.coreId := rfl
@[simp] theorem State.upFn_parked (s : State) (n : Nat) (g : Fn → Fn) : (s.upFn n g).parked = s.parked := rfl
@[simp] theorem State.upFn_inputs (s : State) (n : Nat) (g : Fn → Fn) : (s.upFn n g).inputs = s.inputs := rfl
@[simp] theorem State.upFn_stepNo (s : State) (n : Nat) (g : Fn → Fn) : (s.upFn n g).stepNo = s.stepNo := rfl
@[simp] theorem State.upFn_resetStep (s : State) (n : Nat) (g : Fn → Fn) : (s.upFn n g).resetStep = s.resetStep := rfl
@[simp] theorem State.upFn_drawn (s : State) (n : Nat) (g : Fn → Fn) : (s.upFn n g).drawn = s.drawn := rfl
@[simp] theorem State.upFn_powered (s : State) (n : Nat) (g : Fn → Fn) : (s.upFn n g).powered = s.powered := rfl
@[simp] theorem State.upFn_mem (s : State) (n : Nat) (g : Fn → Fn) : (s.upFn n g).mem = s.mem := rfl
@[simp] theorem State.upFn_xl (s : State) (n : Nat) (g : Fn → Fn) : (s.upFn n g).xl = s.xl := rfl
@[simp] theorem State.upFn_work (s : State) (n : Nat) (g : Fn → Fn) : (s.upFn n g).work = s.work := rfl
@[simp] theorem State.upFn_replays (s : State) (n : Nat) (g : Fn → Fn) : (s.upFn n g).replays = s.replays := rfl
@[simp] theorem State.upFn_steals (s : State) (n : Nat) (g : Fn → Fn) : (s.upFn n g).steals = s.steals := rfl
@[simp] theorem State.upFn_trust (s : State) (n : Nat) (g : Fn → Fn) : (s.upFn n g).trust = s.trust := rfl
@[simp] theorem State.upFn_part (s : State) (n : Nat) (g : Fn → Fn) : (s.upFn n g).part = s.part := rfl
@[simp] theorem State.upFn_cal (s : State) (n : Nat) (g : Fn → Fn) : (s.upFn n g).cal = s.cal := rfl
@[simp] theorem State.upFn_sweep (s : State) (n : Nat) (g : Fn → Fn) : (s.upFn n g).sweep = s.sweep := rfl
@[simp] theorem State.upFn_links (s : State) (n : Nat) (g : Fn → Fn) : (s.upFn n g).links = s.links := rfl
@[simp] theorem State.upFn_dbg (s : State) (n : Nat) (g : Fn → Fn) : (s.upFn n g).dbg = s.dbg := rfl
@[simp] theorem State.upFn_host (s : State) (n : Nat) (g : Fn → Fn) : (s.upFn n g).host = s.host := rfl
@[simp] theorem State.raise_core (s : State) (n v : Nat) : (s.raise n v).core = s.core := rfl
@[simp] theorem State.raise_coreId (s : State) (n v : Nat) : (s.raise n v).coreId = s.coreId := rfl
@[simp] theorem State.raise_parked (s : State) (n v : Nat) : (s.raise n v).parked = s.parked := rfl
@[simp] theorem State.raise_inputs (s : State) (n v : Nat) : (s.raise n v).inputs = s.inputs := rfl
@[simp] theorem State.raise_stepNo (s : State) (n v : Nat) : (s.raise n v).stepNo = s.stepNo := rfl
@[simp] theorem State.raise_resetStep (s : State) (n v : Nat) : (s.raise n v).resetStep = s.resetStep := rfl
@[simp] theorem State.raise_drawn (s : State) (n v : Nat) : (s.raise n v).drawn = s.drawn := rfl
@[simp] theorem State.raise_powered (s : State) (n v : Nat) : (s.raise n v).powered = s.powered := rfl
@[simp] theorem State.raise_mem (s : State) (n v : Nat) : (s.raise n v).mem = s.mem := rfl
@[simp] theorem State.raise_xl (s : State) (n v : Nat) : (s.raise n v).xl = s.xl := rfl
@[simp] theorem State.raise_work (s : State) (n v : Nat) : (s.raise n v).work = s.work := rfl
@[simp] theorem State.raise_replays (s : State) (n v : Nat) : (s.raise n v).replays = s.replays := rfl
@[simp] theorem State.raise_steals (s : State) (n v : Nat) : (s.raise n v).steals = s.steals := rfl
@[simp] theorem State.raise_trust (s : State) (n v : Nat) : (s.raise n v).trust = s.trust := rfl
@[simp] theorem State.raise_part (s : State) (n v : Nat) : (s.raise n v).part = s.part := rfl
@[simp] theorem State.raise_cal (s : State) (n v : Nat) : (s.raise n v).cal = s.cal := rfl
@[simp] theorem State.raise_sweep (s : State) (n v : Nat) : (s.raise n v).sweep = s.sweep := rfl
@[simp] theorem State.raise_links (s : State) (n v : Nat) : (s.raise n v).links = s.links := rfl
@[simp] theorem State.raise_dbg (s : State) (n v : Nat) : (s.raise n v).dbg = s.dbg := rfl
@[simp] theorem State.raise_host (s : State) (n v : Nat) : (s.raise n v).host = s.host := rfl
@[simp] theorem State.upLaunch_core (s : State) (n : Nat) (g : Launch → Launch) : (s.upLaunch n g).core = s.core := rfl
@[simp] theorem State.upLaunch_coreId (s : State) (n : Nat) (g : Launch → Launch) : (s.upLaunch n g).coreId = s.coreId := rfl
@[simp] theorem State.upLaunch_parked (s : State) (n : Nat) (g : Launch → Launch) : (s.upLaunch n g).parked = s.parked := rfl
@[simp] theorem State.upLaunch_inputs (s : State) (n : Nat) (g : Launch → Launch) : (s.upLaunch n g).inputs = s.inputs := rfl
@[simp] theorem State.upLaunch_stepNo (s : State) (n : Nat) (g : Launch → Launch) : (s.upLaunch n g).stepNo = s.stepNo := rfl
@[simp] theorem State.upLaunch_resetStep (s : State) (n : Nat) (g : Launch → Launch) : (s.upLaunch n g).resetStep = s.resetStep := rfl
@[simp] theorem State.upLaunch_drawn (s : State) (n : Nat) (g : Launch → Launch) : (s.upLaunch n g).drawn = s.drawn := rfl
@[simp] theorem State.upLaunch_powered (s : State) (n : Nat) (g : Launch → Launch) : (s.upLaunch n g).powered = s.powered := rfl
@[simp] theorem State.upLaunch_mem (s : State) (n : Nat) (g : Launch → Launch) : (s.upLaunch n g).mem = s.mem := rfl
@[simp] theorem State.upLaunch_xl (s : State) (n : Nat) (g : Launch → Launch) : (s.upLaunch n g).xl = s.xl := rfl
@[simp] theorem State.upLaunch_replays (s : State) (n : Nat) (g : Launch → Launch) : (s.upLaunch n g).replays = s.replays := rfl
@[simp] theorem State.upLaunch_steals (s : State) (n : Nat) (g : Launch → Launch) : (s.upLaunch n g).steals = s.steals := rfl
@[simp] theorem State.upLaunch_fns (s : State) (n : Nat) (g : Launch → Launch) : (s.upLaunch n g).fns = s.fns := rfl
@[simp] theorem State.upLaunch_trust (s : State) (n : Nat) (g : Launch → Launch) : (s.upLaunch n g).trust = s.trust := rfl
@[simp] theorem State.upLaunch_part (s : State) (n : Nat) (g : Launch → Launch) : (s.upLaunch n g).part = s.part := rfl
@[simp] theorem State.upLaunch_cal (s : State) (n : Nat) (g : Launch → Launch) : (s.upLaunch n g).cal = s.cal := rfl
@[simp] theorem State.upLaunch_sweep (s : State) (n : Nat) (g : Launch → Launch) : (s.upLaunch n g).sweep = s.sweep := rfl
@[simp] theorem State.upLaunch_links (s : State) (n : Nat) (g : Launch → Launch) : (s.upLaunch n g).links = s.links := rfl
@[simp] theorem State.upLaunch_dbg (s : State) (n : Nat) (g : Launch → Launch) : (s.upLaunch n g).dbg = s.dbg := rfl
@[simp] theorem State.upLaunch_host (s : State) (n : Nat) (g : Launch → Launch) : (s.upLaunch n g).host = s.host := rfl
@[simp] theorem State.logRec_core (s : State) (k : LogKind) (a b c : Nat) : (s.logRec k a b c).core = s.core := rfl
@[simp] theorem State.logRec_coreId (s : State) (k : LogKind) (a b c : Nat) : (s.logRec k a b c).coreId = s.coreId := rfl
@[simp] theorem State.logRec_parked (s : State) (k : LogKind) (a b c : Nat) : (s.logRec k a b c).parked = s.parked := rfl
@[simp] theorem State.logRec_inputs (s : State) (k : LogKind) (a b c : Nat) : (s.logRec k a b c).inputs = s.inputs := rfl
@[simp] theorem State.logRec_stepNo (s : State) (k : LogKind) (a b c : Nat) : (s.logRec k a b c).stepNo = s.stepNo := rfl
@[simp] theorem State.logRec_resetStep (s : State) (k : LogKind) (a b c : Nat) : (s.logRec k a b c).resetStep = s.resetStep := rfl
@[simp] theorem State.logRec_drawn (s : State) (k : LogKind) (a b c : Nat) : (s.logRec k a b c).drawn = s.drawn := rfl
@[simp] theorem State.logRec_powered (s : State) (k : LogKind) (a b c : Nat) : (s.logRec k a b c).powered = s.powered := rfl
@[simp] theorem State.logRec_mem (s : State) (k : LogKind) (a b c : Nat) : (s.logRec k a b c).mem = s.mem := rfl
@[simp] theorem State.logRec_xl (s : State) (k : LogKind) (a b c : Nat) : (s.logRec k a b c).xl = s.xl := rfl
@[simp] theorem State.logRec_work (s : State) (k : LogKind) (a b c : Nat) : (s.logRec k a b c).work = s.work := rfl
@[simp] theorem State.logRec_replays (s : State) (k : LogKind) (a b c : Nat) : (s.logRec k a b c).replays = s.replays := rfl
@[simp] theorem State.logRec_steals (s : State) (k : LogKind) (a b c : Nat) : (s.logRec k a b c).steals = s.steals := rfl
@[simp] theorem State.logRec_fns (s : State) (k : LogKind) (a b c : Nat) : (s.logRec k a b c).fns = s.fns := rfl
@[simp] theorem State.logRec_part (s : State) (k : LogKind) (a b c : Nat) : (s.logRec k a b c).part = s.part := rfl
@[simp] theorem State.logRec_cal (s : State) (k : LogKind) (a b c : Nat) : (s.logRec k a b c).cal = s.cal := rfl
@[simp] theorem State.logRec_sweep (s : State) (k : LogKind) (a b c : Nat) : (s.logRec k a b c).sweep = s.sweep := rfl
@[simp] theorem State.logRec_links (s : State) (k : LogKind) (a b c : Nat) : (s.logRec k a b c).links = s.links := rfl
@[simp] theorem State.logRec_dbg (s : State) (k : LogKind) (a b c : Nat) : (s.logRec k a b c).dbg = s.dbg := rfl
@[simp] theorem State.logRec_host (s : State) (k : LogKind) (a b c : Nat) : (s.logRec k a b c).host = s.host := rfl
@[simp] theorem State.onCores_coreId (s : State) (f : Core → Core) : (s.onCores f).coreId = s.coreId := rfl
@[simp] theorem State.onCores_inputs (s : State) (f : Core → Core) : (s.onCores f).inputs = s.inputs := rfl
@[simp] theorem State.onCores_stepNo (s : State) (f : Core → Core) : (s.onCores f).stepNo = s.stepNo := rfl
@[simp] theorem State.onCores_resetStep (s : State) (f : Core → Core) : (s.onCores f).resetStep = s.resetStep := rfl
@[simp] theorem State.onCores_drawn (s : State) (f : Core → Core) : (s.onCores f).drawn = s.drawn := rfl
@[simp] theorem State.onCores_powered (s : State) (f : Core → Core) : (s.onCores f).powered = s.powered := rfl
@[simp] theorem State.onCores_mem (s : State) (f : Core → Core) : (s.onCores f).mem = s.mem := rfl
@[simp] theorem State.onCores_xl (s : State) (f : Core → Core) : (s.onCores f).xl = s.xl := rfl
@[simp] theorem State.onCores_work (s : State) (f : Core → Core) : (s.onCores f).work = s.work := rfl
@[simp] theorem State.onCores_replays (s : State) (f : Core → Core) : (s.onCores f).replays = s.replays := rfl
@[simp] theorem State.onCores_steals (s : State) (f : Core → Core) : (s.onCores f).steals = s.steals := rfl
@[simp] theorem State.onCores_fns (s : State) (f : Core → Core) : (s.onCores f).fns = s.fns := rfl
@[simp] theorem State.onCores_trust (s : State) (f : Core → Core) : (s.onCores f).trust = s.trust := rfl
@[simp] theorem State.onCores_part (s : State) (f : Core → Core) : (s.onCores f).part = s.part := rfl
@[simp] theorem State.onCores_cal (s : State) (f : Core → Core) : (s.onCores f).cal = s.cal := rfl
@[simp] theorem State.onCores_sweep (s : State) (f : Core → Core) : (s.onCores f).sweep = s.sweep := rfl
@[simp] theorem State.onCores_links (s : State) (f : Core → Core) : (s.onCores f).links = s.links := rfl
@[simp] theorem State.onCores_dbg (s : State) (f : Core → Core) : (s.onCores f).dbg = s.dbg := rfl
@[simp] theorem State.onCores_host (s : State) (f : Core → Core) : (s.onCores f).host = s.host := rfl
@[simp] theorem State.focus_inputs (s : State) (n : Nat) : (s.focus n).inputs = s.inputs := by
  unfold State.focus; split <;> rfl
@[simp] theorem State.focus_stepNo (s : State) (n : Nat) : (s.focus n).stepNo = s.stepNo := by
  unfold State.focus; split <;> rfl
@[simp] theorem State.focus_resetStep (s : State) (n : Nat) : (s.focus n).resetStep = s.resetStep := by
  unfold State.focus; split <;> rfl
@[simp] theorem State.focus_drawn (s : State) (n : Nat) : (s.focus n).drawn = s.drawn := by
  unfold State.focus; split <;> rfl
@[simp] theorem State.focus_powered (s : State) (n : Nat) : (s.focus n).powered = s.powered := by
  unfold State.focus; split <;> rfl
@[simp] theorem State.focus_mem (s : State) (n : Nat) : (s.focus n).mem = s.mem := by
  unfold State.focus; split <;> rfl
@[simp] theorem State.focus_xl (s : State) (n : Nat) : (s.focus n).xl = s.xl := by
  unfold State.focus; split <;> rfl
@[simp] theorem State.focus_work (s : State) (n : Nat) : (s.focus n).work = s.work := by
  unfold State.focus; split <;> rfl
@[simp] theorem State.focus_replays (s : State) (n : Nat) : (s.focus n).replays = s.replays := by
  unfold State.focus; split <;> rfl
@[simp] theorem State.focus_steals (s : State) (n : Nat) : (s.focus n).steals = s.steals := by
  unfold State.focus; split <;> rfl
@[simp] theorem State.focus_fns (s : State) (n : Nat) : (s.focus n).fns = s.fns := by
  unfold State.focus; split <;> rfl
@[simp] theorem State.focus_trust (s : State) (n : Nat) : (s.focus n).trust = s.trust := by
  unfold State.focus; split <;> rfl
@[simp] theorem State.focus_part (s : State) (n : Nat) : (s.focus n).part = s.part := by
  unfold State.focus; split <;> rfl
@[simp] theorem State.focus_cal (s : State) (n : Nat) : (s.focus n).cal = s.cal := by
  unfold State.focus; split <;> rfl
@[simp] theorem State.focus_sweep (s : State) (n : Nat) : (s.focus n).sweep = s.sweep := by
  unfold State.focus; split <;> rfl
@[simp] theorem State.focus_links (s : State) (n : Nat) : (s.focus n).links = s.links := by
  unfold State.focus; split <;> rfl
@[simp] theorem State.focus_dbg (s : State) (n : Nat) : (s.focus n).dbg = s.dbg := by
  unfold State.focus; split <;> rfl
@[simp] theorem State.focus_host (s : State) (n : Nat) : (s.focus n).host = s.host := by
  unfold State.focus; split <;> rfl
@[simp] theorem State.focus_coreId (s : State) (n : Nat) : (s.focus n).coreId = n := by
  unfold State.focus; split
  · rename_i h; exact h.symm
  · rfl
@[simp] theorem State.setCoreAt_coreId (s : State) (n : Nat) (c : Core) : (s.setCoreAt n c).coreId = s.coreId := by
  unfold State.setCoreAt; split <;> rfl
@[simp] theorem State.setCoreAt_inputs (s : State) (n : Nat) (c : Core) : (s.setCoreAt n c).inputs = s.inputs := by
  unfold State.setCoreAt; split <;> rfl
@[simp] theorem State.setCoreAt_stepNo (s : State) (n : Nat) (c : Core) : (s.setCoreAt n c).stepNo = s.stepNo := by
  unfold State.setCoreAt; split <;> rfl
@[simp] theorem State.setCoreAt_resetStep (s : State) (n : Nat) (c : Core) : (s.setCoreAt n c).resetStep = s.resetStep := by
  unfold State.setCoreAt; split <;> rfl
@[simp] theorem State.setCoreAt_drawn (s : State) (n : Nat) (c : Core) : (s.setCoreAt n c).drawn = s.drawn := by
  unfold State.setCoreAt; split <;> rfl
@[simp] theorem State.setCoreAt_powered (s : State) (n : Nat) (c : Core) : (s.setCoreAt n c).powered = s.powered := by
  unfold State.setCoreAt; split <;> rfl
@[simp] theorem State.setCoreAt_mem (s : State) (n : Nat) (c : Core) : (s.setCoreAt n c).mem = s.mem := by
  unfold State.setCoreAt; split <;> rfl
@[simp] theorem State.setCoreAt_xl (s : State) (n : Nat) (c : Core) : (s.setCoreAt n c).xl = s.xl := by
  unfold State.setCoreAt; split <;> rfl
@[simp] theorem State.setCoreAt_work (s : State) (n : Nat) (c : Core) : (s.setCoreAt n c).work = s.work := by
  unfold State.setCoreAt; split <;> rfl
@[simp] theorem State.setCoreAt_replays (s : State) (n : Nat) (c : Core) : (s.setCoreAt n c).replays = s.replays := by
  unfold State.setCoreAt; split <;> rfl
@[simp] theorem State.setCoreAt_steals (s : State) (n : Nat) (c : Core) : (s.setCoreAt n c).steals = s.steals := by
  unfold State.setCoreAt; split <;> rfl
@[simp] theorem State.setCoreAt_fns (s : State) (n : Nat) (c : Core) : (s.setCoreAt n c).fns = s.fns := by
  unfold State.setCoreAt; split <;> rfl
@[simp] theorem State.setCoreAt_trust (s : State) (n : Nat) (c : Core) : (s.setCoreAt n c).trust = s.trust := by
  unfold State.setCoreAt; split <;> rfl
@[simp] theorem State.setCoreAt_part (s : State) (n : Nat) (c : Core) : (s.setCoreAt n c).part = s.part := by
  unfold State.setCoreAt; split <;> rfl
@[simp] theorem State.setCoreAt_cal (s : State) (n : Nat) (c : Core) : (s.setCoreAt n c).cal = s.cal := by
  unfold State.setCoreAt; split <;> rfl
@[simp] theorem State.setCoreAt_sweep (s : State) (n : Nat) (c : Core) : (s.setCoreAt n c).sweep = s.sweep := by
  unfold State.setCoreAt; split <;> rfl
@[simp] theorem State.setCoreAt_links (s : State) (n : Nat) (c : Core) : (s.setCoreAt n c).links = s.links := by
  unfold State.setCoreAt; split <;> rfl
@[simp] theorem State.setCoreAt_dbg (s : State) (n : Nat) (c : Core) : (s.setCoreAt n c).dbg = s.dbg := by
  unfold State.setCoreAt; split <;> rfl
@[simp] theorem State.setCoreAt_host (s : State) (n : Nat) (c : Core) : (s.setCoreAt n c).host = s.host := by
  unfold State.setCoreAt; split <;> rfl

end Sys2Proof.Machine
end

