-- ==== Sys2Proof/Laws/Memory.lean ====
section
/-! SUPPORT. What the memory operations do: the canonical form is kept, a read after a write gives what was
written, and every other byte stays. -/

namespace Sys2Proof

/-! ## Association lists -/

theorem lookup_insertKey_self {α : Type} (l : List (Nat × α)) (n : Nat) (v : α) :
    lookup (insertKey l n v) n = some v := by
  induction l with
  | nil => simp [insertKey, lookup]
  | cons p l ih =>
    obtain ⟨k, x⟩ := p
    simp only [insertKey]
    split
    · simp [lookup]
    · split
      · simp [lookup]
      · simp_all [lookup]

theorem lookup_insertKey_ne {α : Type} (l : List (Nat × α)) (n m : Nat) (v : α) (h : m ≠ n) :
    lookup (insertKey l n v) m = lookup l m := by
  induction l with
  | nil => simp [insertKey, lookup, h]
  | cons p l ih =>
    obtain ⟨k, x⟩ := p
    simp only [insertKey]
    split
    · simp [lookup, h]
    · split
      · subst_vars; simp [lookup, h]
      · simp [lookup, ih]

theorem lookup_eraseKey_ne {α : Type} (l : List (Nat × α)) (n m : Nat) (h : m ≠ n) :
    lookup (eraseKey l n) m = lookup l m := by
  induction l with
  | nil => rfl
  | cons p l ih =>
    obtain ⟨k, x⟩ := p
    simp only [eraseKey]
    split
    · subst_vars; simp [lookup, h]
    · simp [lookup, ih]

/-- Keys strictly rising. -/
def Rising {α : Type} (l : List (Nat × α)) : Prop := l.Pairwise (fun a b => a.1 < b.1)

theorem lookup_none_of_lt {α : Type} (l : List (Nat × α)) (n : Nat) (h : ∀ p ∈ l, n < p.1) : lookup l n = none := by
  induction l with
  | nil => rfl
  | cons p l ih =>
    have := h p (by simp)
    simp only [lookup]
    rw [if_neg (by omega)]
    exact ih (fun q hq => h q (by simp [hq]))

theorem lookup_eraseKey_self {α : Type} (l : List (Nat × α)) (n : Nat) (h : Rising l) :
    lookup (eraseKey l n) n = none := by
  induction l with
  | nil => rfl
  | cons p l ih =>
    obtain ⟨k, x⟩ := p
    rw [Rising, List.pairwise_cons] at h
    simp only [eraseKey]
    split
    · subst_vars; exact lookup_none_of_lt l k (fun q hq => h.1 q hq)
    · simp only [lookup]; rw [if_neg (by assumption)]; exact ih h.2

theorem mem_insertKey {α : Type} (l : List (Nat × α)) (n : Nat) (v : α) (p : Nat × α) :
    p ∈ insertKey l n v → p = (n, v) ∨ p ∈ l := by
  induction l with
  | nil => simp [insertKey]
  | cons q l ih =>
    obtain ⟨k, x⟩ := q
    simp only [insertKey]
    split
    · simp
    · split
      · simp only [List.mem_cons]; rintro (h | h)
        · exact .inl h
        · exact .inr (.inr h)
      · simp only [List.mem_cons]; rintro (h | h)
        · exact .inr (.inl h)
        · rcases ih h with h | h
          · exact .inl h
          · exact .inr (.inr h)

theorem mem_eraseKey {α : Type} (l : List (Nat × α)) (n : Nat) (p : Nat × α) : p ∈ eraseKey l n → p ∈ l := by
  induction l with
  | nil => simp [eraseKey]
  | cons q l ih =>
    obtain ⟨k, x⟩ := q
    simp only [eraseKey]
    split
    · intro h; simp [h]
    · simp only [List.mem_cons]; rintro (h | h)
      · exact .inl h
      · exact .inr (ih h)

theorem insertKey_rising {α : Type} (l : List (Nat × α)) (n : Nat) (v : α) (h : Rising l) :
    Rising (insertKey l n v) := by
  induction l with
  | nil => simp [insertKey, Rising]
  | cons p l ih =>
    obtain ⟨k, x⟩ := p
    rw [Rising, List.pairwise_cons] at h
    simp only [insertKey]
    split
    · rename_i hlt
      simp only [Rising, List.pairwise_cons, List.mem_cons]
      refine ⟨?_, h.1, h.2⟩
      rintro q (rfl | hq)
      · exact hlt
      · have := h.1 q hq; simp only at this ⊢; omega
    · split
      · subst_vars
        simp only [Rising, List.pairwise_cons]
        exact ⟨h.1, h.2⟩
      · simp only [Rising, List.pairwise_cons]
        refine ⟨?_, ih h.2⟩
        intro q hq
        rcases mem_insertKey l n v q hq with rfl | hq
        · simp only; omega
        · exact h.1 q hq

theorem eraseKey_rising {α : Type} (l : List (Nat × α)) (n : Nat) (h : Rising l) : Rising (eraseKey l n) := by
  induction l with
  | nil => exact h
  | cons p l ih =>
    obtain ⟨k, x⟩ := p
    rw [Rising, List.pairwise_cons] at h
    simp only [eraseKey]
    split
    · exact h.2
    · simp only [Rising, List.pairwise_cons]
      exact ⟨fun q hq => h.1 q (mem_eraseKey l n q hq), ih h.2⟩

end Sys2Proof

namespace Sys2Proof.Machine

/-! ## The canonical form -/

/-- The canonical form, as a proposition. -/
theorem wf_iff (m : List Host.Cell) : Memory.wf m = true ↔ Rising m ∧ ∀ c ∈ m, c.2 ≠ 0 := by
  induction m with
  | nil => simp [Memory.wf, Rising]
  | cons p l ih =>
    obtain ⟨a, b⟩ := p
    cases l with
    | nil => simp [Memory.wf, Rising]
    | cons q l =>
      obtain ⟨a', b'⟩ := q
      simp only [Memory.wf, Bool.and_eq_true, bne_iff_ne, decide_eq_true_eq, ih, Rising, List.pairwise_cons,
        List.mem_cons]
      constructor
      · rintro ⟨⟨hb, hlt⟩, ⟨h1, h2⟩, hz⟩
        refine ⟨⟨?_, h1, h2⟩, ?_⟩
        · rintro q (rfl | hq)
          · exact hlt
          · have := h1 q hq; omega
        · rintro c (rfl | hc)
          · exact hb
          · exact hz c hc
      · rintro ⟨⟨h0, h1, h2⟩, hz⟩
        exact ⟨⟨hz (a, b) (.inl rfl), h0 (a', b') (.inl rfl)⟩, ⟨h1, h2⟩, fun c hc => hz c (.inr hc)⟩

theorem memSet_wf (m : List Host.Cell) (a : Nat) (b : Byte) (h : Memory.wf m = true) :
    Memory.wf (memSet m a b) = true := by
  rw [wf_iff] at h ⊢
  unfold memSet
  split
  · exact ⟨eraseKey_rising m a h.1, fun c hc => h.2 c (mem_eraseKey m a c hc)⟩
  · rename_i hb
    refine ⟨insertKey_rising m a b h.1, fun c hc => ?_⟩
    rcases mem_insertKey m a b c hc with rfl | hc
    · exact hb
    · exact h.2 c hc

theorem memWrite_wf (m : List Host.Cell) (a : Nat) (bs : List Byte) (h : Memory.wf m = true) :
    Memory.wf (memWrite m a bs) = true := by
  induction bs generalizing m a with
  | nil => exact h
  | cons b l ih => exact ih _ _ (memSet_wf m a b h)

theorem memWriteMask_wf (m : List Host.Cell) (a : Nat) (bs : List (Byte × Bool)) (h : Memory.wf m = true) :
    Memory.wf (memWriteMask m a bs) = true := by
  induction bs generalizing m a with
  | nil => exact h
  | cons b l ih =>
    obtain ⟨b, w⟩ := b
    simp only [memWriteMask]
    apply ih
    split
    · exact memSet_wf m a b h
    · exact h

theorem filter_wf (m : List Host.Cell) (p : Host.Cell → Bool) (h : Memory.wf m = true) :
    Memory.wf (m.filter p) = true := by
  rw [wf_iff] at h ⊢
  exact ⟨h.1.filter p, fun c hc => h.2 c (List.mem_filter.mp hc).1⟩

theorem memZero_wf (m : List Host.Cell) (a n : Nat) (h : Memory.wf m = true) :
    Memory.wf (memZero m a n) = true := filter_wf m _ h

/-! ## Reads after writes -/

theorem memGet_memSet_ne (m : List Host.Cell) (a c : Nat) (b : Byte) (h : c ≠ a) :
    memGet (memSet m a b) c = memGet m c := by
  unfold memGet memSet
  split
  · rw [lookup_eraseKey_ne m a c h]
  · rw [lookup_insertKey_ne m a c b h]

theorem memGet_memSet_self (m : List Host.Cell) (a : Nat) (b : Byte) (h : Memory.wf m = true) :
    memGet (memSet m a b) a = b := by
  unfold memGet memSet
  split
  · rename_i hb; rw [lookup_eraseKey_self m a ((wf_iff m).mp h).1, hb]; rfl
  · rw [lookup_insertKey_self]; rfl

/-- A write leaves every byte outside its range alone. -/
theorem memGet_memWrite_outside (m : List Host.Cell) (a c : Nat) (bs : List Byte)
    (h : c < a ∨ a + bs.length ≤ c) : memGet (memWrite m a bs) c = memGet m c := by
  induction bs generalizing m a with
  | nil => rfl
  | cons b l ih =>
    simp only [List.length_cons] at h
    simp only [memWrite]
    rw [ih _ _ (by omega), memGet_memSet_ne m a c b (by omega)]

/-- A byte within the range of a write reads as written. -/
theorem memGet_memWrite_inside (m : List Host.Cell) (a i : Nat) (bs : List Byte) (hi : i < bs.length)
    (h : Memory.wf m = true) : memGet (memWrite m a bs) (a + i) = bs.getD i 0 := by
  induction bs generalizing m a i with
  | nil => simp at hi
  | cons b l ih =>
    simp only [memWrite]
    cases i with
    | zero =>
      rw [memGet_memWrite_outside _ _ _ _ (by omega), Nat.add_zero, memGet_memSet_self m a b h]; simp
    | succ i =>
      have := ih (memSet m a b) (a + 1) i (by simpa using hi) (memSet_wf m a b h)
      rw [show a + (i + 1) = a + 1 + i by omega, this]; simp

@[simp] theorem memRead_length (m : List Host.Cell) (a n : Nat) : (memRead m a n).length = n := by simp [memRead]

/-- Reading back a whole write. -/
theorem memRead_memWrite (m : List Host.Cell) (a : Nat) (bs : List Byte) (h : Memory.wf m = true) :
    memRead (memWrite m a bs) a bs.length = bs := by
  apply List.ext_getElem
  · simp
  · intro i h1 h2
    simp only [memRead, List.getElem_map, List.getElem_range]
    rw [memGet_memWrite_inside m a i bs h2 h]
    simp [List.getD_eq_getElem?_getD, List.getElem?_eq_getElem h2]

/-- A masked write leaves every byte outside its range, and every byte the mask leaves out, alone. -/
theorem memGet_memWriteMask_outside (m : List Host.Cell) (a c : Nat) (bs : List (Byte × Bool))
    (h : c < a ∨ a + bs.length ≤ c) : memGet (memWriteMask m a bs) c = memGet m c := by
  induction bs generalizing m a with
  | nil => rfl
  | cons b l ih =>
    obtain ⟨b, w⟩ := b
    simp only [List.length_cons] at h
    simp only [memWriteMask]
    rw [ih _ _ (by omega)]
    split
    · exact memGet_memSet_ne m a c b (by omega)
    · rfl

/-! ## Little-endian bytes -/

@[simp] theorem leBytes_length (n v : Nat) : (leBytes n v).length = n := by
  induction n generalizing v with
  | zero => rfl
  | succ n ih => simp [leBytes, ih]

theorem leNat_leBytes (n v : Nat) : leNat (leBytes n v) = v % 256 ^ n := by
  induction n generalizing v with
  | zero => simp [leBytes, leNat, Nat.mod_one]
  | succ n ih =>
    simp only [leBytes, leNat, ih, BitVec.toNat_ofNat]
    change v % 256 + _ = v % 256 ^ (n + 1)
    rw [Nat.pow_succ, Nat.mul_comm (256 ^ n) 256, Nat.mod_mul]

end Sys2Proof.Machine
end

