-- ==== Sys2Proof/Laws/Regions.lean ====
section
/-! SUPPORT. What regions, traps, releases and acquires do on a core that holds nothing back: one lemma for each
shared operation of the sequencer. -/

namespace Sys2Proof.Machine

/-- A core field set to what it holds. -/
theorem upCore_id (s : State) (f : Core → Core) (h : f s.core = s.core) : s.upCore f = s := by
  simp [State.upCore, h]

/-- Closing a region without buffered stores always succeeds. -/
theorem closeRegion_nil (s : State) (h : s.core.sbuf = []) : s.closeRegion = .ok (s.upCore Core.emptied) := by
  unfold State.closeRegion
  rw [h]
  rfl

/-- An instruction between two regions of a core without buffered stores. -/
theorem between_nil (s : State) (act : State → Res State) (h : s.core.sbuf = []) :
    s.between act = match act (s.upCore (fun c => c.emptied.shut)) with
      | .error e => .error e
      | .ok t => .ok (t.upCore (fun c => c.reopen s.core.closed)) := by
  unfold State.between
  rw [closeRegion_nil s h]
  rfl

/-- The same for an instruction that opens the next region itself. -/
theorem closing_nil (s : State) (act : State → Res State) (h : s.core.sbuf = []) :
    s.closing act = act (s.upCore (fun c => c.emptied.shut)) := by
  unfold State.closing
  rw [closeRegion_nil s h]
  rfl

/-- Emptying a line buffer that is empty changes nothing. -/
theorem noLines (s : State) (h : s.core.lines = []) : s.upCore (fun c => { c with lines := [] }) = s :=
  upCore_id s _ (by rw [← h])

/-- A core without lines has nothing to write back or drop. -/
theorem dropLines_nil (s : State) (p : LineBuf → Bool) (i : Word) (h : s.core.lines = []) :
    s.dropLines p i = .ok s := by
  have e : s.upCore (fun c => { c with lines := c.lines.filter (fun l => !p l) }) = s := by
    refine Eq.trans ?_ (noLines s h)
    simp [State.upCore, h]
  simp only [State.dropLines, h, List.filter_nil, State.writeBackAll, e]

/-- A core without lines has nothing to flush. -/
theorem flushLines_nil (s : State) (i : Word) (h : s.core.lines = []) : s.flushLines i = .ok s := by
  have e : s.upCore (fun c => { c with lines := c.lines.map (fun l => { l with dirty := 0 }) }) = s := by
    refine Eq.trans ?_ (noLines s h)
    simp [State.upCore, h]
  simp only [State.flushLines, h, State.writeBackAll, e]

/-- Nothing to await. -/
theorem awaitPosted_nil (s : State) (i : Word) (h1 : s.core.posted = []) (h2 : s.core.held = []) :
    s.awaitPosted i = .ok s := by simp [State.awaitPosted, h1, h2]

/-- A fence of a strand that holds nothing back. -/
theorem fenceLines_settled (s : State) (i : Word) (h : s.settled) : s.fenceLines i = .ok s := by
  obtain ⟨_, h2, h3, h4⟩ := h
  simp [State.fenceLines, dropLines_nil s _ i h2, awaitPosted_nil s i h3 h4]

/-- A release of a strand that holds nothing back. -/
theorem release_settled (s : State) (sc : Nat) (i : Word) (h : s.settled) : s.release sc i = .ok s := by
  simp [State.release, fenceLines_settled s i h, flushLines_nil s i h.2.1, h.2.2.1]

/-- An acquire of a strand that holds nothing back. -/
theorem acquire_settled (s : State) (g sc : Nat) (i : Word) (h : s.settled) : s.acquire g sc i = .ok s := by
  simp [State.acquire, fenceLines_settled s i h, flushLines_nil s i h.2.1, dropLines_nil s _ i h.2.1]

/-- The release an instruction implies, with nothing held back. -/
theorem impliedRelease_settled (s : State) (h : s.settled) : s.impliedRelease = .ok s := fenceLines_settled s 0 h

/-- A region's end keeps a strand settled. -/
theorem emptied_shut_settled (s : State) (h : s.settled) : (s.upCore (fun c => c.emptied.shut)).settled := by
  obtain ⟨_, h2, h3, h4⟩ := h
  exact ⟨rfl, h2, h3, h4⟩

/-- The port shut, no record is written. -/
theorem trace_shut (s : State) (k n sp it : Nat) (pc : BitVec 48) (h : s.trust.debugOpen = false) :
    s.trace k n sp it pc = s := by simp [State.trace, h]

/-- The port shut, no record of another kind is written either. -/
theorem traceLoop_shut (s : State) (k : Nat) (pc : BitVec 48) (h : s.trust.debugOpen = false) :
    s.traceLoop k pc = s := by
  simp only [State.traceLoop]
  split <;> exact trace_shut _ _ _ _ _ _ h

/-- Whether the supervisor's entry can be fetched does not depend on what a region's end changes. -/
theorem entry_emptied (s : State) : (s.upCore Core.emptied).entry? = s.entry? := rfl

/-- A trap taken by a strand that is ready for it (R420). -/
theorem trapEntry_ready (s : State) (vec : Word) (c : Nat) (tok : Bool) (i : Word) (epc : BitVec 48)
    (h : s.trapReady vec) : TrapTaken s (s.trapEntry c i epc false tok) (trapCauseWord c false tok) i epc vec := by
  obtain ⟨h1, h2, h3, h4⟩ := h
  have h5 : (s.upCore Core.emptied).entry? = some vec := (entry_emptied s).trans h3
  have h6 : s.trapEntry c i epc false tok = (s.upCore Core.emptied).trapNow c i epc false tok := by
    simp [State.trapEntry, h1, closeRegion_nil s h2]
  rw [h6, State.trapNow, h5]
  simp only
  rw [traceLoop_shut (s.upCore Core.emptied) _ _ h4]
  exact ⟨rfl, rfl, rfl, rfl, rfl, rfl, rfl, rfl, rfl, rfl, rfl, rfl, rfl, rfl⟩

end Sys2Proof.Machine
end

