-- ==== Sys2Proof/Laws/Scalar.lean ====
section
/-! SUPPORT. What the shared operations of the scalar and control instructions do, in the words of Safety. -/

namespace Sys2Proof.Machine

/-- Reading a list after one entry was replaced. -/
theorem getD_upd {α} (d : α) (l : List α) (i j : Nat) (x : α) : (upd d l i x).getD j d = if j = i then x else l.getD j d := by
  induction l generalizing i j with
  | nil =>
    induction i generalizing j with
    | zero => cases j <;> simp [upd]
    | succ i ih => cases j with
      | zero => simp [upd]
      | succ j => have := ih j; simp [upd] at *; simpa using this
  | cons y l ih =>
    cases i <;> cases j <;> simp [upd]
    rename_i i j
    simpa using ih i j

/-- An instruction that writes register `d` and moves on has `ScalarResult`. -/
theorem scalar_ok (s : State) (d : Nat) (v : Word) (n : Nat) : ScalarResult s ((s.setS d v).advance n) d v 0 n := by
  unfold ScalarResult State.setS
  split
  · simp_all [State.advance, State.upCore]
  · simp only [State.advance, State.upCore, State.upRegs, getD_upd]; simp_all

/-- An instruction that writes register `d`, ORs flags in and moves on has `ScalarResult`. -/
theorem scalarF_ok (s : State) (d : Nat) (v : Word) (f) (n : Nat) : ScalarResult s (((s.setS d v).orFlags f).advance n) d v f n := by
  unfold ScalarResult State.setS
  split
  · simp_all [State.advance, State.upCore, State.orFlags, State.upRegs]
  · simp only [State.advance, State.upCore, State.upRegs, getD_upd, State.orFlags]; simp_all

/-- An instruction whose meaning is `State.alu` completes with its value. -/
theorem gives_alu (i) (s : State) (o : OpA) (v w : Word) (h : exec i s = s.alu o v) (hv : v = w) :
   Gives i s (fun t => ScalarResult s t o.d.toNat w 0 o.len) := by
  subst hv; exact ⟨_, h, scalar_ok _ _ _ _⟩

/-- An instruction whose meaning is `State.aluFlags` completes with its value and flags. -/
theorem gives_aluF (i) (s : State) (o : OpA) (v w : Word) (f g) (h : exec i s = s.aluFlags o v f) (hv : v = w) (hf : f = g) :
   Gives i s (fun t => ScalarResult s t o.d.toNat w g o.len) := by
  subst hv; subst hf; exact ⟨_, h, scalarF_ok _ _ _ _ _⟩

/-- A stage predicate written, and nothing else. -/
theorem setQ_ok (s : State) (d : Nat) (hd : d < 8) (b : Bool) : PredicateResult s ((s.setQ d b).advance 1) d b := by
  refine ⟨?_, rfl⟩
  intro i
  simp only [State.advance, State.upCore, State.setQ, State.upRegs]
  have h8 : i < 8 ∨ 8 ≤ i := by omega
  rcases h8 with h | h
  · revert h hd
    intro hd h
    have : d = 0 ∨ d = 1 ∨ d = 2 ∨ d = 3 ∨ d = 4 ∨ d = 5 ∨ d = 6 ∨ d = 7 := by omega
    have : i = 0 ∨ i = 1 ∨ i = 2 ∨ i = 3 ∨ i = 4 ∨ i = 5 ∨ i = 6 ∨ i = 7 := by omega
    cases b <;> rcases ‹d = 0 ∨ _› with rfl|rfl|rfl|rfl|rfl|rfl|rfl|rfl <;> rcases ‹i = 0 ∨ _› with rfl|rfl|rfl|rfl|rfl|rfl|rfl|rfl <;> simp
  · simp [BitVec.getLsbD_of_ge, h] <;> omega

/-- A transfer to a good signed target succeeds, and its program counter is that target. -/
theorem goto_ok (s : State) (f) (target : Int) (h : TargetGood s target) :
  s.goto (targetNat target) f = .ok ((f s).jump (targetNat target)) ∧ BitVec.ofNat 48 (targetNat target) = BitVec.ofInt 48 target := by
  obtain ⟨h0, h4, hl, hb⟩ := h
  have ht : targetNat target = target.toNat := by
    unfold targetNat wrapTo
    congr 1
    exact Int.emod_eq_of_lt h0 (by omega)
  constructor
  · unfold State.goto targetOk
    rw [ht]
    have : target.toNat % 4 = 0 := by omega
    have : target.toNat + 4 ≤ s.codeLength := by omega
    simp [*]
  · rw [ht]
    obtain ⟨n, rfl⟩ : ∃ n : Nat, target = n := ⟨target.toNat, by omega⟩
    rw [BitVec.ofInt_natCast, Int.toNat_natCast]

/-- What `State.branch` does, taken and not taken. -/
theorem branch_ok (i : Instr) (s : State) (o : OpB) (c : Bool) (P : Prop) (h : exec i s = s.branch c o) (hc : c = true ↔ P) :
    let target := (s.core.pc.toNat : Int) + 4 * o.disp.toInt
    (P → TargetGood s target → Gives i s (fun t => PcOnly s t (BitVec.ofInt 48 target))) ∧
    (¬P → Gives i s (fun t => PcOnly s t (s.core.pc + 4))) := by
  intro target
  constructor
  · intro hp hg
    have := goto_ok s (fun s => s) target hg
    refine ⟨s.jump (targetNat target), ?_, ?_⟩
    · rw [h, State.branch, hc.mpr hp]; simp only [if_true, State.target, branchTarget]; rw [this.1]; rfl
    · unfold PcOnly; rw [← this.2]; rfl
  · intro hp
    refine ⟨s.advance 1, ?_, rfl⟩
    rw [h, State.branch]; simp_all

/-- A transfer to a good target succeeds. -/
theorem gotoN (s : State) (f) (n : Nat) (h : TargetGood s n) : s.goto n f = .ok ((f s).jump n) := by
  obtain ⟨h0, h4, hl, hb⟩ := h
  unfold State.goto targetOk
  have : n % 4 = 0 := by omega
  have : n + 4 ≤ s.codeLength := by omega
  simp [*]

end Sys2Proof.Machine
end

