-- ==== Sys2Proof/Laws/Undefined.lean ====
section
/-! SUPPORT. What making bytes undefined can change: memory, the translation caches, the counter of free
values and what is asked of other packages, and nothing else of the machine. -/

namespace Sys2Proof.Machine

/-- `t` is `s` but for memory, translation caches, the free-value counter and the links. -/
def State.touched (s t : State) : Prop := t = { s with mem := t.mem, xl := t.xl, drawn := t.drawn, links := t.links }

theorem touched_refl (s : State) : s.touched s := rfl

theorem touched_trans {s t u : State} (h : s.touched t) (k : t.touched u) : s.touched u := by
  unfold State.touched at *; rw [k, h]

theorem touched_foldl {α : Type} (f : State → α → State) (h : ∀ (s : State) (a : α), s.touched (f s a)) (l : List α) (s : State) :
    s.touched (l.foldl f s) := by
  induction l generalizing s with
  | nil => exact touched_refl s
  | cons a l ih => exact touched_trans (h s a) (ih (f s a))

/-- A drawn byte is zero, one of those given, or one the context wrote (R11). -/
theorem drawByte_from (s : State) (given : List Byte) : (s.drawByte given).1 ∈ 0 :: (given ++ s.ownBytes) := by
  have h : Config.freePick s.drawn % ((given ++ s.ownBytes).length + 1) < (0 :: (given ++ s.ownBytes)).length := by
    rw [List.length_cons]; exact Nat.mod_lt _ (by omega)
  simp only [State.drawByte, List.getD_eq_getElem?_getD, List.getElem?_eq_getElem h, Option.getD_some]
  exact List.getElem_mem h

theorem drawBytes_touched (l : List (List Byte)) (s : State) : s.touched (State.drawBytes l s).2 := by
  induction l generalizing s with
  | nil => rfl
  | cons g l ih => exact touched_trans (t := (s.drawByte g).2) rfl (ih (s.drawByte g).2)

theorem drawOver_touched (bs : List Byte) (s : State) : s.touched (s.drawOver bs).2 := drawBytes_touched _ s

theorem poke_touched (s : State) (a : Nat) (bs : List Byte) : s.touched (s.poke a bs) := rfl

theorem viewPlace_touched {s t : State} {v : View} {off a : Nat} {need : PageNeed} {i : Word}
    (h : s.viewPlace v off need i = .ok (a, t)) : s.touched t := by
  unfold State.viewPlace State.translate at h
  split at h
  · split at h <;> cases h
    rfl
  · dsimp only at h
    repeat' split at h
    all_goals cases h
    rfl

theorem blurView_touched (v : View) (k off n : Nat) (s : State) : s.touched (State.blurView v k off n s) := by
  induction k generalizing off n s with
  | zero => rfl
  | succ k ih =>
    unfold State.blurView
    split
    · rfl
    · refine touched_trans ?_ (ih _ _ _)
      split
      · rename_i h
        exact touched_trans (viewPlace_touched h)
          (touched_trans (drawOver_touched _ _) (poke_touched _ _ _))
      · rfl

/-- Making the rest of a command undefined changes only memory, translation caches and the counter. -/
theorem blurRest_touched (s : State) (c : Cmd) (u : Nat) : s.touched (s.blurRest c u) := by
  unfold State.blurRest
  split
  · exact touched_foldl _ (fun s a => touched_foldl _ (fun s r =>
      touched_trans (drawOver_touched _ _) (poke_touched _ _ _)) _ s) _ s
  · exact touched_foldl _ (fun s r => blurView_touched _ _ _ _ s) _ s

/-- The same for a command of the copy engine, a table run among them. -/
theorem blurCopy_touched (s : State) (x : Cmd) (u : Nat) : s.touched (s.blurCopy x u) := by
  unfold State.blurCopy
  split
  · split
    · exact blurView_touched _ _ _ _ s
    · exact touched_refl s
  · exact blurRest_touched s x u

/-- The started commands of a core made undefined. -/
theorem blurStarted_touched (s : State) : s.touched s.blurStarted :=
  touched_foldl _ (fun s x => blurCopy_touched s x x.cursor) _ s

theorem abandonHere_touched (s : State) : s.touched s.abandonHere :=
  touched_trans (blurStarted_touched s) rfl

/-- Every core as before, under an operation on one core that touches none. -/
theorem on_coreAt (s : State) (n m : Nat) (f : State → State) (h : ∀ t, State.touched t (f t)) :
    (s.on n f).coreAt m = s.coreAt m := by
  have e : ∀ t : State, f t = { t with mem := (f t).mem, xl := (f t).xl, drawn := (f t).drawn, links := (f t).links } := h
  unfold State.on
  rw [e (s.focus n)]
  by_cases hn : n = s.coreId
  · simp [State.focus, hn, State.coreAt]
  · simp only [State.focus, hn, if_false, State.coreAt]
    have hs : ¬ s.coreId = n := fun x => hn x.symm
    simp only [hs, if_false, lookup_insertKey_self, Option.getD_some]
    by_cases h1 : m = s.coreId
    · simp [h1]
    · simp only [h1, if_false]
      by_cases h2 : m = n
      · subst h2; simp [lookup_insertKey_self]
      · rw [lookup_insertKey_ne _ _ _ _ h2, lookup_eraseKey_ne _ _ _ h1, lookup_insertKey_ne _ _ _ _ h1,
          lookup_eraseKey_ne _ _ _ h2]

theorem on_work (s : State) (n : Nat) (f : State → State) (h : ∀ t, State.touched t (f t)) :
    (s.on n f).work = s.work := by
  have e : ∀ t : State, f t = { t with mem := (f t).mem, xl := (f t).xl, drawn := (f t).drawn, links := (f t).links } := h
  unfold State.on
  rw [e (s.focus n)]
  by_cases hn : n = s.coreId
  · simp [State.focus, hn]
  · have hs : ¬ s.coreId = n := fun x => hn x.symm
    simp [State.focus, hn, hs]

/-- Acts on cores that touch none leave the work and every core as they were, one after another. -/
theorem foldl_keeps {α : Type} (f : State → α → State)
    (h : ∀ (s : State) (a : α), (f s a).work = s.work ∧ ∀ n, (f s a).coreAt n = s.coreAt n) (l : List α) (s : State) :
    (l.foldl f s).work = s.work ∧ ∀ n, (l.foldl f s).coreAt n = s.coreAt n := by
  induction l generalizing s with
  | nil => exact ⟨rfl, fun _ => rfl⟩
  | cons a l ih => exact ⟨(ih _).1.trans (h s a).1, fun n => ((ih _).2 n).trans ((h s a).2 n)⟩

theorem on_keeps (s : State) (n : Nat) (f : State → State) (h : ∀ t, State.touched t (f t)) :
    (s.on n f).work = s.work ∧ ∀ m, (s.on n f).coreAt m = s.coreAt m :=
  ⟨on_work s n f h, fun m => on_coreAt s n m f h⟩

/-- The started commands of a core taken for the acting one leave every core as it was. -/
theorem blurAs_touched (k : Core) (s : State) :
    s.touched { ({ s with core := k } : State).blurStarted with core := s.core } := by
  have e := blurStarted_touched { s with core := k }
  unfold State.touched at *
  rw [e]

/-- Abandoned commands leave every core and the work as they were. -/
theorem abandon_keeps (s : State) (p : Nat → Bool) :
    (s.abandon p).work = s.work ∧ ∀ n, (s.abandon p).coreAt n = s.coreAt n := by
  have ids := foldl_keeps (fun s n => s.on n State.abandonHere) (fun t k => on_keeps t k _ abandonHere_touched)
  unfold State.abandon
  refine ⟨(foldl_keeps _ ?_ _ _).1.trans (ids _ _).1, fun n => ((foldl_keeps _ ?_ _ _).2 n).trans ((ids _ _).2 n)⟩ <;>
  · intro t r
    dsimp only
    split
    · exact on_keeps t _ _ (blurAs_touched _)
    · exact ⟨rfl, fun _ => rfl⟩

/-- Making one element of local memory undefined changes only memory and the counter. -/
theorem elemBlur_touched (s : State) (tag off st : Nat) (strided : Bool) (i : Nat) :
    s.touched (s.elemBlur tag off st strided i) :=
  touched_trans (drawOver_touched _ s) (poke_touched _ _ _)

/-- A vector store made undefined from element `e` on changes what its element function changes. -/
theorem blurStore_touched (s : State) (o : OpV) (e n : Nat) (f : Nat → State → State)
    (h : ∀ (i : Nat) (t : State), t.touched (f i t)) : s.touched (s.blurStore o e n f) := by
  refine touched_foldl _ (fun t k => ?_) _ s
  split
  · exact h _ t
  · exact touched_refl t

end Sys2Proof.Machine
end

