-- ==== Sys2Proof/Machine/HostRead.lean ====
section
/-! DEFINITION. What a host read of a memory-mapped register returns (00 R6): the register's fields as they stand,
reserved and write-only fields zero. A read changes nothing; the reads that do something have an event of their own. -/

namespace Sys2Proof.Machine

/-- A register put together from its fields: a value, the bit it starts at and its width. What no field names is
reserved and reads zero (R6). -/
def packed (fs : List (Nat × Nat × Nat)) : Word :=
  BitVec.ofNat 64 (fs.foldl (fun w f => w + f.1 % 2 ^ f.2.2 * 2 ^ f.2.1) 0)

/-- Eight bytes of a byte array; what nothing wrote is zero. -/
def wordAt (l : List Byte) (off : Nat) : Word := BitVec.ofNat 64 (field l off 8)

/-- Register `k` of a bank of 64-bit registers that holds one long bit vector. -/
def wideWord {n : Nat} (v : BitVec n) (k : Nat) : Word := BitVec.ofNat 64 (v.toNat / 2 ^ (64 * k))

/-! ## Registers every function has (R31, R99, R471, R477) -/

/-- A register of a virtual function or of the mailbox of the physical one. -/
def Fn.read (n : Fn) (phys : Bool) (off : Nat) : Word :=
  if off = 0 then packed [(n.mbox.cmd.toNat, 16, 8), (n.mbox.len.toNat, 0, 13)]
  else if off = 4 then
    packed [(b2n n.mbox.busy, 31, 1), (b2n n.mbox.done, 30, 1), (n.mbox.status.toNat, 16, 8), (n.mbox.rlen.toNat, 0, 13)]
  else if 0x1000 ≤ off ∧ off + 8 ≤ 0x2000 then wordAt n.mbox.buf (off - 0x1000)
  else if phys then 0
  else if 0x2000 ≤ off ∧ off + 8 ≤ 0x2800 then wordAt n.slots (off - 0x2000)
  else if off = 0x2800 then packed [(b2n n.lqRefused, 31, 1), (n.lqHead.toNat, 16, 7), (n.lqTail.toNat, 0, 7)]
  else if off = 0x2880 then packed [(n.cqBase.toNat, 12, 52), (n.cqSize.toNat, 0, 4)]
  else if off = 0x2888 then packed [(n.cqHead.toNat, 32, 17), (n.cqTail.toNat, 0, 17)]
  else if 0x3000 ≤ off ∧ off < 0x3080 ∧ off % 16 = 0 then n.pmevt.getD ((off - 0x3000) / 16) 0
  else if 0x3000 ≤ off ∧ off < 0x3080 ∧ off % 16 = 8 then (n.pmcnt.getD ((off - 0x3000) / 16) 0).zeroExtend 64
  else 0

/-! ## Registers of the physical function -/

/-- TIDSTAT (R301): two bits for each identifier. -/
def TidState.code : TidState → Nat
  | .free => 0
  | .live => 1
  | .retiring => 2
  | .reserved => 3

/-- Word `k` of TIDSTAT. -/
def Xlat.tidstat (x : Xlat) (k : Nat) : Word :=
  packed ((List.range 32).map (fun i => ((x.tid (32 * k + i)).state.code, 2 * i, 2)))

/-- WHOME (R302). -/
def Xlat.whomeWord (x : Xlat) : Word := packed ((List.range 16).map (fun i => (x.whome.getD i 0, 4 * i, 4)))

/-- The commands of a core, or of a save, that are paused on an entry. -/
def Core.pausedOn (c : Core) (e : Nat) : Nat := ((c.vq ++ c.mq ++ c.pq ++ c.cq).filter (fun x => x.paused == some e)).length

/-- The strands and commands that wait for an entry of the queue, commands of saved strands too (R416). -/
def State.waiters (s : State) (e : Nat) : Nat :=
  ((s.core :: s.parked.map (fun p => p.2)).map (fun c =>
    b2n (c.stall == .page e) + c.pausedOn e) ++ (s.work.pool.filterMap (fun r => r.save)).map (fun c => c.pausedOn e)).foldl
    (· + ·) 0

/-- The 16 bytes of a page-request entry with its waiters (R416). -/
def PageReq.bytes (e : PageReq) (waiters : Nat) : List Byte :=
  leBytes 6 e.addr ++ leBytes 1 e.tenant ++ leBytes 1 (e.need.toNat * 16 + e.reason % 4 * 4 + b2n e.bm * 2) ++
    leBytes 2 (min waiters 0xFFFF) ++ leBytes 2 0 ++ leBytes 4 e.opened

/-- Entry `e` of the page-request queue as it reads; one that is not open, zeros. -/
def State.prqBytes (s : State) (e : Nat) : List Byte :=
  match lookup s.xl.prq e with
  | some r => r.bytes (s.waiters e)
  | none => List.replicate 16 0

/-- PRQSTAT (R417). -/
def Xlat.prqstat (x : Xlat) : Word :=
  packed [(128 - (x.prq.filter (fun p => !p.2.reserved)).length, 16, 8), (x.prq.length, 0, 9)]

/-- LNKSTAT of a port (R393). -/
def Port.stat (p : Port) : Word := packed [(p.err.toNat, 32, 32), (p.peer.toNat, 8, 5), (p.state.code, 0, 3)]

/-- DBGSTAT.STATE of the core it names (R459). -/
def State.dbgState (s : State) : Nat :=
  let k := s.coreAt s.dbg.core
  if s.dbg.replaying.any (fun r => r.1 == s.dbg.core) then 3 else if k.stopped then 2 else if k.stopPending then 1 else 0

/-- A register of the debug port, which reads zero outside DEBUG (R459, R465, R468). DBGDATA reads what its last
read found. -/
def State.dbgRead (s : State) (off : Nat) : Word :=
  if !s.trust.debugOpen then 0
  else if off = 0x8008 then
    packed [(b2n s.dbg.busy, 63, 1), (b2n s.dbg.err, 60, 1), (s.dbgState, 58, 2), (s.dbg.core, 0, 10)]
  else if off = 0x8010 then s.dbg.reg
  else if off = 0x8018 then s.dbg.data
  else if off = 0x8030 then s.dbg.log
  else if off = 0x8040 then s.dbg.trcctl
  else if off = 0x8048 then s.dbg.trchead
  else if off = 0x8050 then s.dbg.trcdrop
  else if 0x8060 ≤ off ∧ off < 0x80C0 ∧ off % 8 = 0 then wideWord s.dbg.trcmask ((off - 0x8060) / 8)
  else 0

/-- KRSTAT of a tenant (R446). -/
def Rotation.stat (r : Rotation) : Word := packed [(r.num.toNat, 32, 32), (r.code.toNat, 0, 3)]

/-- SCRSTAT (R454). -/
def State.scrstat (s : State) : Word :=
  let dirty := ((List.range extents).filter (fun e => (s.xl.extent e).scrub != 0)).length
  packed [(s.sweep.scrNum.toNat, 32, 32), (dirty, 16, 16), (s.sweep.scrExt.getD 0, 0, 16)]

/-- The latency of a pseudo-channel for a cluster (R306): 0xFFFF where its stack is retired. -/
def State.latency (s : State) (p c : Nat) : Nat :=
  match lookup s.cal.lat p with
  | some v => v
  | none => (Config.latency (calBytes s.cal.installed p) p c).toNat

/-- The tables from 10_0000 on: calendars, latencies, refresh cuts, page requests, admission, ranks, ports and weights.
LNKSTAT is read at the second 8 bytes of its pair (log 105). -/
def State.readTables (s : State) (off : Nat) : Word :=
  if 0x100000 ≤ off ∧ off + 8 ≤ 0x140000 then
    wordAt (calBytes s.cal.pending ((off - 0x100000) / 256)) (off % 256)
  else if 0x140000 ≤ off ∧ off < 0x140000 + 2 * 192 * 1024 then
    let i := (off - 0x140000) / 2
    packed [(s.latency (i / 192) (i % 192), 0, 16)]
  else if 0x1A0000 ≤ off ∧ off < 0x1A1000 ∧ off % 4 = 0 then
    ((lookup s.cal.refcut ((off - 0x1A0000) / 4)).getD 0).zeroExtend 64
  else if 0x1B0000 ≤ off ∧ off < 0x1B1000 ∧ off % 8 = 0 then
    wordAt (s.prqBytes ((off - 0x1B0000) / 16)) (off % 16)
  else if 0x1C0000 ≤ off ∧ off < 0x1C0080 ∧ off % 4 = 0 then
    (s.links.admits.getD ((off - 0x1C0000) / 4) 0).zeroExtend 64
  else if off = 0x1C0080 then s.links.keydrop.zeroExtend 64
  else if 0x1D0000 ≤ off ∧ off < 0x1D8000 ∧ off % 8 = 0 then s.links.rank ((off - 0x1D0000) / 8)
  else if 0x1E0000 ≤ off ∧ off < 0x1E0040 ∧ off % 16 = 8 then (s.links.ports.getD ((off - 0x1E0000) / 16) Port.reset).stat
  else if 0x1F0000 ≤ off ∧ off < 0x1F0084 ∧ off % 4 = 0 then packed [((s.fn ((off - 0x1F0000) / 4)).weight.toNat, 0, 8)]
  else 0

/-- Partitions, translation, page requests and save areas (R107 to R110, R298 to R310, R416, R429, R430). -/
def State.readPlace (s : State) (off : Nat) : Word :=
  if 0x4000 ≤ off ∧ off + 8 ≤ 0x4800 then wordAt s.part.descr (off - 0x4000)
  else if off = 0x4804 then packed [(b2n s.part.busy, 31, 1), (s.part.code.toNat, 8, 3), (s.part.part.toNat, 0, 5)]
  else if 0x4810 ≤ off ∧ off + 8 ≤ 0x4870 ∧ off % 8 = 0 then wideWord s.part.fence ((off - 0x4810) / 8)
  else if 0x4900 ≤ off ∧ off < 0x4A00 ∧ off % 8 = 0 then s.part.budget.getD ((off - 0x4900) / 8) 0
  else if 0x4A00 ≤ off ∧ off < 0x4B00 ∧ off % 8 = 0 then packed [((s.fn ((off - 0x4A00) / 8)).evict.toNat, 62, 2)]
  else if off = 0x5000 then s.xl.survWord
  else if off = 0x5008 then packed [(s.xl.surv.length, 0, 5)]
  else if off = 0x5010 then s.xl.whomeWord
  else if 0x5100 ≤ off ∧ off < 0x5900 ∧ off % 8 = 0 then
    let t := s.xl.tid ((off - 0x5100) / 8)
    packed [(t.epoch.toNat, 8, 8), (t.hint.toNat, 0, 4)]
  else if off = 0x5908 then packed [(b2n s.xl.xlBusy, 63, 1), (b2n s.xl.xlErr, 62, 1), (s.xl.xlWhere.toNat, 0, 25)]
  else if off = 0x5A08 then packed [(b2n s.xl.patBusy, 31, 1), (s.xl.patCode.toNat, 0, 3)]
  else if 0x5B00 ≤ off ∧ off < 0x5B40 ∧ off % 8 = 0 then s.xl.tidstat ((off - 0x5B00) / 8)
  else if off = 0x5C08 then packed [(b2n s.cal.busy, 31, 1), (b2n s.cal.post.isSome, 30, 1), (s.cal.code.toNat, 0, 3)]
  else if off = 0x5D08 then s.xl.prqstat
  else if 0x5D20 ≤ off ∧ off < 0x5D40 ∧ off % 8 = 0 then
    packed ((List.range 64).map (fun i => (b2n (s.isOpen (64 * ((off - 0x5D20) / 8) + i)), i, 1)))
  else if 0x5E00 ≤ off ∧ off < 0x6E00 ∧ off % 16 = 0 then
    packed [(bits (s.saveArea ((off - 0x5E00) / 16)).base.toNat 47 21, 21, 27)]
  else if 0x5E00 ≤ off ∧ off < 0x6E00 ∧ off % 16 = 8 then
    let a := s.saveArea ((off - 0x5E00) / 16)
    packed [(a.state.toNat, 62, 2), (a.size.toNat, 0, 24)]
  else 0

/-- ENVSTAT (R484): WARN holds as long as a limit is passed. -/
def HostRegs.envstat (h : HostRegs) : Word :=
  packed [(h.pwr.toNat, 32, 16), (h.tmax.toNat, 24, 8), (h.tin.toNat, 16, 8),
    (b2n (decide (95 ≤ h.tmax.toNat ∨ 40 < h.tin.toNat ∨ 3600 < h.pwr.toNat)), 0, 1)]

/-- The sweeps and the module (R437 to R454, R458, R484). -/
def State.readSweeps (s : State) (off : Nat) : Word :=
  if off = 0x7010 then packed [(b2n s.sweep.retiringNow, 31, 1), (s.sweep.swCode.toNat, 0, 4)]
  else if off = 0x7018 then s.phaseWord
  else if off = 0x7020 then s.markWord
  else if off = 0x7028 then packed [(s.sweep.stalled.toNat, 32, 32), (s.sweep.refused.toNat, 0, 32)]
  else if off = 0x7050 then packed [(s.sweep.revNum.toNat, 32, 32), (s.sweep.revCore, 0, 10)]
  else if off = 0x7060 then s.scrstat
  else if 0x7200 ≤ off ∧ off < 0x7300 ∧ off % 8 = 0 then packed [(b2n (s.fn ((off - 0x7200) / 8)).zero, 0, 1)]
  else if off = 0x9000 then s.host.envstat
  else if 0xA000 ≤ off ∧ off < 0xAFF0 ∧ off % 16 = 0 then s.keymarkWord ((off - 0xA000) / 16)
  else if 0xA000 ≤ off ∧ off < 0xAFF0 ∧ off % 16 = 8 then (s.rotation ((off - 0xA000) / 16)).stat
  else 0

/-- A register of the physical function alone. -/
def State.readPhys (s : State) (off : Nat) : Word :=
  if off < 0x7000 then s.readPlace off
  else if 0x8000 ≤ off ∧ off < 0x8100 then s.dbgRead off
  else if off < 0x100000 then s.readSweeps off
  else s.readTables off

/-- What a host read of function `f` at an offset of BAR 0 returns (R6); nothing where the function is not reached
(R25, R26). -/
def State.hostRead (s : State) (f off : Nat) : Option Word :=
  if !s.mailOpen f then none
  else if f = physFn ∧ 0x4000 ≤ off then some (s.readPhys off)
  else some ((s.fn f).read (f == physFn) off)

end Sys2Proof.Machine
end

