-- ==== Sys2Proof/Tests/Slice0.lean ====
section
/-! SUPPORT. The model's own tests: ill-formed words that the checks refuse, words of the spec's encodings that
decode, single steps with results worked out from the spec, and states that meet the hypotheses of the
statements. -/

namespace Sys2Proof.Tests

set_option Elab.async false

open Sys2Proof.Machine

/-! ## Ill-formed instructions that WellFormed refuses -/

/-- Operands of format A without a literal. -/
def opA (d a b : BitVec 6) : OpA := ⟨d, a, b, 0⟩

theorem wf_reserved_field : (Instr.nop (opA 1 0 0)).wf = false := by decide
theorem wf_literal_in_source : (Instr.add (opA 1 62 2)).wf = false := by decide
theorem wf_literal_too_wide : (Instr.add ⟨1, 2, 62, 2 ^ 32⟩).wf = false := by decide
theorem wf_literal_without_field : (Instr.add ⟨1, 2, 3, 1⟩).wf = false := by decide
theorem wf_literal_float_double : (Instr.fadd 0 ⟨1, 2, 63, 0⟩).wf = false := by decide
theorem wf_rounding_mode : (Instr.fadd 6 (opA 1 2 3)).wf = false := by decide
theorem wf_predicate_number : (Instr.qset (opA 8 2 3)).wf = false := by decide
theorem wf_convert_code : (Instr.fcvt 0 (opA 1 2 9)).wf = false := by decide
theorem wf_token_number : (Instr.ktest (opA 1 32 0)).wf = false := by decide
theorem wf_token_beyond_launch :
    (Instr.ktest (opA 1 7 0)).wfAt ⟨64, 4, 0, 0, 0⟩ = false := by decide
theorem wf_handle_number : (Instr.hquery (opA 1 16 0)).wf = false := by decide
theorem wf_handle_fixed : (Instr.hdrop (opA 0 1 0)).wf = false := by decide
theorem wf_spawn_arguments : (Instr.spawn (opA 1 59 2)).wf = false := by decide
theorem wf_cluster_mask : (Instr.barrive (opA 0 2 3)).wf = false := by decide
theorem wf_control_register : (Instr.csrrd ⟨1, 0, 0x555⟩).wf = false := by decide
theorem wf_immediate_register : (Instr.addi ⟨62, 1, 0⟩).wf = false := by decide
theorem wf_branch_field : (Instr.br ⟨1, 0⟩).wf = false := by decide
theorem wf_branch_predicate : (Instr.brQ ⟨8, 0⟩).wf = false := by decide
theorem wf_stage_count : (Instr.loopsp 0 ⟨8, 0⟩).wf = false := by decide
theorem wf_scope_of_plain : (Instr.ld ⟨1, 0, 2, 3, 0, 1, 0, 0⟩).wf = false := by decide
theorem wf_store_source : (Instr.st ⟨62, 0, 2, 3, 0, 0, 0, 0⟩).wf = false := by decide
theorem wf_atomic_comparand : (Instr.atomAdd ⟨1, 0, 2, 3, 0, 0, 0, 0⟩ 1 1).wf = false := by decide
theorem wf_atomic_pair : (Instr.atom2Swap ⟨1, 0, 2, 0, 0, 0, 0, 0⟩ 2 0).wf = false := by decide
theorem wf_vector_group :
    (Instr.vmov ⟨63, 0, 0, 1, 0, 0, 0, 0, 0, 0, 0, 0⟩).wf = false := by decide
theorem wf_vector_tag :
    (Instr.vadd ⟨0, 0, 0, 0, 0, 0, 0, 0, 0, 0, 0, 0⟩).wf = false := by decide
theorem wf_vector_clamp :
    (Instr.vand ⟨0, 0, 0, 0, 0, 0, 0, 0, 1, 0, 0, 0⟩).wf = false := by decide
theorem wf_vector_inverse :
    (Instr.vmov ⟨0, 0, 0, 0, 0, 0, 0, 0, 0, 0, 1, 0⟩).wf = false := by decide
theorem wf_mask_number :
    (Instr.mnot ⟨8, 1, 0, 0, 0, 0, 0, 0, 0, 0, 0, 0⟩).wf = false := by decide
theorem wf_chain_token :
    (Instr.vchain ⟨2, 2, 4, 0, 0, 0, 0, 0, 0, 0, 0, 0⟩).wf = false := by decide
theorem wf_engine_reserved : (Instr.mswap ⟨0, 0, 0, 0, 1, 0, 0, 0⟩).wf = false := by decide
theorem wf_engine_rows : (Instr.mmul ⟨0, 0, 0, 0, 0, 0x3FFC0000, 0, 0⟩).wf = false := by decide
theorem wf_engine_register : (Instr.cpy ⟨0, 0, 0, 0, 0x3E0000, 0, 0, 0⟩).wf = false := by decide
theorem wf_engine_token : (Instr.mswap ⟨5, 0, 0, 0, 0, 0, 0, 0⟩).wfAt ⟨64, 4, 0, 0, 0⟩ = false := by decide
theorem wf_plait_columns : (Instr.plclr ⟨0, 0, 0, 0, 0, 0, 0, 0⟩).wf = false := by decide
theorem wf_copy_mask : (Instr.cpym ⟨0, 0, 0, 0, 0, 0, 0, 0⟩).wf = false := by decide
theorem wf_micro_order : (Instr.tableEnd .matrix 1).wf = false := by decide

/-! ## Small states that the tests start from -/

/-- A handle record of tenant 1 with every right of this package, unguarded. -/
def recAt (kind base len : Nat) : HRec :=
  HRec.sealed ⟨base, len, 0x7F, 1, 0, unguarded, 0xFFFFFFFF, 1, kind, true, 0, 0⟩ 1

/-- A context of tenant 1 with a supervisor of 64 bytes whose entry is its last word. -/
def ctx1 : Ctx := ⟨1, 0, 1, 1, 1, 1, 0, 16, [(0, ⟨some (recAt 3 131072 64), 1, false⟩), (5, ⟨some (recAt 2 0 4096), 1, false⟩)], 60⟩

/-- A strand of launch 1 with shares of 4096 bytes. -/
def job1 : Job := { Sys2Proof.Machine.Job.bare with
  launch := 1, strand := 1, ctx := 1, tenant := 1, lmBytes := 4096, cpBytes := 4096, code := ⟨0, 1, 131072, 64, 3⟩
  hlStart := 5, admitted := [1], coreGroup := some 0 }

/-- The machine after its last step of training, every stack live and with a slot for its walk unit, and with its host
link open. -/
def booted : State :=
  { State.reset with
    trust := { State.reset.trust with boot := 3 }
    cal := { State.reset.cal with installed := (List.range 16).map (fun st => (64 * st, [0xC2])) }
    xl := { State.reset.xl with surv := List.range 16, capacity := 2 ^ 40 } }

/-- A translation held by cluster 0: one 64-KiB page of tenant 1. -/
def pageAt (vpn frame kind : Nat) : XlEntry := ⟨0, 1, 0, 0, vpn, frame, kind, 15, true⟩

/-- A running strand: h2 is 4096 bytes of bank memory, h3 of HBM, h4 is REVOKED, the rest EMPTY; pages of both
and of the supervisor are in the translation cache of its cluster. -/
def run : State :=
  let r := booted
  { r with
    core := { r.core with
      job := some job1
      hcache := [⟨5, recAt 2 0 4096, none⟩, ⟨6, recAt 3 65536 4096, none⟩]
      live := { r.core.live with h := [.empty, .empty, .valid 5 1, .valid 6 1, .revoked 7 1] } }
    work := { r.work with ctxs := [ctx1] }
    xl := { r.xl with cache := [pageAt 0 (2 ^ 24) 2, pageAt 1 0 3, pageAt 2 1 3], extents := [(0, ⟨1, 0⟩)] } }

/-- `run` at another program counter. -/
def at_ (pc : BitVec 48) : State := run.upCore (fun c => { c with pc := pc })

/-- `run`, privileged. -/
def privy : State := run.upCore (fun c => { c with priv := true })

/-- Whether an operation succeeds. -/
def succeeds {α : Type} (r : Res α) : Bool :=
  match r with
  | .ok _ => true
  | .error _ => false

theorem ok_of_succeeds {α : Type} {r : Res α} (h : succeeds r = true) : ∃ x, r = .ok x := by
  cases r with
  | ok x => exact ⟨x, rfl⟩
  | error e => cases h

/-- The place an access names, where its check and its translation pass. -/
def placed (s : State) (h off n : Nat) (r : Right) : Option (View × Nat) :=
  match s.readHandle h off n r 0 with
  | .error _ => none
  | .ok (v, u) =>
    match v.local_, u.viewPlace v off r.page (accessInfo off 0 h) with
    | true, .ok (a, _) => some (v, a)
    | _, _ => none

theorem finds_of_placed {s : State} {h off n a : Nat} {r : Right} {v : View} (hp : placed s h off n r = some (v, a)) :
    ∃ u x, s.finds h off n r v a u x := by
  unfold placed at hp
  split at hp
  · cases hp
  · next v' u hr =>
    split at hp
    · next a' x hl hv =>
      cases hp
      exact ⟨u, x, hr, hl, hv⟩
    · cases hp

/-! ## States that meet the hypotheses of the statements

Each theorem `witness_<statement>` names data that meet every hypothesis of the statement of that name, each
clause at a boundary of its range. -/

/-- Operands of format M: register 1, handle `h`, a literal offset. -/
def opM (h : BitVec 4) (off : Word) (size order : BitVec 2) : OpM := ⟨1, h, 62, size, order, 0, 0, off⟩

/-- The access of `opM` finds a place, in a range of kind `k`. -/
def Found_ (s : State) (o : OpM) (n : Nat) (r : Right) (k a : Nat) : Prop :=
  ∃ v u x, s.finds o.h.toNat (s.memOff o) n r v a u x ∧ v.kind = k

theorem found_of_placed {s : State} {o : OpM} {n k a : Nat} {r : Right}
    (h : (placed s o.h.toNat (s.memOff o) n r).map (fun p => (p.1.kind, p.2)) = some (k, a)) :
    Found_ s o n r k a := by
  cases hp : placed s o.h.toNat (s.memOff o) n r with
  | none => rw [hp] at h; cases h
  | some p =>
    rw [hp] at h
    cases h
    obtain ⟨u, x, hf⟩ := finds_of_placed (v := p.1) (a := p.2) hp
    exact ⟨p.1, u, x, hf, rfl⟩

theorem witness_FloatComparesAndConverts : (3 : BitVec 3).toNat ≤ 3 ∧
    (opA 1 2 0).b.toNat = 0 ∧ (opA 1 2 4).b.toNat = 4 := by decide

theorem witness_PredicateResults : (opA 7 2 3).d.toNat < 8 := by decide

theorem witness_BranchResults :
    let s (v : Word) (q : Bool) : State := ((at_ 8).setS 1 v).setQ 1 q
    let taken : OpB := ⟨1, 0xFFFE⟩
    let last : OpB := ⟨1, 13⟩
    TargetGood (s 0 true) (8 + 4 * taken.disp.toInt) ∧ TargetGood (s 0 true) (8 + 4 * last.disp.toInt) ∧
      ((s 0 true).getS 1).toInt = 0 ∧ ((s (-1) false).getS 1).toInt < 0 ∧ 0 < ((s 1 false).getS 1).toInt ∧
      (s 0 true).core.live.q.getLsbD 1 = true ∧ (s 0 false).core.live.q.getLsbD 1 = false := by
  unfold TargetGood TargetIn; decide

theorem witness_CallResults :
    TargetGood run ((run.opB ⟨1, 2, 62, 60⟩).toNat : Nat) ∧ TargetGood (run.setS 1 60) ((run.setS 1 60).opA (opA 0 1 0)).toNat := by
  unfold TargetGood TargetIn; decide

theorem witness_LoopInit :
    let c (v : Word) : Int := ((run.setS 1 v).getS 1).toInt
    TargetGood run (0 + 4 * (15 : BitVec 16).toInt) ∧ c 0 ≤ 0 ∧ (0 < c 1 ∧ c 1 < 2 ^ 32) ∧
      (0 < c 0xFFFFFFFF ∧ c 0xFFFFFFFF < 2 ^ 32) ∧ 2 ^ 32 ≤ c 0x100000000 := by
  unfold TargetGood TargetIn; decide

/-- `run` at its second word with loop counter 0 at `lc`, and predicates `q`. -/
def looping (lc : W32) (q : BitVec 8) : State :=
  (at_ 4).upRegs (fun g => { g with lc := [lc, 0, 0, 0], q := q })

theorem witness_LoopBackEdges :
    let s := looping 2 0
    let z := looping 1 0
    (s.core.stopPending = false ∧ s.trust.debugOpen = false ∧ s.core.live.lc.getD 0 0 - 1 ≠ 0 ∧
      TargetGood s (4 + 4 * (0xFFFF : BitVec 16).toInt)) ∧ z.core.live.lc.getD 0 0 - 1 = 0 ∧
    (∃ i, i < 8 ∧ (looping 1 0x40).core.live.q.getLsbD (i - 1) = true ∧ i ≠ 0) ∧
    (∀ i, i < 8 → z.core.live.q.getLsbD (i - 1) = false) := by
  unfold TargetGood TargetIn; refine ⟨by decide, by decide, ⟨7, by decide⟩, by decide⟩

theorem witness_RegionBoundary : ∃ u, run.drain run.core.sbuf = .ok u := ⟨run, rfl⟩

/-- `run` with flag `f` raised and enabled. -/
def flagged (f : Word) : State := run.upRegs (fun g => { g with flags := f, flagen := 0x10 })

/-- The strand of `run`, whatever its core holds besides, has the supervisor of `ctx1`. -/
theorem supervisor_run (s : State) (hj : s.core.job = some job1) (hc : s.ctx? 1 = some ctx1) (hk : s.trust.sealNo = 1) :
    s.supervisor = some (⟨0, 1, 131072, 64, 3⟩, 60) := by
  have h : (ctx1.entry 0).rec_ = some (HRec.sealed ⟨131072, 64, 0x7F, 1, 0, unguarded, 0xFFFFFFFF, 1, 3, true, 0, 0⟩
    s.trust.sealNo) := by rw [hk]; rfl
  exact supervisor_sealed hj hc h (by decide)

theorem entry_run (s : State) (hj : s.core.job = some job1) (hc : s.ctx? 1 = some ctx1) (hk : s.trust.sealNo = 1)
    (hf : s.entryFaults ⟨0, 1, 131072, 64, 3⟩ 60 = false) : s.entry? = some 60 := by
  simp only [State.entry?, supervisor_run s hj hc hk]
  exact if_neg (by rw [show (s.entryFaults _ _) = false from hf]; decide)

theorem ready : run.trapReady 60 := ⟨rfl, rfl, entry_run _ rfl rfl rfl (by decide +kernel), rfl⟩

/-- The bounds of the code of `run` at which a transfer of BranchResults, CallResults, LoopInit, LoopBackEdges or SPAWN
traps. -/
theorem witness_RefusesTarget : run.codeLength ≤ 2 ^ 48 ∧ (∀ n ∈ [(-4 : Int), 62, 64], ¬TargetGood run n) ∧
    run.trapReady 60 := by
  refine ⟨by decide, ?_, ready⟩
  unfold TargetGood TargetIn; decide

theorem witness_TrapInstructions : run.trapReady 60 ∧
    ((flagged 1).core.live.flags &&& (flagged 1).core.live.flagen &&& 0x1F = 0) ∧
    ((flagged 16).core.live.flags &&& (flagged 16).core.live.flagen &&& 0x1F ≠ 0) ∧ (flagged 16).trapReady 60 :=
  ⟨ready, by decide, by decide, ⟨rfl, rfl, entry_run _ rfl rfl rfl (by decide +kernel), rfl⟩⟩

theorem witness_ReturnFromTrap :
    let s := privy.upCore (fun c => { c with epc := 60 })
    s.core.priv = true ∧ s.core.sbuf = [] ∧ s.core.job = some job1 ∧ s.core.epc.toNat % 4 = 0 ∧
      s.core.epc.toNat + 4 ≤ job1.code.length := by decide +kernel

theorem witness_PrivilegeTraps : run.trapReady 60 ∧ 0x800 ≤ (0x800 : BitVec 12).toNat := ⟨ready, by decide⟩

theorem witness_DebugStop :
    let d : State := { privy with trust := { privy.trust with lcNow := .debug } }
    (d.core.priv = true ∧ d.trust.lcNow = .debug) ∧ privy.core.priv = true ∧ privy.trust.lcNow ≠ .debug := by
  decide

/-- A launch of two strands, of which `job1` is one. -/
def launch1 : Launch :=
  ⟨1, 1, 0, 0, ⟨0, 0, 0, 0, 5, 1, [2], 1, 0, 0, [2], 4096, 4096, 64, 32, 0, 0, 0, 1, 256, [], 0, 0, 0, 0, 0, 0, [], 0, 0, 0, []⟩,
    0, 0, 0, [1], job1.code, .running, [], [], [], [], [], 2, 2, [], [], [], [], [], none, none, 0, false, none, none, 0, false, 0, 0, 0, none⟩

/-- `run` with its launch. -/
def launched : State := { run with work := { run.work with launches := [launch1] } }

theorem settled_run : run.settled := ⟨rfl, rfl, rfl, rfl⟩

theorem witness_StrandEnds :
    let p := launched.upCore (fun c => { c with priv := true })
    launched.settled ∧ launched.core.queued = [] ∧ launched.core.job = some job1 ∧
      launched.launch? job1.launch = some launch1 ∧ launched.core.stopPending = false ∧ p.core.priv = true :=
  ⟨⟨rfl, rfl, rfl, rfl⟩, rfl, rfl, rfl, rfl, rfl⟩

theorem witness_CodeChanges :
    succeeds (privy.readHandle 2 0 4 .rdx 0) = true ∧ privy.core.priv = true ∧ privy.core.sbuf = [] ∧
    privy.core.lines = [] ∧ privy.memOk ∧ ∃ v u, privy.readHandle 2 4092 4 .cwx 0 = .ok (v, u) ∧ u.memOk ∧
      u.core.sbuf = [] ∧ u.core.lines = [] ∧ v.local_ = true ∧
      ∃ x, u.viewPlace v 4092 2 (accessInfo 4092 0 2) = .ok (bmBase + 4092, x) ∧
        u.writableAt (bmBase + 4092) 4 :=
  ⟨by decide +kernel, rfl, rfl, rfl, rfl, _, _, rfl, rfl, rfl, rfl, rfl, _, rfl, by unfold State.writableAt; decide +kernel⟩

theorem witness_ControlRead : run.core.job = some job1 ∧ (0x7FF : BitVec 12).toNat < 0x800 ∧ privy.core.priv = true := by
  decide +kernel

theorem witness_ControlWrite : (0x013 : BitVec 12).toNat < 0x800 ∧ privy.core.priv = true ∧
    (let o : OpJ := ⟨1, 2, 0x820⟩;
      o.n.toNat = 0x820 ∧ bits (0x3000000000000000 ^^^ 0x3000000000000000) 61 60 = 0) ∧
    ({ n := 0x830, d := 0, a := 1 } : OpJ).n.toNat = 0x830 := by decide

theorem lm_last (r : Right) (hr : r = .rd ∨ r = .w ∨ r = .at) :
    Found_ run (opM 0 4088 3 0) 8 r 0 (lmPlace 0 4088) := by
  rcases hr with rfl | rfl | rfl <;> exact found_of_placed (by decide +kernel)

theorem witness_LoadResults :
    (Found_ run (opM 0 4088 3 1) 8 .rd 0 (lmPlace 0 4088) ∧ 4088 % 8 = 0 ∧ lmPlace 0 4088 % 8 = 0 ∧ run.settled ∧
      run.goodAt (lmPlace 0 4088) 8) ∧
    Found_ run (opM 2 4095 0 0) 1 .rd 2 (bmBase + 4095) ∧ run.goodAt (bmBase + 4095) 1 :=
  ⟨⟨found_of_placed (by decide +kernel), by decide, by decide, settled_run, by unfold State.goodAt; decide +kernel⟩,
    found_of_placed (by decide +kernel), by unfold State.goodAt; decide +kernel⟩

/-- A buffered store of the last 8 bytes of a line of HBM. -/
def stored : State :=
  run.upCore (fun c => { c with sbuf := [⟨⟨3, true, 0, 65536, 56, 4096, 0x7F, some 6, unguarded, none, 3, 0⟩, 56, leBytes 8 7⟩] })

/-- A line of the line buffer with its first and last byte dirty. -/
def lined : State :=
  run.upCore (fun c => { c with
    lines := [⟨1, List.replicate 64 5, BitVec.allOnes 64, 0x8000000000000001#64, unguarded⟩] })

theorem witness_LoadResults_buffers :
    (∃ e, stored.core.sbuf = [] ++ [e] ∧ e.view.local_ = true ∧ e.place ≤ 60 ∧ 60 + 4 ≤ e.place + e.bytes.length) ∧
    Found_ stored (opM 3 60 2 0) 4 .rd 3 60 ∧
    (∃ y, lined.core.sbuf = [] ∧ lined.core.lines.length ≤ 32 ∧ 126 % 2 = 0 ∧
      lined.core.lines.find? (fun l => l.line == 126 / 64) = some y ∧ ∀ k, k < 2 → y.valid.getLsbD (126 % 64 + k) = true) ∧
    Found_ lined (opM 3 126 1 0) 2 .rd 3 126 :=
  ⟨⟨_, rfl, rfl, by decide, by decide⟩, found_of_placed (by decide +kernel),
    ⟨_, rfl, by decide, rfl, rfl, by decide⟩, found_of_placed (by decide +kernel)⟩

/-- `run` whose h2 is a range of bank memory of rank 1, which lies on package 1 under key 7. -/
def away : State :=
  let s := run.upCore (fun c => { c with hcache := [⟨5, { recAt 2 0 4096 with local_ := false, rank := 1 }, none⟩] })
  { s with links := { s.links with ranks := [(1, 0x8000000700080000)] } }

/-- `away` with the response to the request that its strand awaits. -/
def replied (st : BitVec 8) (op : HoopOp) (bs : List Byte) : State :=
  let s := away.upCore (fun c => { c with remote := some 9 })
  { s with links := { s.links with
      reqs := [⟨9, 0, none, 0, op, 1, false, 4088, [], 8, 0, false, false, some (st, bs), 1, 7, 1, 0, 1, 0, 0⟩] } }

theorem answered_replied (st : BitVec 8) (op : HoopOp) (bs : List Byte) : (replied st op bs).answered st bs :=
  ⟨9, _, rfl, rfl, rfl⟩

theorem witness_LoadResults_packages :
    (∃ v u, away.readHandle 2 4088 8 .rd 0 = .ok (v, u) ∧ v.local_ = false ∧ u.rankStops v.rank = none ∧
      u.core.remote = none ∧ u.rankFault v.rank true = none ∧ u.requestsFull = false) ∧ away.core.sbuf = [] ∧ 4088 % 8 = 0 ∧
    (∃ v, (replied 0 .read (leBytes 8 5)).readHandle 2 4088 8 .rd 0 = .ok (v, replied 0 .read (leBytes 8 5)) ∧
      v.local_ = false ∧ (replied 0 .read (leBytes 8 5)).rankStops v.rank = none) ∧
    (∃ v, (replied 13 .read []).readHandle 2 4088 8 .rd 0 = .ok (v, replied 13 .read [])) ∧ (replied 13 .read []).trapReady 60 :=
  ⟨⟨_, _, rfl, rfl, by decide +kernel, rfl, by decide +kernel, by decide +kernel⟩, rfl, by decide,
    ⟨_, rfl, rfl, by decide +kernel⟩, ⟨_, rfl⟩,
    ⟨rfl, rfl, entry_run _ rfl rfl rfl (by decide +kernel), rfl⟩⟩

theorem witness_StoreResults_elsewhere :
    ∃ v, away.readHandle 2 4088 8 .w 0 = .ok (v, away) ∧ v.local_ = false ∧ away.rankStops v.rank ≠ some 3 ∧ v.kind ≠ 0 ∧
      (bufferLines (away.core.sbuf ++ [⟨v, v.base + 4088, leBytes 8 7⟩])).length ≤ min job1.rsb 1024 ∧
      away.rankFault v.rank true = none ∧ away.settled ∧ away.requestsFull = false :=
  ⟨_, rfl, rfl, by decide +kernel, by decide, by decide +kernel, by decide +kernel, ⟨rfl, rfl, rfl, rfl⟩, by decide +kernel⟩

theorem witness_StoreResults :
    run.memOk ∧ (Found_ run (opM 0 4088 3 0) 8 .w 0 (lmPlace 0 4088) ∧ run.goodAt (lmPlace 0 4088) 8) ∧
    (∃ v u x, run.finds 3 4088 8 .w v 4088 u x ∧ v.kind = 3 ∧
      (bufferLines (run.core.sbuf ++ [⟨v, 4088, leBytes 8 7⟩])).length ≤ min job1.rsb 1024) ∧
    Found_ run (opM 2 4088 3 2) 8 .w 2 (bmBase + 4088) ∧ run.settled ∧ run.writableAt (bmBase + 4088) 8 :=
  ⟨rfl, ⟨found_of_placed (by decide +kernel), by unfold State.goodAt; decide +kernel⟩,
    ⟨_, _, _, ⟨rfl, rfl, rfl⟩, rfl, by decide +kernel⟩, found_of_placed (by decide +kernel), settled_run,
    by unfold State.writableAt; decide +kernel⟩

theorem witness_StoresReachMemory :
    (stored.memOk ∧ (∃ e, stored.core.sbuf = [e] ∧ e.view.local_ = true ∧ 1 ≤ e.bytes.length ∧
        e.place % 64 + e.bytes.length ≤ 64 ∧ stored.writableAt e.place e.bytes.length) ∧
      stored.core.lines = [] ∧ stored.core.posted = [] ∧ stored.core.held = []) ∧
    (lined.memOk ∧ lined.core.sbuf = [] ∧ (∃ l, lined.core.lines = [l] ∧ l.data.length = 64 ∧
        lined.writableAt (l.line * 64) 64) ∧
      lined.core.posted = [] ∧ lined.core.held = [] ∧ (opA 0 1 0).a.toNat ≤ 1 ∧ (lined.getK 31).pend = false) ∧
    ∃ v, away.readHandle 2 4088 8 .w 0 = .ok (v, away) ∧ v.local_ = false ∧ away.rankFault v.rank true = none ∧
      away.requestsFull = false :=
  ⟨⟨rfl, ⟨_, rfl, rfl, by decide, by decide, by unfold State.writableAt; decide +kernel⟩, rfl, rfl, rfl⟩,
    ⟨rfl, rfl, ⟨_, rfl, by decide, by unfold State.writableAt; decide +kernel⟩, rfl, rfl, by decide, by decide +kernel⟩,
    _, rfl, rfl, by decide +kernel, by decide +kernel⟩

theorem witness_FencesComplete : run.settled ∧ succeeds ((run.upCore (fun c => c.emptied.shut)).guardOf 3) = true ∧
    (run.getK 31).pend = false := ⟨settled_run, by decide +kernel, by decide +kernel⟩

theorem witness_MemoryTraps : run.trapReady 60 ∧ run.core.job = some job1 ∧ job1.lmBytes < 4089 + 8 ∧ 4084 % 8 ≠ 0 ∧
    run.core.live.h.getD 15 .empty = .empty ∧ run.core.live.h.getD 4 .empty = .revoked 7 1 ∧ run.sentAtomic = none :=
  ⟨ready, by decide +kernel⟩

theorem witness_AtomicResults :
    (2 ≤ (opM 0 4092 2 0).size.toNat ∧ run.memOk ∧ Found_ run (opM 0 4092 2 0) 4 .at 0 (lmPlace 0 4092) ∧
      4092 % 4 = 0 ∧ run.settled ∧ run.writableAt (lmPlace 0 4092) 4) ∧
    (Found_ run (opM 0 4095 0 0) 1 .at 0 (lmPlace 0 4095) ∧ run.writableAt (lmPlace 0 4095) 1) ∧
    (Found_ run (opM 3 4080 0 0) 16 .at 3 4080 ∧ 4080 % 16 = 0 ∧ run.writableAt 4080 16) ∧
    (∃ v, away.readHandle 2 4080 16 .at 0 = .ok (v, away) ∧ v.local_ = false ∧ away.rankStops v.rank = none ∧
      away.settled ∧ away.sentAtomic = none ∧ away.core.remote = none ∧ away.core.kept = [] ∧
      away.rankFault v.rank true = none ∧ away.requestsFull = false) ∧ run.sentAtomic = none ∧
    (let s := replied 0 .atomic (leBytes 8 5);
      s.settled ∧ ∃ r, s.sentAtomic = some r ∧ r.resp = some (0, leBytes 8 5)) :=
  ⟨⟨by decide, rfl, found_of_placed (by decide +kernel), by decide, settled_run, by unfold State.writableAt; decide +kernel⟩,
    ⟨found_of_placed (by decide +kernel), by unfold State.writableAt; decide +kernel⟩,
    ⟨found_of_placed (by decide +kernel), by decide, by unfold State.writableAt; decide +kernel⟩,
    ⟨_, rfl, rfl, by decide +kernel, ⟨rfl, rfl, rfl, rfl⟩, rfl, rfl, rfl, by decide +kernel, by decide +kernel⟩, rfl,
    ⟨⟨rfl, rfl, rfl, rfl⟩, _, rfl, rfl⟩⟩

theorem witness_HandleResults :
    (run.core.job = some job1 ∧ run.ctx? job1.ctx = some ctx1 ∧ 0 < job1.admitted.length ∧
      (ctx1.entry (job1.hlStart + 0)).gen = job1.admitted.getD 0 0) ∧ (opA 1 1 0).a.toNat ≤ 1 ∧
    (∃ v u, run.checkHandle 3 0 0 true = .ok (v, u) ∧ v.param = none) ∧
    (let q : Param := ⟨0, 1, false, false, false, [64, 1, 1, 1], [4, 0, 0, 0], 0, 0⟩;
      let s := run.upCore (fun c => { c with hcache := [⟨5, recAt 2 0 4096, some q⟩] });
      ∃ v u, s.checkHandle 2 0 0 true = .ok (v, u) ∧ v.param = some q) :=
  ⟨⟨rfl, rfl, by decide +kernel, by decide +kernel⟩, by decide, ⟨_, _, rfl, rfl⟩, _, _, rfl, rfl⟩

/-- `run` with one token register set. -/
def tok (n : Nat) (t : Tok) : State := run.upRegs (fun g => { g with k := upd Tok.reset g.k n t })

theorem witness_TokenResults :
    (∀ n ∈ List.range 32, (run.getK n).pend = false ∧ (run.getK n).status = 0) ∧
    (let s := tok 31 ⟨false, 2, 0, 0⟩;
      s.trapReady 60 ∧ (∀ m ∈ List.range 32, (s.getK m).pend = false) ∧ (s.getK 31).status ≠ 0 ∧
        ∀ m ∈ List.range 32, m < 31 → (s.getK m).status = 0) ∧
    ∃ n ∈ List.range 32, ((tok 31 ⟨true, 0, 0, 1⟩).getK n).pend = true :=
  ⟨by decide +kernel, ⟨⟨rfl, rfl, entry_run _ rfl rfl rfl (by decide +kernel), rfl⟩, by decide +kernel⟩, 31,
    by decide +kernel⟩

/-- `run` with an open and closed groups. -/
def grouped (open_ : List Nat) (closed : List (Nat × List Nat)) : State :=
  run.upRegs (fun g => { g with openGroup := open_, closedGroups := closed })

theorem witness_GroupResults :
    let n (k : Nat) : State := grouped [1] (List.replicate k (0, [1]))
    (grouped [] []).core.live.openGroup = [] ∧ (n 31).core.live.closedGroups.length < 32 ∧
    (let s := grouped [] [(1, [1])];
      let early (s : State) (n : Nat) : Prop := ((s.opB (opA 0 0 1)).toNat % 2 ^ 32 + 2 ^ 32 - n % 2 ^ 32) % 2 ^ 32 < 2 ^ 31;
      ¬early s 1 ∧ early (s.setS 1 1) 1 ∧ s.core.live.closedGroups ≠ []) ∧
    ((n 32).core.live.openGroup ≠ [] ∧ 32 ≤ (n 32).core.live.closedGroups.length) := by decide +kernel

/-- `run` whose core group holds an LM share, with a barrier at offset `4080` of it. -/
def shared (b : Barrier) : State :=
  { run with
    work := { run.work with shares := [⟨0, 0, 4096, 1, some 0, none⟩] }
    mem := { run.mem with cells := memWrite [] (lmPlace 0 4080) (Barrier.bytes b) } }

theorem witness_BarrierResults :
    let o : OpA := ⟨1, 62, 2, 4080⟩
    let s := shared ⟨0, 3, 5, false, false⟩
    (s.memOk ∧ s.core.job = some job1 ∧ (s.opA o).toNat % 16 = 0 ∧ (s.opA o).toNat + 16 ≤ job1.lmBytes ∧
      s.settled ∧ s.barrierPlaces 4080 (s.maskCores 1) = some [lmPlace 0 4080] ∧
      barrierClean (memRead s.mem.cells (lmPlace 0 4080) 16) = true ∧ s.goodAt (lmPlace 0 4080) 16) ∧
    (let b := Barrier.read (memRead s.mem.cells (lmPlace 0 4080) 16);
      b.arm = false ∧ b.arr ≤ 3 ∧ (b.ph + 256 - 4 % 256) % 256 = 1 ∧ (b.ph + 256 - 134 % 256) % 256 = 127 ∧
        (b.ph + 256 - 5 % 256) % 256 = 0 ∧ (b.ph + 256 - 133 % 256) % 256 = 128) :=
  ⟨⟨by unfold State.memOk; decide +kernel, rfl, by decide +kernel, by decide +kernel, ⟨rfl, rfl, rfl, rfl⟩, by decide +kernel, by decide +kernel,
    by unfold State.goodAt; decide +kernel⟩, by decide +kernel⟩

theorem witness_SuspendResults :
    run.settled ∧ run.core.queued = [] ∧ run.core.stopPending = false ∧ run.core.job = some job1 ∧
    Found_ run (opM 2 4088 3 0) 8 .rd 2 (bmBase + 4088) ∧ run.goodAt (bmBase + 4088) 8 ∧
    (leNat (memRead run.mem.cells (bmBase + 4088) 8) = (run.opA (opA 2 0 3)).toNat ∧ run.mem.watchers = []) ∧
    leNat (memRead run.mem.cells (bmBase + 4088) 8) ≠ ((run.setS 1 9).opA (opA 2 1 3)).toNat :=
  ⟨settled_run, rfl, rfl, rfl, found_of_placed (by decide +kernel), by unfold State.goodAt; decide +kernel,
    ⟨by decide +kernel, rfl⟩, by decide +kernel⟩

/-- `run` in another launch mode. -/
def mode (n : Nat) : State := run.upCore (fun c => { c with job := some { job1 with mode := n } })

/-- `run` with a full strand pool. -/
def crowded : State :=
  let r : Rec := ⟨2, 1, 0, none, 0, true, 0, 0, .ready, 0, 0, 0, 0, 0, 0, false, 0, 0, 0, 0, false, none, 0, none, 0, 0⟩
  { run with work := { run.work with pool := List.replicate 511 r } }

/-- An entry of a queue. -/
def entry1 : Queued := ⟨1, 0, 5, 0, 0, 0, 0, true, 0, false, none, none, none, false, 1, none, none, none⟩

theorem witness_StrandCalls :
    (run.settled ∧ run.core.job = some job1 ∧ TargetIn job1.code.length ((run.opB ⟨1, 2, 62, 60⟩).toNat : Nat) ∧ run.spawnRoom = true ∧
      crowded.spawnRoom = false) ∧
    (run.core.queued = [] ∧ succeeds (run.readHandle 2 3840 256 .rd 0) = true ∧
      ((lookup run.work.queues job1.fn).getD []).length < 64 ∧
      64 ≤ ((lookup [(0, List.replicate 64 entry1)] job1.fn).getD []).length) ∧
    (job1.mode ≠ 2 ∧ (let s := (mode 2).upRegs (fun g => { g with rnglo := 0, rnghi := 1 });
      s.core.thief = false ∧ s.core.live.rnglo < s.core.live.rnghi ∧ s.core.heldSteals = [])) ∧
    (let s := (mode 2).upCore (fun c => { c with thief := true, stealReturned := true, grant := some (4, 5) });
      s.core.thief = true ∧ s.core.stealReturned = true ∧ s.core.grant = some (4, 5)) ∧
    (let s := (mode 1).upCore (fun c => { c with atBarrier := true });
      s.core.atBarrier = true ∧ s.launch? 1 = none ∧ s.core.stopPending = false) :=
  ⟨⟨settled_run, rfl, by unfold TargetIn; decide +kernel, by decide +kernel, by decide +kernel⟩, by decide +kernel,
    by decide +kernel, by decide +kernel, by decide +kernel⟩

/-- `run` with all of local memory as its share. -/
def wide : State := run.upCore (fun c => { c with job := some { job1 with lmBytes := 2 ^ 21 } })

theorem read_own {s : State} {j : Job} {off len opw : Nat} {r : Right} (hj : s.core.job = some j)
    (hr : rightsOk 0x13 true r = true) (h : off + len ≤ j.lmBytes) :
    s.readHandle 0 off len r opw = .ok ({ s.ownView 0 opw with off := off }, s) := by
  have hk : (s.ownView 0 opw).length = j.lmBytes := by unfold State.ownView; rw [hj]; rfl
  have hn : ¬(s.ownView 0 opw).length < off + len := by omega
  have h1 : (!rightsOk (s.ownView 0 opw).rights (s.ownView 0 opw).local_ r) = false := by
    show (!rightsOk 0x13 true r) = false
    rw [hr]; rfl
  unfold State.readHandle State.openHandle
  have hc : s.checkHandle 0 off opw = .ok (s.ownView 0 opw, s) := rfl
  rw [hc]
  simp only [h1, Bool.false_eq_true, if_false, hn]
  split <;> rfl

theorem open_own {s : State} {off opw : Nat} {r : Right} (hr : rightsOk 0x13 true r = true) :
    s.openHandle 0 off r opw = .ok ({ s.ownView 0 opw with off := off }, s) := by
  have h1 : (!rightsOk (s.ownView 0 opw).rights (s.ownView 0 opw).local_ r) = false := by
    show (!rightsOk 0x13 true r) = false
    rw [hr]; rfl
  unfold State.openHandle
  have hc : s.checkHandle 0 off opw = .ok (s.ownView 0 opw, s) := rfl
  rw [hc]
  simp only [h1, Bool.false_eq_true, if_false]

theorem opens_own {s : State} {r : Right} (hr : rightsOk 0x13 true r = true) : Opens s 0 r := by
  refine ⟨{ s.ownView 0 0 with off := 0 }, ?_⟩
  unfold State.lmOpen
  rw [open_own hr]
  rfl

theorem fits_own {s : State} {j : Job} {off len opw : Nat} {r : Right} (hj : s.core.job = some j)
    (hr : rightsOk 0x13 true r = true) (h : off + len ≤ j.lmBytes) : Fits s 0 off len r opw := by
  refine ⟨{ s.ownView 0 opw with off := off }, ?_⟩
  unfold State.lmView
  rw [read_own hj hr h]
  rfl

theorem covers_own {s : State} {j : Job} {off len opw : Nat} {r : Right} (hj : s.core.job = some j)
    (hr : rightsOk 0x13 true r = true) (h : off + len ≤ j.lmBytes) : ∃ v, Covers s 0 off len r opw true v := by
  have h' : (if len = 0 then 0 else off) + len ≤ j.lmBytes := by split <;> omega
  refine ⟨{ s.ownView 0 opw with off := if len = 0 then 0 else off }, ?_⟩
  exact ⟨read_own hj hr h', rfl⟩

/-- A command of an engine's queue that has begun. -/
def begun (i : Instr) : Cmd := ⟨i, 1, 0, none, [], [], [], [], 0, 0, true, 0, 0, none, none, none, false, [], [], [], [], 0⟩

/-- `wide` with tag 1 in the lower half of the vector registers, and 0xF in the upper half. -/
def tagged (t : BitVec 4) : State :=
  wide.upRegs (fun g => { g with v := List.replicate 32 ⟨0, t, true⟩ ++ List.replicate 32 ⟨0, 0xF, true⟩ })

/-- Operands of format V in FP32: groups of eight registers, token 31. -/
def opV : OpV := ⟨0, 8, 16, 3, 0, 0, 1, 0, 0, 0, 0, 31⟩

theorem room_wide : Room wide .vector 31 ∧ Room wide .matrix 31 ∧ Room wide .plait 31 ∧ Room wide .copy 31 := by
  unfold Room; decide +kernel

theorem witness_Room : Room { wide with core := { wide.core with cq := List.replicate 31 (begun (.nop (opA 0 0 0))) } } .copy 31 := by
  unfold Room; decide +kernel

/-- The rows of `vectorChecks` for the named places, whose sources all carry accepted tags. -/
def tagsPass (o : OpV) (s : State) (ix : List Nat) : Bool :=
  ix.all (fun n => ((vectorChecks o s)[n]?).any (fun p => p.2.all (fun c =>
    (List.range c.2.1).all (fun k => c.2.2 (s.vtag (c.1 + k)) && s.vtag (c.1 + k) == s.vtag c.1))))

theorem tagsGood_of_pass {o : OpV} {s : State} {ix : List Nat} (h : tagsPass o s ix = true) (n : Nat) (hn : n ∈ ix) :
    ∃ p, (vectorChecks o s)[n]? = some p ∧ ∀ c ∈ p.2, TagsGood s c := by
  have h1 := List.all_eq_true.mp h n hn
  cases hp : (vectorChecks o s)[n]? with
  | none => rw [hp] at h1; cases h1
  | some p =>
    rw [hp] at h1
    refine ⟨p, rfl, fun c hc k hk => ?_⟩
    have h2 := List.all_eq_true.mp (List.all_eq_true.mp h1 c hc) k (List.mem_range.mpr hk)
    simpa using h2

theorem witness_VectorIssue : Room (tagged 1) .vector 31 ∧ (vectorChecks opV (tagged 1)).length = 52 ∧
    tagsPass opV (tagged 1) ((List.range 52).filter (fun n => !List.contains [31, 45, 46, 47, 49, 50] n)) = true ∧
    tagsPass { opV with c := 24 } (tagged 1) [45, 46, 49, 50] = true ∧
    tagsPass { opV with b := 32 } (tagged 1) [31] = true ∧
    tagsPass { opV with c := 63, dtag := 5 } (tagged 4) [47] = true := by
  unfold Room; decide +kernel

/-- Operands of a vector memory instruction: 512 bytes at the end of the share, under mask 1. -/
def opVm : OpV := ⟨0, 0, 1, 0, 0, 0, 1, 0, 0, 1, 0, 31⟩

/-- `tagged` with the whole of mask 1 set, the last 512 bytes and a stride of 4 named, and v1 an index. -/
def masked : State :=
  (((tagged 1).setS 1 0x1FFE00).setS 2 4).upRegs (fun g => { g with
    m := [0, BitVec.allOnes 1024], v := upd VReg.reset g.v 1 ⟨0, 0xC, true⟩ })

theorem witness_VectorMemoryIssue :
    let act (e : Nat) : Bool := (masked.core.live.m.getD 1 0).getLsbD (e % 1024) != (opVm.minv == 1)
    let span (sd : Bool) : Nat × Nat := activeSpan act (elemSpan 1 0x1FFE00 4 sd) 128
    Room masked .vector 31 ∧ (∀ c ∈ masked.core.vq, writesMask 1 c = false) ∧
      (∀ r ∈ [Right.rd, .w], (∀ sd : Bool, Fits masked 0 (span sd).1 (span sd).2 r 0) ∧ Opens masked 0 r) ∧
      TagsGood masked (0, 1, fun t => t != 0) ∧ TagsGood masked (0, 1, isTag 1) ∧
      TagsGood masked (1, indexSize opVm, isTag 0xC) ∧ 8 ≤ memBits (masked.vtag 0) := by
  refine ⟨by unfold Room; decide +kernel, by decide, ?_, by unfold TagsGood; decide +kernel, by unfold TagsGood; decide +kernel,
    by unfold TagsGood; decide +kernel, by decide +kernel⟩
  intro r hr
  have h : rightsOk 0x13 true r = true := by
    simp only [List.mem_cons, List.not_mem_nil, or_false] at hr
    rcases hr with rfl | rfl <;> rfl
  refine ⟨fun sd => fits_own (j := { job1 with lmBytes := 2 ^ 21 }) rfl h ?_, opens_own h⟩
  cases sd <;> decide +kernel

/-- Operands of format E with token 31, a literal first operand and two operand words. -/
def opE (lit : Word) (w1 w2 : W32) : OpE := ⟨31, 0, 0, 0, 0x0F800000#32 ||| w1, w2, 0, lit⟩

/-- `wide` with a loaded plane. -/
def planed (c : Bool) : State :=
  { wide with core := { wide.core with arrays := { wide.core.arrays with w0 := ⟨[], [], 2, true, c, false⟩ } } }

theorem witness_MatrixIssue :
    let s := planed false
    let full (n : Nat) : Nat := 2 ^ 21 - n
    Room s .matrix 31 ∧
    ((1 ≤ 0xB ∧ 0xB ≤ 0xB) ∧ compatible 0xB 0xB = true ∧ scalable 0xB = true) ∧
    (∀ r ∈ [Right.rd, .w], Fits s 0 (full (spanOf 64 256 256)) (spanOf 64 256 256) r 1) ∧
    Fits s 0 (full (64 * 256 + 8)) (max (spanOf 64 256 256) (64 * 256 + 8)) .w 1 ∧
    (Fits s 0 (full (spanOf (depthKP 2) (rowBytesW 2) (rowBytesW 2))) (spanOf (depthKP 2) (rowBytesW 2) (rowBytesW 2)) .rd 1 ∧
      s.core.foreseen.wbs = false ∧ s.core.foreseen.wtag = 2) ∧
    (Fits s 0 (full (spanOf 64 (rowBytesA 2) (rowBytesA 2))) (spanOf 64 (rowBytesA 2) (rowBytesA 2)) .rd 1 ∧
      planeOk s.foreseenArrays.w0 2 = true ∧ s.foreseenArrays.abs_ = false ∧ s.foreseenArrays.atag = 2 ∧
      planeOkC (planed true).foreseenArrays.w0 2 false = true) := by
  refine ⟨by unfold Room; decide +kernel, by decide, ?_, ?_, ⟨?_, by decide, by decide⟩, ?_, by decide, by decide, by decide, by decide⟩
  · intro r hr
    simp only [List.mem_cons, List.not_mem_nil, or_false] at hr
    rcases hr with rfl | rfl <;> exact fits_own (j := { job1 with lmBytes := 2 ^ 21 }) rfl rfl (by decide)
  all_goals exact fits_own (j := { job1 with lmBytes := 2 ^ 21 }) rfl rfl (by decide)

theorem witness_PlaitIssue :
    Room wide .plait 31 ∧
    ∀ a ∈ [(2 ^ 21 - spanOf 32 128 128, spanOf 32 128 128), (2 ^ 21 - 128 * 64, 128 * 64), (2 ^ 21 - 512, 2 * 4 * 64)],
      ∀ r ∈ [Right.rd, .w], Fits wide 0 a.1 a.2 r 1 := by
  refine ⟨by unfold Room; decide +kernel, fun a ha r hr => fits_own (j := { job1 with lmBytes := 2 ^ 21 }) rfl ?_ ?_⟩
  · simp only [List.mem_cons, List.not_mem_nil, or_false] at hr
    rcases hr with rfl | rfl <;> rfl
  · revert a; decide

/-- `wide` with a bank of FP32 elements behind h2. -/
def banked : State :=
  let q : Param := ⟨0, 1, false, false, false, [64, 1, 1, 1], [4, 0, 0, 0], 0, 0⟩
  wide.upCore (fun c => { c with hcache := [⟨5, recAt 2 0 4096, some q⟩] })

/-- `wide` whose h2 is a range of bank memory of rank 1. -/
def remote : State :=
  wide.upCore (fun c => { c with hcache := [⟨5, { recAt 2 0 4096 with local_ := false, rank := 1 }, none⟩] })

theorem witness_CopyIssue_rows :
    (∃ v, Covers wide 0 (2 ^ 21 - 64) (spanOf 1 64 64) .rd 1 true v) ∧ (∃ w, Covers wide 0 (2 ^ 21 - 64) (spanOf 1 64 64) .w 2 true w) ∧
      (∃ w, Covers wide 0 (2 ^ 21 - 64) (spanOf 1 64 64) .w 1 true w) ∧
      (∃ v, Covers wide 0 0 0 .rd 1 true v) ∧ (∃ w, Covers wide 0 0 0 .w 2 true w) ∧
      (∃ v, Reaches wide 0 (2 ^ 21 - 64) .rd 1 v) ∧ (∃ w, Reaches wide 0 (2 ^ 21 - 64) .w 2 w) ∧ 2 ^ 21 - 16 + 16 ≤ wide.lmBytes :=
  ⟨covers_own (j := { job1 with lmBytes := 2 ^ 21 }) rfl rfl (by decide), covers_own (j := { job1 with lmBytes := 2 ^ 21 }) rfl rfl (by decide),
    covers_own (j := { job1 with lmBytes := 2 ^ 21 }) rfl rfl (by decide), covers_own (j := { job1 with lmBytes := 2 ^ 21 }) rfl rfl (by decide),
    covers_own (j := { job1 with lmBytes := 2 ^ 21 }) rfl rfl (by decide), ⟨_, open_own rfl, rfl⟩, ⟨_, open_own rfl, rfl⟩,
    by decide⟩

theorem witness_CopyIssue_index : ∃ y, wide.readHandle 0 (2 ^ 21 - 4) (4 * 1) .rd 2 = .ok (y, wide) := ⟨_, rfl⟩

theorem witness_CopyIssue_remote :
    (∃ w, Covers remote 2 4032 64 .mcw 2 false w) ∧
    (∃ w, Covers remote 2 4032 64 .mcwat 2 false w ∧ w.kind = 2 ∧ 4088 % 8 = 0 ∧ 4088 + 8 ≤ w.length) ∧
    ∃ v, Covers remote 2 4032 64 .rd 1 false v :=
  ⟨⟨_, rfl, rfl⟩, ⟨_, ⟨rfl, rfl⟩, rfl, by decide, by decide⟩, _, rfl, rfl⟩

theorem witness_CopyIssue_bank :
    ∃ d v w, banked.checkHandle 2 3840 2 = .ok (d, banked) ∧ Covers banked 0 (2 ^ 21 - 256) (64 * d.width) .rd 1 true v ∧
      Covers banked 2 3840 (64 * d.width) .wat 2 true w ∧ Updatable w 3840 ∧ banked.core.sbuf = [] :=
  ⟨_, _, _, rfl, ⟨rfl, rfl⟩, ⟨rfl, rfl⟩, ⟨rfl, by decide, by decide⟩, rfl⟩

/-- `wide` with a compressed tensor of one FP4 tile, all zeros, in the bank behind h2. -/
def compressed : State :=
  let q : Param := ⟨0, 8, true, false, false, [64, 64, 1, 1], [0, 0, 0, 0], 0, 0⟩
  let s := wide.upCore (fun c => { c with hcache := [⟨5, recAt 2 0 4096, some q⟩] })
  { s with mem := { s.mem with cells := memWrite (memWrite [] bmBase [1]) (bmBase + 16) [0xC5, 0x28, 32, 0, 0, 16] } }

theorem witness_CopyIssue_agents :
    (∃ v w q, Reaches compressed 2 0 .rd 1 v ∧ v.param = some q ∧ q.cmp = true ∧ 0 < q.tiles ∧ q.bs = false ∧
      compressed.readHandle 0 (2 ^ 21 - 2048) (spanOf 64 32 32) .w 2 = .ok (w, compressed) ∧ w.kind = 0) ∧
    (∃ v, wide.openHandle 2 4088 .at 1 = .ok (v, wide)) ∧
    (∃ v y w, wide.readHandle 2 4064 32 .at 1 = .ok (v, wide) ∧ 2 ≤ v.kind ∧ 4064 % 32 = 0 ∧
      wide.readHandle 0 (2 ^ 21 - 64) 64 .rd 2 = .ok (y, wide) ∧
      wide.readHandle 0 (2 ^ 21 - 40) 40 .w 2 = .ok (w, wide) ∧ w.kind = 0) ∧ (1 ≤ 255 ∧ 255 ≤ 255) :=
  ⟨⟨_, _, _, ⟨rfl, rfl⟩, rfl, rfl, by decide, rfl, rfl, rfl⟩, ⟨_, rfl⟩, ⟨_, _, _, rfl, by decide, by decide, rfl, rfl, rfl⟩, by decide⟩

/-- `s` with a started table run at the head of engine `e`. -/
def tabled (s : State) (e : Eng) : State :=
  let x : Cmd := { begun (.tblstart 0 (opA 0 0 0)) with snap := run.core.live.h }
  s.upCore (fun c => { c.setQueue e [x] with prod := 2, tables := List.replicate 4 ⟨0, 16, 4, 0, [0, 64, 0, 0], [2, 0, 0, 0]⟩ })

theorem witness_TableCalls :
    let s := tabled wide .matrix
    let stopped := { begun (.tblstart 0 (opA 0 0 0)) with fail := some (0, 0) }
    let idle := { begun (.tblstart 0 (opA 0 0 0)) with started := false }
    (wide.core.job = some { job1 with lmBytes := 2 ^ 21 } ∧ (wide.core.queue .copy).length < 32 ∧
      ((wide.setS 1 0x1C0004).opA (opA 0 1 2)).toNat % 4 = 0 ∧ 65535 ≤ 65535 ∧ 0x1C0004 + 4 * 65535 ≤ 2 ^ 21) ∧
    (wide.core.queue .matrix).find? Cmd.isRun = none ∧ ([stopped].find? Cmd.isRun = some stopped ∧ stopped.fail ≠ none) ∧
    (∃ x, (s.core.queue .matrix).find? Cmd.isRun = some x ∧ x.fail = none ∧ x.started = true ∧ x.cursor = 0) ∧
    [idle].find? Cmd.isRun = some idle ∧ idle.fail = none ∧ idle.started = false :=
  ⟨by decide +kernel, rfl, ⟨rfl, by decide⟩, ⟨_, rfl, rfl, rfl, rfl⟩, rfl, rfl, rfl⟩

theorem inRun (e : Eng) : ∃ x, InRun (tabled compressed e) e x := by
  cases e <;> exact ⟨_, rfl, rfl, rfl, rfl⟩

theorem witness_RunMicroOrders :
    (∃ x, InRun (tabled compressed .copy) .copy x) ∧ bits (0x61FFFFF : BitVec 27).toNat 24 21 = 0 ∧
      bits (0x600FFFF : BitVec 27).toNat 24 16 = 0 ∧ bits (0x6000004 : BitVec 27).toNat 24 12 = 0 ∧
      4 ≤ ((tabled compressed .copy).table .copy).pos := ⟨inRun .copy, by decide +kernel⟩

theorem witness_ArrayMicroOrders_matrix :
    let s := tabled (planed false) .matrix
    (∃ x, InRun s .matrix x) ∧ s.dbg.replaying = none ∧ bits (0x1FF0000 : BitVec 27).toNat 15 0 = 0 ∧
      bits (0x07E0000 : BitVec 27).toNat 24 17 < depthKP s.core.arrays.wtag ∧ planeOk s.core.arrays.w0 s.core.arrays.atag = true ∧
      s.core.arrays.abs_ = false ∧ (s.table .matrix).address.getD 1 0 + rowBytesA 2 ≤ s.lmBytes ∧
      s.goodAt (s.lmAt 64) (rowBytesA 2) :=
  ⟨⟨_, rfl, rfl, rfl, rfl⟩, by decide +kernel, by decide, by decide +kernel, by decide, by decide, by decide +kernel,
    by unfold State.goodAt; decide +kernel⟩

/-- An operation of the plait array succeeds and leaves the run of its table. -/
def keepsRun (s : State) (r : Res State) : Bool :=
  match r with
  | .ok u => u.table .plait == s.table .plait
  | .error _ => false

theorem run_of_keepsRun {s : State} {r : Res State} (h : keepsRun s r = true) :
    ∃ u, r = .ok u ∧ u.table .plait = s.table .plait := by
  cases r with
  | ok u => exact ⟨u, rfl, by simpa [keepsRun] using h⟩
  | error e => cases h

theorem witness_ArrayMicroOrders_plait :
    let s := tabled wide .plait
    let nc := 1
    (∃ x, InRun s .plait x) ∧ (64 + (nc + 9) * 4 ≤ s.lmBytes ∧ 0 + 128 ≤ s.lmBytes) ∧
      (∃ u, s.qrRow 1 1 nc 9 64 none false = .ok u ∧ u.table .plait = s.table .plait) ∧
      ∃ u, s.applyRow 1 1 9 64 0 = .ok u ∧ u.table .plait = s.table .plait :=
  ⟨⟨_, rfl, rfl, rfl, rfl⟩, by decide +kernel, run_of_keepsRun (by decide +kernel), run_of_keepsRun (by decide +kernel)⟩

/-- The view of `compressed` of the bank behind h2. -/
def tileView : View := ⟨2, true, 0, 0, 0, 4096, 0x7F, some 5, unguarded, some ⟨0, 8, true, false, false, [64, 64, 1, 1], [0, 0, 0, 0], 0, 0⟩, 2, 0⟩

/-- The view of all of local memory as `wide` has it, at its end. -/
def endView (off : Nat) : View := ⟨0, true, 0, lmPlace 0 0, off, 2 ^ 21, 0x13, none, unguarded, none, 0, 0⟩

/-- DECT of the one tile of `compressed`, and the write of its bytes, succeed and leave the run. -/
def decoded (s : State) (x : Cmd) : Bool :=
  match s.decodeTile tileView ⟨0, 8, true, false, false, [64, 64, 1, 1], [0, 0, 0, 0], 0, 0⟩ 0 with
  | .error _ => false
  | .ok (bs, _, y) =>
    match y.vwrite (endView (2 ^ 21 - 2048)) x.prod (2 ^ 21 - 2048) bs with
    | .ok u => u.table .copy == s.table .copy
    | .error _ => false

/-- MOVE of 64 bytes to the end of local memory succeeds and leaves the run. -/
def moved (s : State) (x : Cmd) : Bool :=
  match State.pieceLoop unitCpy { x with
      views := [endView 0, endView (2 ^ 21 - 64)]
      scal := [0, 64, 1, 64, 2 ^ 21 - 64, 64, 0, 0] } 1 0 s with
  | .ok u => u.table .copy == s.table .copy
  | .error _ => false

theorem witness_CopyMicroOrders :
    let s := tabled compressed .copy
    ∃ x, InRun s .copy x ∧ s.readSnap x 0 0 64 .rd = .ok (endView 0, s) ∧
      s.readSnap x 0 (2 ^ 21 - 64) 64 .w = .ok (endView (2 ^ 21 - 64), s) ∧ moved s x = true ∧
      s.tileSnap x 2 0 = .ok (tileView, s) ∧ s.readSnap x 0 (2 ^ 21 - 2048) 2048 .w = .ok (endView (2 ^ 21 - 2048), s) ∧
      decoded s x = true :=
  ⟨_, ⟨rfl, rfl, rfl, rfl⟩, rfl, rfl, by decide +kernel, rfl, rfl, by decide +kernel⟩

theorem witness_RoundTrip : (Instr.add ⟨61, 61, 62, 0xFFFFFFFF⟩).wfAt Limits.max = true ∧
    encode (.add ⟨61, 61, 62, 0xFFFFFFFF⟩) ≠ [] ∧ microOrder (.add ⟨61, 61, 62, 0xFFFFFFFF⟩) = false := by decide

theorem witness_StepRunsDecoded :
    let s := State.reset.withFetchWord 32 0x04104200
    let j := { Job.bare with code := Job.bare.code }
    s.powered = true ∧ s.inputs = [] ∧ s.links.arrivals = [] ∧ s.links.adds = [] ∧
      (∀ w ∈ s.mem.watchers, w.hit = false) ∧ s.core.job = some j ∧ s.code? = some j.code ∧
      s.core.stopped = false ∧ s.core.preemptReady = false ∧ s.core.arrayStops = false ∧ s.core.halting = none ∧
      s.core.entering = false ∧ s.core.stall = .none ∧ (∀ x ∈ s.core.vq, x.scalarResult = false) ∧ CachedWord s j j.code 0 0x04104200 ∧
      decode j.lim [] = .short ∧ decode j.lim [0x04104200] = .ok (.add (opA 1 1 2)) 1 :=
  ⟨rfl, rfl, rfl, rfl, by decide, rfl, rfl, rfl, rfl, rfl, rfl, rfl, rfl, by decide, ⟨by decide, _, rfl, by decide +kernel⟩, rfl,
    by decide +kernel⟩

theorem witness_MemoryStaysCanonical : State.reset.memOk ∧ ∃ t, step State.reset = .next t := ⟨rfl, _, rfl⟩

/-! ## Witnesses of the statements about the platform -/

/-- A function's registers set. -/
def withFn (s : State) (f : Nat) (g : Fn → Fn) : State := s.upFn f g

/-- A request in a function's buffer. -/
def asking (s : State) (f : Nat) (bs : List Byte) : State :=
  withFn s f (fun n => { n with mbox := { n.mbox with len := BitVec.ofNat 13 bs.length, buf := bs } })

/-- The machine after a step of its start, in the recovery loop or not. -/
def upTo (b : Nat) (rec_ : Bool) : State :=
  { State.reset with trust := { State.reset.trust with boot := b, recovery := rec_ } }

theorem witness_PackageEvents :
    let s := State.reset
    let r : State := { s with trust := { s.trust with banks := [⟨[], 1, false⟩, ⟨[], 0, false⟩] } }
    (0 < 2 ∧ BankGood s 0 ⟨[], 1, true⟩ ∧ (∀ y, BankGood s (1 - 0) y → y.version < 1) ∧ s.trust.boot = 0 ∧
        s.trust.parityError = false) ∧
      ((upTo 1 false).trust.boot = 1 ∧ (upTo 1 false).trust.recovery = false) ∧
      ((upTo 1 true).trust.boot = 1 ∧ (upTo 1 true).trust.recovery = true) ∧
      (upTo 2 false).trust.boot = 2 ∧ ∀ b x, b < 2 → ¬BankGood r b x := by
  refine ⟨⟨by decide, ⟨rfl, rfl, by decide⟩, fun y h => ?_, rfl, rfl⟩, by decide, by decide, by decide, fun b x hb h => ?_⟩
  · cases h.1
    exact absurd h.2.1 (by decide)
  · match b, hb with
    | 0, _ =>
      cases h.1
      exact absurd h.2.1 (by decide)
    | 1, _ =>
      cases h.1
      exact absurd h.2.1 (by decide)

/-- Where no function's mailbox holds a command, none is pending. -/
theorem none_pending {s : State} (h : s.fns.all (fun n => n.mbox.pending.isNone) = true) (g : Nat) : s.mailPending g = false := by
  have h1 : (s.fn g).mbox.pending = none := by
    unfold State.fn
    rw [List.getD_eq_getElem?_getD]
    cases hg : s.fns[g]? with
    | none => rfl
    | some n => simpa using List.all_eq_true.mp h n (List.mem_of_getElem? hg)
  unfold State.mailPending
  rw [h1]
  rfl

theorem served (s : State) (f code : Nat) (h : (s.mailOpen f && !(s.fn f).mbox.busy && s.fns.all (fun n => n.mbox.pending.isNone) &&
    !s.revokeWaits code && !(s.fn f).mbox.lostNotice && decide ((s.fn f).mbox.len.toNat ≤ 4096) && s.answers code) = true) :
    Served s f code := by
  simp only [Bool.and_eq_true, Bool.not_eq_true', decide_eq_true_eq] at h
  obtain ⟨⟨⟨⟨⟨⟨a, b⟩, p⟩, w⟩, c⟩, d⟩, e⟩ := h
  exact ⟨a, b, fun g _ => none_pending p g, w, c, d, e⟩

theorem witness_MailboxCommands :
    let s := asking booted 32 [BitVec.ofNat 8 Lifecycle.retired.code]
    let p : State := { s with trust := { s.trust with pendingLc := some .retired } }
    (∀ c ∈ [1, 3, 4, 0x10, 0x11, 0x20], Served s 32 c) ∧ s.trust.lcNow = .operational ∧ s.sweep.retiringNow = false ∧
      s.tokenCheck (request s 32) = some 4 ∧ s.trust.lcNow.advance = some .retired ∧
      request s 32 = [BitVec.ofNat 8 Lifecycle.retired.code] ∧ s.work.ctxs = [] ∧ s.trust.identityFused = true ∧
      p.trust.pendingLc = some .retired :=
  ⟨fun c hc => served _ _ _ (by revert c; decide +kernel), rfl, by decide +kernel, by decide +kernel, rfl, by decide +kernel, rfl, rfl, rfl⟩

/-- A debug token for the machine of the tests, unsigned (R40): device identifier, lifecycle state, counter and nonce. -/
def debugToken : List Byte :=
  leBytes 4 0x4B444247 ++ (List.range 16).map (fun i => (fixLen 16 (Config.fuse 0)).getD i 0) ++
    [BitVec.ofNat 8 Lifecycle.operational.code, 0, 0, 0] ++ List.replicate 3350 0

theorem debugToken_device : (debugToken.drop 4).take 16 = fixLen 16 (Config.fuse 0) := by
  have h : (fixLen 16 (Config.fuse 0)).length = 16 := by simp [fixLen]
  have e : (debugToken.drop 4).take 16 = (List.range 16).map (fun i => (fixLen 16 (Config.fuse 0)).getD i 0) := rfl
  rw [e]
  apply List.ext_getElem
  · simp [h]
  · intro i h1 h2
    simp [h2]

/-- The clause on a token that passes, once its signature does (log 4). -/
theorem witness_MailboxCommands_token :
    let s := asking booted 32 debugToken
    let p : State := { s with trust := { s.trust with nonce := some (List.replicate 32 0) } }
    Served p 32 0x11 ∧ p.trust.lcNow = .operational ∧ p.sweep.retiringNow = false ∧
      (Config.signatureOk (Config.fuse 2) (debugToken.take 64) ((debugToken.drop 64).take 3309) = true →
        p.tokenCheck (request p 32) = none) := by
  intro s p
  have n : debugToken.length = 3374 := by
    simp only [debugToken, List.length_append, List.length_map, List.length_range, List.length_replicate]
    decide
  have m : (BitVec.ofNat 13 debugToken.length).toNat = debugToken.length := by rw [n]; rfl
  have q : request p 32 = debugToken := by
    show fixLen (BitVec.ofNat 13 debugToken.length).toNat debugToken = debugToken
    rw [m, fixLen, List.take_left]
  refine ⟨served _ _ _ (by decide +kernel), rfl, by decide +kernel, fun h => ?_⟩
  rw [q]
  unfold State.tokenCheck
  rw [debugToken_device, h]
  simp only [ne_eq, not_true_eq_false, if_false]
  decide +kernel

/-- `launched` with function 0 in RUN and in a session, in partition 0 with cluster 0, its host link open. -/
def stage : State :=
  let s := withFn launched 0 (fun n => { n with tdisp := .run, session := 1 })
  { s with
    trust := { s.trust with boot := 3 }
    part := { s.part with
      iDescr := leBytes 24 1 ++ leBytes 4 1 ++ [1, 0, 7, 0] ++ leBytes 4 0 ++ leBytes 2 512 ++ leBytes 2 256 ++ leBytes 2 1024 ++ [64, 32]
      iBudget := List.replicate 32 (BitVec.ofNat 64 (10 * 2 ^ 48 + 2 ^ 20)) } }

/-- The request of a mint of entry 6: 64 bytes of HBM. -/
def mintAsk : List Byte := leBytes 2 1 ++ leBytes 4 6 ++
  HRec.bytes ⟨65536, 64, 0x7F, 0, 0, unguarded, 0xFFFFFFFF, 0, 3, true, 0, 0⟩

theorem witness_ContextCommands :
    let s (q : List Byte) : State := asking stage 0 q
    let r : State := { stage with trust := { stage.trust with revoke := some (0, 1, 5, 3, []) } }
    (r.trust.revoke = some (0, 1, 5, 3, []) ∧ r.core.cq = [] ∧ r.parked = []) ∧
    Tenant stage 0 (some 1) ∧
    (let x := s (leBytes 4 16384);
      Served x 0 0x30 ∧ x.trust.lcNow = .operational ∧ (request x 0).length = 4 ∧ field (request x 0) 0 4 = 16384 ∧
        x.work.ctxs.length < 32 ∧ x.xl.capacity ≠ 0 ∧ x.xl.freeTid = some 1 ∧
        x.trust.keys.findIdx? (fun k => k == none) = some 0) ∧
    (let x := s (leBytes 2 1);
      x.ctxOf 0 (request x 0) = some ctx1 ∧ Served x 0 0x31 ∧ (request x 0).length = 2) ∧
    (let x := s mintAsk;
      x.ctxOf 0 (request x 0) = some ctx1 ∧ Served x 0 0x32 ∧ (request x 0).length = 54 ∧ field (request x 0) 2 4 < ctx1.size ∧
        x.mintFails ctx1 6 ((request x 0).drop 6) (HRec.read ((request x 0).drop 6)) = none ∧
        (ctx1.entry 6).closed = false ∧ (ctx1.entry 6).gen ≠ 0xFFFF) ∧
    (let x := s (leBytes 2 1 ++ leBytes 4 5);
      x.ctxOf 0 (request x 0) = some ctx1 ∧ Served x 0 0x33 ∧ Served x 0 0x34 ∧ x.trust.revoke = none ∧
        (request x 0).length = 6 ∧ field (request x 0) 2 4 < ctx1.size ∧ (ctx1.entry 5).closed = false ∧
        (ctx1.entry 5).gen < 0xFFFF) :=
  ⟨⟨rfl, rfl, rfl⟩, ⟨by decide, rfl, by decide, rfl⟩,
    ⟨served _ _ _ (by decide +kernel), rfl, by decide +kernel, by decide +kernel, by decide +kernel, by decide +kernel, by decide +kernel, by decide +kernel⟩,
    ⟨rfl, served _ _ _ (by decide +kernel), by decide +kernel⟩,
    ⟨rfl, served _ _ _ (by decide +kernel), by decide +kernel⟩,
    ⟨rfl, served _ _ _ (by decide +kernel), served _ _ _ (by decide +kernel), by decide +kernel⟩⟩

/-- `booted` with function 0 at a stage of the flow. -/
def flow (g : SpdmStage) (t : Tdisp) : State := withFn booted 0 (fun n => { n with spdm := g, tdisp := t, session := 1 })

/-- A rack port in a state. -/
def port0 (p : PortState) : Port := { Port.reset with state := p, peer := 1 }

/-- A machine whose port 0 is in a state. -/
def ported (p : PortState) : State :=
  { booted with links := { booted.links with ports := [port0 p] } }

theorem witness_SessionMessages :
    (∀ g t, Served (flow g t) 0 2) ∧ 3 ≤ SpdmStage.rank .algorithms ∧
    (((flow .session .unlocked).fn 0).tdisp = .unlocked ∧ 0 ≠ 32) ∧
    (((flow .session .locked).fn 0).tdisp = .locked ∧ ((flow .session .locked).fn 0).session ≠ 0) ∧
    ((ported .open_).links.ports[0]? = some (port0 .open_) ∧ (port0 .open_).state = .open_) ∧
    (let s := withFn booted 0 (fun n => { n with tdisp := .error, stopping := true });
      (s.fn 0).stopping = true ∧ (s.fn 0).tdisp = .error ∧ s.scrubbed 0 = true) := by
  refine ⟨fun g t => served _ _ _ ?_, by decide +kernel⟩
  cases g <;> cases t <;> decide +kernel

/-- The bytes of a launch header of two strands whose code is entry 5. -/
def headerBytes : List Byte :=
  [(0, [0x4C, 0x4B, 1]), (16, [5]), (20, [1]), (24, [1]), (30, [1]), (32, [1]), (80, leBytes 4 4096), (88, [64, 32]),
    (94, [0, 1]), (144, [4]), (148, [0xFF, 0xFF]), (152, List.replicate 8 0xFF)].foldl
    (fun (l : List Byte) (p : Nat × List Byte) => putBytes l p.1 p.2) (List.replicate 256 0)

/-- The frame the header's page lies in: bank memory, of the same remainder as its bucket. -/
def headerFrame : Nat := 2 ^ 24 + bucketOf 1 0 0 % 16

/-- A queued launch whose header is at offset 256 of entry 5. -/
def queued1 : Queued := ⟨1, 0, 5, 256, 0, 0, 0, false, 0, false, none, none, none, false, 0, none, none, none⟩

/-- `stage` with the header at offset 256 of entry 5, its page mapped, and a slot of the queue that names it. -/
def submitted : State :=
  { stage with
    mem := { stage.mem with cells := memWrite [] (headerFrame * 65536 + 256) headerBytes }
    xl := { stage.xl with
      tids := [(1, ⟨.live, 0, 1, 0, true, 0⟩)]
      anchors := [(bucketOf 1 0 0, headerFrame)]
      entries := [(headerFrame, ⟨0, 1, true, false, 0, 15, 0x1FFFFFF⟩)] }
    work := { stage.work with queues := [(0, [queued1])] } }

/-- A record of `ctx1` minted under the key in force is live in `submitted`. -/
theorem live_submitted (e : Nat) (r : HRec) (he : (ctx1.entry e).rec_ = some (r.sealed 1))
    (hk : (decide (r.gen = (ctx1.entry e).gen) && !(ctx1.entry e).closed && decide (e < ctx1.size)) = true) :
    submitted.liveRec ctx1 e = some (r.sealed 1) := liveRec_sealed (s := submitted) he hk

/-- Step 1 of R97 finds the header. -/
theorem place_submitted : submitted.headerPlace queued1 256 = some (ctx1, 2, 256) := by
  have hl := live_submitted 5 ⟨0, 4096, 0x7F, 1, 0, unguarded, 0xFFFFFFFF, 1, 2, true, 0, 0⟩ rfl rfl
  have hc : submitted.ctx? queued1.ctx = some ctx1 := rfl
  have hv : queued1.view = none := rfl
  have he : queued1.hentry = 5 := rfl
  simp only [State.headerPlace, hc, hv, he, hl]
  rfl

/-- Step 4 of R97 finds the code. -/
theorem list_submitted : submitted.listCheck ctx1 (Header.read headerBytes) = some ⟨5, 1, 0, 4096, 2⟩ := by
  have hl := live_submitted 5 ⟨0, 4096, 0x7F, 1, 0, unguarded, 0xFFFFFFFF, 1, 2, true, 0, 0⟩ rfl rfl
  have he : (Header.read headerBytes).hlStart + (Header.read headerBytes).codeIx = 5 := by decide +kernel
  unfold State.listCheck
  rw [if_neg (by decide +kernel), he, hl]
  decide +kernel

/-- A launch with that header, once it was read, passes steps 6 to 9 of R97. -/
theorem rest_ok {s : State} {q : Queued} {l : Launch} {raw : List Byte} (hc : s.ctx? l.ctx = some ctx1)
    (hq : q.refused = false ∧ q.device = false) (hn : s.nodeOf q = none) (hl : l.hdr = Header.read headerBytes)
    (hr : field raw 128 16 = 0) (hf : s.fits 0 (Header.read headerBytes) = true) :
    s.admitRest 0 q l raw = .ok { l with plan := [] } := by
  have h4 : s.planCheck ctx1 (Header.read headerBytes) raw = .ok [] := by
    unfold State.planCheck
    rw [if_pos (by decide +kernel), if_pos hr]
  have h5 : (Header.read headerBytes).graphOk none = true := by decide +kernel
  unfold State.admitRest
  simp only [hc, hq.1, hq.2, hn, hl, h4, h5, hf, Bool.not_true, Bool.false_eq_true, if_false, and_false, false_and]

/-- The queued launch passes every step of R97. -/
theorem admits_submitted : ∃ x, submitted.admission 0 queued1 = .ok x ∧ x.hdr = Header.read headerBytes := by
  have hd : submitted.devRead ctx1 256 2 256 = .ok headerBytes := by decide +kernel
  have hn : submitted.nodeOf queued1 = none := rfl
  have h1 : headerOk headerBytes = true := by decide +kernel
  have h2 : (Header.read headerBytes).workOk (submitted.gangClusters 0 (Header.read headerBytes).perCluster).length = true := by
    decide +kernel
  have h3 : ¬(Header.read headerBytes).boundCores ≠ (submitted.partCores 0).length := by decide +kernel
  have hp : submitted.headerPlace queued1 queued1.hoff = some (ctx1, 2, 256) := place_submitted
  have hr : queued1.refused = false := rfl
  unfold State.admission State.admitHeader
  simp only [hp, hd, hn, hr, h1, h2, list_submitted, h3, Bool.not_true, Bool.false_eq_true, if_false]
  exact ⟨_, rest_ok rfl ⟨rfl, rfl⟩ rfl rfl (by decide +kernel) (by decide +kernel), rfl⟩

/-- Nothing else waits for the queue. -/
theorem fill_submitted : submitted.fillQueues 0 = submitted := rfl

/-- No function has slots that a full queue held back. -/
theorem unsubmitted (f : Nat) : (submitted.fn f).submitted = [] := by
  have h : submitted.fns.all (fun n => n.submitted == []) = true := by decide +kernel
  unfold State.fn
  rw [List.getD_eq_getElem?_getD]
  cases hg : submitted.fns[f]? with
  | none => rfl
  | some n => simpa using List.all_eq_true.mp h n (List.mem_of_getElem? hg)

/-- `submitted` with its launch admitted already, waiting for room. -/
def holding : State :=
  { submitted with work := { submitted.work with queues := [(0, [{ queued1 with held := some launch1 }])] } }

/-- `submitted` with its header read already, a page of its plan now there. -/
def resuming : State :=
  { submitted with work := { submitted.work with
      queues := [(0, [{ queued1 with seen := some { launch1 with hdr := Header.read headerBytes } }])] } }

theorem witness_LaunchEvents_seen :
    bit (resuming.partField 0 28 1) 0 = true ∧ resuming.fillQueues 0 = resuming ∧
    ∃ c cs y x, resuming.candidates 0 = c :: cs ∧ c.q.waitsFor = none ∧ c.q.kind = 0 ∧ c.q.held = none ∧
      c.q.seen = some y ∧ resuming.admitRest 0 c.q y [] = .ok x ∧ resuming.hasRoom 0 x.hdr = true :=
  ⟨by decide +kernel, rfl, _, _, _, _, rfl, rfl, rfl, rfl, rfl,
    rest_ok rfl ⟨rfl, rfl⟩ rfl rfl (by decide +kernel) (by decide +kernel), by decide +kernel⟩

theorem witness_LaunchEvents :
    (let n := stage.fn 0;
      0 ≠ 32 ∧ stage.mailOpen 0 = true ∧ n.tdisp = .run ∧ n.submitted = [] ∧ n.lqTail = n.lqHead ∧
        BitVec.ofNat 7 1 = n.lqHead + 1 ∧ hostEntries ((lookup stage.work.queues 0).getD []) < 56 ∧
        ((lookup stage.work.queues 0).getD []).length < 64 ∧
        (stage.queuedOf (fixLen 32 (n.slots.drop 0))).1.bad = false) ∧
    (bit (submitted.partField 0 28 1) 0 = true ∧ submitted.fillQueues 0 = submitted ∧ submitted.replays = [] ∧
      (∀ f, (submitted.fn f).submitted = []) ∧
      ∃ c cs, submitted.candidates 0 = c :: cs ∧ c.q.waitsFor = none ∧ c.q.kind = 0 ∧ c.q.held = none ∧ c.q.seen = none ∧
        submitted.work.finishing = [] ∧ ∃ x, submitted.admission 0 c.q = .ok x ∧ submitted.hasRoom 0 x.hdr = true) ∧
    (holding.fillQueues 0 = holding ∧ holding.hasRoom 0 launch1.hdr = true ∧
      ∃ c cs, holding.candidates 0 = c :: cs ∧ c.q.waitsFor = none ∧ c.q.kind = 0 ∧ c.q.held = some launch1) ∧
    (let x := { launch1 with state := .ending };
      ({ stage with work := { stage.work with launches := [x] } } : State).launch? 1 = some x ∧ x.replay = none) ∧
    (let n := (withFn stage 0 (fun n => { n with waiting := [launch1.record], cqTail := 63, cqSize := 0, endLeft := 1 })).fn 0;
      n.waiting = [launch1.record] ∧ n.endLeft = 1 ∧ n.tdisp = .run ∧ n.cqHeld < n.cqRecords ∧ n.cqSize.toNat ≤ 10 ∧
        launch1.record.length = 32 ∧ Memory.wf stage.host.hostMem = true) := by
  obtain ⟨x, ha, hx⟩ := admits_submitted
  exact ⟨by decide +kernel, ⟨by decide +kernel, fill_submitted, rfl, unsubmitted, _, _, rfl, rfl, rfl, rfl, rfl, rfl, x, ha,
      by rw [hx]; decide +kernel⟩, ⟨rfl, by decide +kernel, _, _, rfl, rfl, rfl, rfl⟩, by decide +kernel, by decide +kernel⟩

/-- `stage` with its launch changed. -/
def staged (f : Launch → Launch) : State := stage.upLaunch 1 f

/-- The second launch's plan step: 64 bytes within local memories of two strands. -/
def plan1 : PlanStep := ⟨0, 0, 0, 0, 0xFFFF, 0, 64, 64, 0⟩

/-- An operation of the platform succeeds. -/
def passes {ε α : Type} (r : Except ε α) : Bool :=
  match r with
  | .ok _ => true
  | .error _ => false

theorem witness_PlacementEvents :
    (let x := launch1;
      stage.launch? 1 = some x ∧ x.state = .running ∧ x.evicted = false ∧ x.hdr.mode = 0 ∧ x.bound.length < x.hdr.groups ∧
        stage.chooseCluster x.part x.hdr.cpBytes = some 0 ∧ stage.cpRoom 0 x.hdr.cpBytes = some 0) ∧
    (let s := staged (fun l => { l with bound := [(0, 0)], generated := 1 });
      ∃ x, s.launch? 1 = some x ∧ x.state = .running ∧ x.generated < x.hdr.strands ∧
        lookup x.bound (x.generated / max 1 x.hdr.perCluster) = some 0 ∧ s.poolCount 0 < 256) ∧
    (let s := staged (fun l => { l with state := .reserving });
      ∃ x, s.launch? 1 = some x ∧ x.state = .reserving ∧ s.gangMay x = true ∧ s.gangWaits x = false ∧
        ∀ y ∈ s.work.launches, y.num ≠ 1 → y.state = .reserving → ∀ q ∈ y.reserved, ∀ p ∈ s.coresFor x, q.2 ≠ p.2) ∧
    (let s := staged (fun l => { l with state := .reserving, reserved := [(0, 1), (1, 2)] });
      ∃ x, s.launch? 1 = some x ∧ s.gangMay x = true ∧ x.reserved.length = x.hdr.strands ∧ x.reserved ≠ [] ∧
        x.bound = [] ∧ ∀ p ∈ x.reserved, (s.coreAt p.2).job = none ∧ s.heldCore p.2 x.num = false ∧
          (s.lmRoom p.2 x.hdr.lmBytes).isSome = true ∧
          (s.cpRoom (clusterOf p.2) x.hdr.cpBytes).isSome = true ∧ s.boundGroups (clusterOf p.2) < 16) ∧
    (let s := staged (fun l => { l with
        hdr := { l.hdr with mode := 1 }, arrived := [1, 2], plan := [plan1], reserved := [(0, 0)]
        coreBound := [(0, 0)] });
      let s : State := { s with work := { s.work with shares := [⟨0, 0, 4096, 1, some 0, none⟩] } };
      ∃ x, s.launch? 1 = some x ∧ x.allArrived = true ∧ x.plan[0]? = some plan1 ∧ s.ctx? x.ctx = some ctx1 ∧
        0 ∉ x.planDone ∧ x.state = .running ∧ x.planPage = none ∧
        passes (s.planLines x ctx1 plan1 (plan1.len / 64) 0) = true) ∧
    (launch1.state = .running ∧ ∀ k, k < launch1.plan.length → k ∈ launch1.planDone) := by
  refine ⟨?_, ⟨_, rfl, ?_⟩, ⟨_, rfl, ?_⟩, ⟨_, rfl, ?_⟩, ⟨_, rfl, ?_, rfl, rfl, ?_, rfl, rfl, ?_⟩, rfl,
    fun k h => absurd h (Nat.not_lt_zero k)⟩
  all_goals decide +kernel

/-! Calendars that give every pseudo-channel of sixteen stacks the slots that R307 and R437 ask for. -/

def cal1 : List Byte := List.replicate 4 0xC0 ++ List.replicate 2 0xC1 ++ List.replicate 250 0xFF

def fullCal : List (Nat × List Byte) := (List.range 1024).map (fun p => (p, cal1))

theorem lookup_map_const {α : Type} (c : α) (l : List Nat) (p : Nat) (h : p ∈ l) :
    lookup (l.map (fun k => (k, c))) p = some c := by
  induction l with
  | nil => cases h
  | cons k l ih =>
    show (if p = k then some c else lookup (l.map (fun k => (k, c))) p) = some c
    split
    · rfl
    · next hk => exact ih ((List.mem_cons.mp h).resolve_left hk)

theorem calBytes_full {p : Nat} (h : p < 1024) : calBytes fullCal p = cal1 := by
  unfold calBytes fullCal
  rw [lookup_map_const _ _ _ (List.mem_range.mpr h)]
  decide +kernel

theorem live_full : livePcs (List.range 16) = List.range 1024 := by decide +kernel

theorem stacks_full (post : Bool) : calStacks (List.range 16) fullCal post = List.range 16 := by
  cases post
  · rfl
  · have h : (List.range 16).find? (fun s => (List.range 64).all (fun p => slotsOf (calBytes fullCal (s * 64 + p)) 0xFF == 256)) = none := by
      refine List.find?_eq_none.mpr (fun s hs h => ?_)
      have h1 : s * 64 + 0 < 1024 := by have := List.mem_range.mp hs; omega
      have h2 := List.all_eq_true.mp h 0 (by decide)
      rw [calBytes_full h1] at h2
      exact absurd h2 (by decide +kernel)
    unfold calStacks
    rw [if_pos rfl, h]

theorem calCheck_full {s : State} (post : Bool) (hs : s.xl.surv = List.range 16)
    (hv : validParts s.part.iDescr = []) : s.calCheck fullCal post = 0 := by
  have hp (c : Nat) (hc : c < 192) : s.partOfCluster c = none := by
    unfold State.partOfCluster
    rw [hv]
    rfl
  unfold State.calCheck
  simp only [hs, stacks_full, live_full]
  rw [if_neg, if_neg, if_neg, if_neg]
  · simp only [List.any_eq_true, List.mem_range, not_exists, not_and]
    intro c hc
    rw [hp c hc]
    simp
  · simp only [List.any_eq_true, List.mem_filter, List.mem_range, not_exists, not_and]
    rintro c ⟨hc, p, hp1, h⟩
    rw [calBytes_full hp1] at h
    have : ∀ c, c < 192 → (slotsOf cal1 c != 0) = false := by decide +kernel
    rw [this c hc] at h
    cases h
  · simp only [List.any_eq_true, List.mem_range, not_exists, not_and]
    intro p hp1
    rw [calBytes_full hp1]
    decide +kernel
  · rw [List.any_eq_true]
    rintro ⟨p, hp1, h⟩
    have hp2 := List.mem_range.mp hp1
    have hc : (List.range 1024).contains p = true := List.elem_eq_true_of_mem hp1
    rw [calBytes_full hp2, hc] at h
    have : (cal1.any fun x => inRange 198 254 x.toNat || !true && x.toNat != 255) = false := by decide +kernel
    rw [this] at h
    cases h

/-- A machine with those calendars, a capacity that fifteen stacks hold, and a staging extent of the platform. -/
def retirable : State :=
  let s := booted
  { s with
    cal := { s.cal with installed := fullCal }
    xl := { s.xl with capacity := 15 * 2 ^ 36, extents := [(32768 + 511, ⟨0xFF, 0⟩)] } }

theorem retireCheck_full : retirable.retireCheck 15 511 = 0 := by
  have h : (livePcs retirable.xl.surv).any (fun p => decide (slotsOf (calBytes retirable.cal.installed p) 0xC1 < 2)) = false := by
    have hs : retirable.xl.surv = List.range 16 := rfl
    have hc : retirable.cal.installed = fullCal := by simp only [retirable]
    rw [hs, hc, live_full, List.any_eq_false]
    intro p hp
    rw [calBytes_full (List.mem_range.mp hp)]
    decide +kernel
  unfold State.retireCheck
  rw [h]
  decide +kernel

/-- `booted` with those calendars written. -/
def calWritten : State := { booted with cal := { Cal.reset with pending := fullCal } }

theorem calWritten_ok (post : Bool) : calWritten.calCheck calWritten.cal.pending post = 0 := by
  have h : calWritten.cal.pending = fullCal := by simp only [calWritten]
  rw [h]
  exact calCheck_full post (by simp only [calWritten]; rfl) (by simp only [calWritten]; decide +kernel)

/-- A fresh strand of launch 1, for core group 1. -/
def rec1 : Rec :=
  ⟨2, 1, 0, some 1, 0, true, 0, 0, .ready, 0, 0, 0, 0, 0, 0, false, 0, 0, 0, 0, false, none, 0, none, 0, 0⟩

/-- `stage` with one record in the pool, and the share of its core group on core 1. -/
def pooled (r : Rec) : State :=
  { stage with work := { stage.work with pool := [r], shares := [⟨1, 0, 4096, 1, some 1, none⟩] } }

/-- `stage` whose running strand was asked to leave its core. -/
def asked : State := stage.upCore (fun c => { c with preempt := true })

/-- `stage` after every strand of function 0 left. -/
def empty_ : State := stage.upCore Core.idle

/-- A steal request for launch 1. -/
def steal1 : Steal := ⟨7, 1, 1, [0], some (4, 5), false⟩

/-- A machine with a checked save area of tenant 1 at 48 MiB, its page mapped. -/
def withArea (s : State) : State :=
  { s with
    host := { s.host with save := [(1, ⟨BitVec.ofNat 64 (24 * 2 ^ 21), 13, 2⟩)] }
    xl := { s.xl with
      tids := [(1, ⟨.live, 0, 2, 0, true, 0⟩)]
      anchors := [(bucketOf 1 1 (24 * 2 ^ 21), 32)]
      entries := [(32, ⟨768, 1, true, false, 1, 15, 0x1FFFFFF⟩)] } }

/-- That machine after the mark of save 9 was written to the end of `n` bytes at offset `off` of the area. -/
def withMark (off n : Nat) (s : State) : State :=
  { withArea s with mem := { s.mem with cells := memWrite [] (2 ^ 21 + off + n - 8) (saveMark 9 n) } }

theorem cells_withMark (off n : Nat) (s : State) :
    (withMark off n s).mem.cells = memWrite [] (2 ^ 21 + off + n - 8) (saveMark 9 n) := rfl

/-- The mark of a save is found where it was written. -/
theorem marked_of {s : State} {c : Ctx} {no ta n a : Nat} (hh : s.areaWaits c false ta n = [])
    (hp : s.areaPlaces c 0 (ta + n - 8) 8 = some [(a, 8)]) (hm : s.mem.cells = memWrite [] a (saveMark no n)) :
    s.marked_ c no ta n = true := by
  have hr := memRead_memWrite [] a (saveMark no n) rfl
  have hl : (saveMark no n).length = 8 := by simp [saveMark]
  rw [hl] at hr
  unfold State.marked_
  rw [hh, hp]
  simp [hm, hr]

/-- The only record of the pool, saved and marked, is chosen on its core once its launch may run. -/
theorem chooseRec_saved {s : State} {c : Nat} {r : Rec} {l : Launch} {k : Core} (hp : s.work.pool = [r])
    (hl : s.launch? r.launch = some l) (hk : r.save = some k) (hm : s.slotMarked l r = true)
    (hc : (!s.heldCore c r.launch && (!s.reservedCore c || (s.launch? r.launch).any (fun l => l.holds c)) &&
      (r.state == .ready && s.unfenced c r.launch && (l.state != .ending && (l.state != .reserving || l.isSpawned r) &&
        !l.evicted && s.within_ l.fn && (s.fn l.fn).evict == 0 && s.gangAllows l c r &&
        (r.core == some c && (l.hdr.mode == 0 || l.isSpawned r))))) = true) :
    s.chooseRec c = some r := by
  have h : s.mayRun c r = true := by
    unfold State.mayRun State.couldRun
    simpa only [hl, hk, hm, Bool.and_true] using hc
  simp [State.chooseRec, hp, h]

/-- A write of whole lines is made where no stack retires and the extents are clean. -/
theorem ordWrite_whole {s : State} {dom : Nat → Nat} {a : Nat} {bs : List Byte} {info : Word}
    (hr : s.sweep.retiringNow = false) (hx : ∀ l ∈ linesOf a bs.length, (s.xl.extent (extentLine l).1).scrub = 0)
    (hc : ∀ l ∈ linesOf a bs.length, coversLine a bs.length l = true) :
    ∃ t, s.ordWrite dom a bs info = .ok t ∧ t.sweep = s.sweep ∧ t.xl = s.xl := by
  have hu : (linesOf a bs.length).find? s.unscrubbed = none := by
    rw [List.find?_eq_none]
    intro l hl
    simp [State.unscrubbed, hx l hl]
  have h1 : s.writeWaits a bs.length = none := by simp [State.writeWaits, State.transit?, hr, hu]
  have h2 : (linesOf a bs.length).find? (fun l => !coversLine a bs.length l && s.bad dom l) = none := by
    rw [List.find?_eq_none]
    intro l hl
    simp [hc l hl]
  unfold State.ordWrite
  rw [h1]
  simp only [h2]
  refine ⟨_, rfl, ?_⟩
  unfold State.wake State.wakeBy
  repeat (split; · exact ⟨rfl, rfl⟩)
  exact ⟨rfl, rfl⟩

/-- A save of whole lines is written. -/
theorem areaWrite_whole (c : Ctx) (no : Nat) (l : List (Nat × Nat)) : ∀ (i : Nat) (s : State),
    s.sweep.retiringNow = false → (∀ p ∈ l, ∀ x ∈ linesOf p.1 p.2, (s.xl.extent (extentLine x).1).scrub = 0) →
    (∀ p ∈ l, ∀ x ∈ linesOf p.1 p.2, coversLine p.1 p.2 x = true) →
    (State.areaWrite c no i l s).isSome = true := by
  induction l with
  | nil => exact fun _ _ _ _ _ => rfl
  | cons p l ih =>
    intro i s hr hx hc
    have hl : ((List.range p.2).map (fun k => Config.saveByte no (i + k))).length = p.2 := by simp
    obtain ⟨t, ht, hs, hxl⟩ := ordWrite_whole (s := s) (dom := s.keyFor c) (a := p.1) (info := 0) hr
      (bs := (List.range p.2).map (fun k => Config.saveByte no (i + k)))
      (by rw [hl]; exact hx p (List.mem_cons_self ..)) (by rw [hl]; exact hc p (List.mem_cons_self ..))
    have : State.areaWrite c no i (p :: l) s = State.areaWrite c no (i + p.2) l t := by
      show (match s.ordWrite _ _ _ _ with | .error _ => none | .ok t => _) = _
      rw [ht]
    rw [this]
    exact ih _ _ (by rw [hs]; exact hr) (fun q hq => by rw [hxl]; exact hx q (List.mem_cons_of_mem _ hq))
      (fun q hq => hc q (List.mem_cons_of_mem _ hq))

/-- A saved strand of launch 1, in the first slot of the save area. -/
def savedRec : Rec := { rec1 with save := some Core.reset, core := some 1, slot := 24 * 2 ^ 21, saveNo := 9 }

/-- The image of an LM share, at its place of core 0's part of the save area. -/
def image1 : Image := ⟨0, 1, some ⟨0, 0, 4096, 1, some 1, none⟩, none, [], [], 24 * 2 ^ 21 + 2 ^ 20, 9⟩

theorem witness_SchedulingEvents :
    (let s := pooled rec1;
      s.coreFree 1 = true ∧ s.chooseRec 1 = some rec1 ∧ s.launch? 1 = some launch1 ∧ s.ctx? 1 = some ctx1 ∧
        rec1.save = none ∧ s.shareFor 1 rec1 = some ⟨1, 0, 4096, 1, some 1, none⟩) ∧
    (let s := withMark 0 slotBytes (pooled savedRec);
      s.coreFree 1 = true ∧ s.chooseRec 1 = some savedRec ∧ s.areaBad ctx1 savedRec.slot slotBytes = none) ∧
    (let s := pooled { rec1 with first := false, coreGroup := none, core := some 0 };
      s.othersReady 0 = true ∧ (s.coreAt 0).job = some job1) ∧
    (withFn stage 0 (fun n => { n with used := 2 ^ 20 })).within_ 0 = false ∧
    (stage.mailOpen 32 = true ∧ (stage.fn 0).evict = 0) ∧
    (let s : State := { stage with mem := { stage.mem with watchers := [⟨bmBase, 1, 5, true⟩] } };
      s.mem.watchers[0]? = some ⟨bmBase, 1, 5, true⟩) ∧
    (let s : State := { stage with steals := [steal1] };
      s.steals[0]? = some steal1 ∧ steal1.back = false ∧ s.isHeld steal1.id = false ∧ steal1.route = [0] ∧
        (s.coreAt 0).runs (fun j => j.launch == 1) = true ∧ (s.coreAt 0).thief = false) ∧
    (let s : State := { stage with steals := [{ steal1 with back := true, thief := 1 }] };
      s.steals[0]?.isSome = true ∧ s.coreOfStrand 1 = some 0) ∧
    (let k := asked.coreAt 0;
      k.job = some job1 ∧ k.stopped = false ∧ k.lines = [] ∧ k.cq = [] ∧ k.preempt = true ∧ k.preemptReady = false ∧
        k.arrayPoint = true ∧ k.stall = .none ∧ k.sbuf = [] ∧ (asked.focus 0).regionLive = false ∧
        (k.rollBack 3).tilesFree = true ∧ (k.rollBack 3).mq = [] ∧
        asked.looseWaits (fun y => y.runs (fun x => x.launch == job1.launch)) = []) ∧
    (let t := withArea (asked.upCore (fun c => { c with preemptReady := true }));
      (t.coreAt 0).job = some job1 ∧ t.launch? 1 = some launch1 ∧ (t.coreAt 0).preemptReady = true ∧
        (t.coreAt 0).posted = [] ∧ t.links.reqs = [] ∧ t.saveAreaOk 1 0 = true ∧ t.ctx? 1 = some ctx1 ∧
        t.freeSlot 1 0 = some (24 * 2 ^ 21) ∧ t.areaWaits ctx1 true (24 * 2 ^ 21) slotBytes = [] ∧
        (t.saveOut ctx1 (24 * 2 ^ 21) slotBytes).isSome = true) ∧
    (let s := withArea (withFn empty_ 0 (fun n => { n with evict := 1 }));
      let s : State := { s with work := { s.work with shares := [⟨0, 0, 4096, 1, some 1, none⟩] } };
      (s.fn 0).evict = 1 ∧ s.coresOf 0 = [] ∧ s.evictWaits 0 = [] ∧ s.work.ctxs.filter (fun c => c.fn == 0) = [ctx1] ∧
        s.saveAreaOk ctx1.tenant ((s.partOf 0).getD 32) = true ∧
        (State.writeImages ctx1 (s.imagesOf ctx1 ((s.partOf 0).getD 32)) s).isSome = true ∧
        s.work.shares.any (fun h => s.launchOf ctx1.num h.launch) = true) ∧
    (let s : State := withArea (withFn empty_ 0 (fun n => { n with evict := 2 }));
      let s : State := withMark (2 ^ 20) 4096 { s with work := { s.work with images := [image1], shares := [] } };
      s.mailOpen 32 = true ∧ (s.fn 0).evict = 2 ∧ s.work.images = [image1] ∧ s.imageFits image1 = true ∧
        s.ctx? image1.ctx = some ctx1 ∧ s.marked_ ctx1 image1.saveNo image1.slot image1.range.2 = true ∧
        s.areaBad ctx1 image1.slot image1.range.2 = none) := by
  have hm : (withMark 0 slotBytes (pooled savedRec)).slotMarked launch1 savedRec = true :=
    marked_of (by decide +kernel) (by decide +kernel) (cells_withMark 0 slotBytes _)
  have hs : (withArea (asked.upCore (fun c => { c with preemptReady := true }))).areaPlaces ctx1 2 (24 * 2 ^ 21) slotBytes =
      some [(2 ^ 21, 65536), (2 ^ 21 + 65536, 65536)] := by decide +kernel
  have hw : ((withArea (asked.upCore (fun c => { c with preemptReady := true }))).saveOut ctx1 (24 * 2 ^ 21) slotBytes).isSome =
      true := by
    unfold State.saveOut
    rw [hs]
    show (Option.map _ _).isSome = true
    rw [Option.isSome_map]
    exact areaWrite_whole _ _ _ _ _ rfl (by decide +kernel) (by decide +kernel)
  refine ⟨⟨?_, ?_, rfl, rfl, rfl, ?_⟩, ⟨?_, chooseRec_saved rfl rfl rfl hm ?_, ?_⟩, ?_, ?_, ⟨?_, ?_⟩, ?_, ?_, ?_, ?_,
    ⟨?_, ?_, ?_, ?_, ?_, ?_, rfl, ?_, ?_, hw⟩, ⟨?_, ?_, ?_, rfl, ?_, ?_, ?_⟩, ⟨?_, ?_, ?_, ?_, rfl, marked_of ?_ ?_ (cells_withMark (2 ^ 20) 4096 _), ?_⟩⟩
  all_goals decide +kernel

/-- A gang whose one saved strand is marked, its cores free: it starts again. -/
theorem witness_PlacementEvents_again :
    let s := withMark 0 slotBytes (staged (fun l => { l with
      state := .reserving, reserved := [(0, 1), (1, 2)], bound := [(0, 0)] }))
    let s : State := { s with work := { s.work with pool := [savedRec] } }
    s.trust.debugOpen = false ∧ ∃ x, s.launch? 1 = some x ∧ s.gangMay x = true ∧ x.reserved.length = x.hdr.strands ∧
      (∀ p ∈ x.reserved, (s.coreAt p.2).job = none ∧ s.heldCore p.2 x.num = false) ∧ x.bound ≠ [] ∧
      s.work.pool = [savedRec] ∧ savedRec.launch = 1 ∧ savedRec.save.isSome = true ∧ s.slotMarked x savedRec = true ∧
      s.ctx? x.ctx = some ctx1 ∧ s.areaBad ctx1 savedRec.slot slotBytes = none := by
  refine ⟨rfl, _, rfl, ?_, ?_, ?_, ?_, rfl, rfl, rfl, marked_of ?_ ?_ (cells_withMark 0 slotBytes _), rfl, ?_⟩
  all_goals decide +kernel

/-- A page request of tenant 1. -/
def request1 : PageReq := ⟨0, 1, 1, 0, false, 0, true⟩

/-- `booted` with its translation tables changed. -/
def mapped (f : Xlat → Xlat) : State := { booted with xl := f booted.xl }

/-- `booted` with host slots on the channel of its last line, the last extent clean. -/
def hostSlots : State :=
  { booted with
    cal := { booted.cal with installed := [(booted.xl.channelOf (2 ^ 34 - 1), List.replicate 256 0xC3)] }
    xl := { booted.xl with extents := [(32767, ⟨0, 0⟩)] } }

theorem witness_HostRegisterEvents :
    (let s : State := { State.reset with part := { Part.reset with busy := true } };
      s.part.busy = true ∧ s.commitFails = none) ∧
    (calWritten.mailOpen 32 = true ∧ calWritten.cal.busy = false ∧ ∀ post, calWritten.calCheck calWritten.cal.pending post = 0) ∧
    (∃ l, ({ Cal.reset with staged := some [] } : Cal).staged = some l) ∧
    (booted.mailOpen 32 = true ∧ booted.xl.patBusy = false ∧ booted.xl.xlBusy = false ∧
      (0x8000000000000000 : Word).getLsbD 63 = true) ∧
    (let s := mapped (fun x => { x with patBusy := true, xlBusy := true, patop := 0x8000000000FF81FF });
      s.xl.patBusy = true ∧ s.xl.xlBusy = true ∧ s.patCheck true 511 255 = 0 ∧ s.links.adds = [] ∧
        s.looseWaits (fun k => k.runs (fun j => j.tenant == bits s.xl.xlinv.toNat 55 48)) = [] ∧
        ∀ k ∈ s.core :: s.parked.map (fun p => p.2), s.heldBack k = false) ∧
    (let s := mapped (fun x => { x with tids := [(1, ⟨.live, 0, 1, 0, true, 0⟩)], extents := [(0, ⟨1, 0⟩)] });
      let bs : List Byte := [0, 0, 0, 0, 1, 0x80, 15, 0, 0xFF, 0xFF, 0xFF, 1, 0, 0, 0, 0];
      s.mailOpen 32 = true ∧
      0x100000 / 2 ^ 27 < 16 ∧ 2 ^ 20 ≤ 0x100000 % 2 ^ 27 ∧ 0 < frames ∧ bs.length = 16 ∧ s.entryOk 0 bs = true ∧
        IptEntry.read bs ≠ IptEntry.empty ∧ entryLine 0 ∉ s.xl.walkBad) ∧
    (let s := mapped (fun x => { x with prq := [(255, request1)] });
      s.mailOpen 32 = true ∧ s.isOpen 255 = true ∧ s.xl.prq.Pairwise (fun a b => a.1 < b.1) ∧ s.waitingOn 255 = [] ∧
        s.work.launches = []) ∧
    (booted.saveLocked 255 = false ∧
      (let s : State := { State.reset with host := { State.reset.host with save := [(255, ⟨0, 0, 1⟩)] } };
        (s.saveArea 255).state = 1 ∧ s.saveCheckWaits 255 = false)) ∧
    (stage.mailOpen 32 = true ∧ stage.frozen 0 = true ∧ (stage.fn 0).weight ≠ BitVec.ofNat 8 2) ∧
    (hostSlots.memOk ∧ hostSlots.mailOpen 31 = true ∧ hostSlots.host.queue = [] ∧
      2 ^ 40 - 64 + (List.replicate 64 (7 : Byte)).length ≤ hostSlots.xl.capacity ∧
      0 < slotsOf (calBytes hostSlots.cal.installed (hostSlots.homeOf ((2 ^ 40 - 64) / 64))) 0xC3 ∧
      (∀ l ∈ linesOf (2 ^ 40 - 64) 64, hostSlots.bad (hostSlots.hostKey 31) l = false) ∧
      ∀ wr ∈ [none, some (List.replicate 64 (7 : Byte))], hostSlots.hostWaits (31, 2 ^ 40 - 64, wr) = none) ∧
    (booted.xl.capacity < 2 ^ 40 - 63 + hostSize (31, 2 ^ 40 - 63, none) ∧
      booted.hostWaits (31, 2 ^ 40 - 64, some [7]) ≠ none ∧ 2 ^ 40 - 64 + 1 ≤ booted.xl.capacity ∧
      ¬0 < slotsOf (calBytes booted.cal.installed (booted.homeOf (2 ^ 34 - 1))) 0xC3) ∧
    State.reset.mailOpen 32 = false ∧ State.reset.mailOpen 0 = false := by
  refine ⟨?_, ⟨?_, by simp only [calWritten]; rfl, calWritten_ok⟩, ⟨_, rfl⟩, ?_, ?_, ?_, ?_, ?_, ?_, ⟨rfl, ?_⟩, ?_, ?_⟩
  all_goals decide +kernel

/-- `booted` with its sweeps changed. -/
def sweeping (f : Sweep → Sweep) : State := { booted with sweep := f booted.sweep }

/-- A machine with all slots of one pseudo-channel of one class. -/
def slotted (p : Nat) (code : Byte) (s : State) : State :=
  { s with cal := { s.cal with installed := [(p, List.replicate 256 code)] } }

/-- A retirement of stack 3 whose window starts at a granule and whose granules are all done to a line. -/
def retiring (g w n : Nat) : State :=
  sweeping (fun x => { x with phaseNum := 1, retiring := some 3, gran := g, win := w
                              moves := (List.range w).map (fun i => (g + i, n)) })

theorem witness_SweepEvents_retirement :
    (let v : Word := 0x8000000000004000;
      booted.mailOpen 32 = true ∧ v.getLsbD 63 = true ∧ bits v.toNat 15 0 ≤ booted.xl.capacity / 2 ^ 25 ∧
        16384 ≤ bits v.toNat 15 0 ∧ booted.xl.extents = [] ∧ booted.sweep.retiringNow = false) ∧
    (retirable.mailOpen 32 = true ∧ (0x8000000001FF000F : Word).getLsbD 63 = true ∧
      retirable.retireCheck (bits (0x8000000001FF000F : Word).toNat 3 0) (bits (0x8000000001FF000F : Word).toNat 24 16) = 0) ∧
    State.reset.mailOpen 32 = false ∧
    (∀ n, n < 129 → (retiring 257 15 n).sweep.retiringNow = true ∧ (retiring 257 15 n).sweep.staged = false ∧
      256 < (retiring 257 15 n).sweep.gran ∧ (retiring 257 15 n).sweep.win = 15 ∧
      (retiring 257 15 n).sweep.done (257 + 14) = n) ∧
    (let s := retiring 256 1 128; s.sweep.gran = 256 ∧ s.sweep.win = 1 ∧ s.sweep.done 256 = 128) ∧
    (let s := retiring 0 256 128;
      s.sweep.gran = 0 ∧ s.sweep.win = 256 ∧ (∀ g, g < 256 → s.sweep.done g = 128) ∧ s.memOk) ∧
    (let s := sweeping (fun x => { x with phaseNum := 1, retiring := some 3, staged := true });
      s.sweep.retiring = some 3 ∧ s.sweep.retiringNow = true ∧ s.sweep.staged = true) ∧
    (let s := retiring 257 15 0;
      let p := s.xl.channelOf (64 * 271);
      let t : State := slotted p 0xC1 { s with
        mem := { s.mem with faulty := [64 * 271] }
        xl := { s.xl with extents := [(0, ⟨1, 0⟩)] } };
      (calBytes t.cal.installed p).getD 255 0xFF = 0xC1 ∧ t.askedAt p = none ∧ t.moveAt p = some 271 ∧ t.sweep.done 271 < 64 ∧
        64 * 271 + t.sweep.done 271 ∈ t.mem.faulty ∧ t.unscrubbed (64 * 271 + t.sweep.done 271) = false) := by
  refine ⟨?_, ⟨rfl, by decide, retireCheck_full⟩, ?_, ?_, ?_, ⟨?_, ?_, ?_, rfl⟩, ?_, ?_⟩
  all_goals decide +kernel

theorem witness_SweepEvents :
    (let s : State := { launched with xl := { launched.xl with tids := [(1, ⟨.live, 0, 1, 0, true, 0⟩)] } };
      s.work.ctxs.find? (fun c => c.tenant == 1) = some ctx1 ∧ s.mailOpen 32 = true ∧ (s.xl.tid 1).state = .live ∧
        (s.rotation 1).act = false ∧ s.trust.keys.findIdx? (fun k => k == none) = some 0) ∧
    (let r : Rotation := ⟨1, 0, true, 1, 0, 7, 33279, 2 ^ 19 - 2⟩;
      let s := slotted 1023 0xC1 (sweeping (fun x => { x with rot := [(1, r)], scrNum := 1, scrExt := some 33279 }));
      (s.rotation 1).act = true ∧ s.sweep.scrExt = some 33279 ∧ s.sweep.passed 33279 = true ∧
        (calBytes s.cal.installed 1023).getD 255 0xFF = 0xC1 ∧ s.askedAt 1023 = none ∧ s.moveAt 1023 = none ∧
        s.sweep.rot.find? (fun x => s.rotatesAt 1023 x.2) = some (1, r) ∧ 2 ^ 19 - 2 + 1 < 2 ^ 19) ∧
    (let s := sweeping (fun x => { x with rot := [(1, ⟨1, 0, true, 1, 0, 7, extents, 0⟩)] });
      (s.rotation 1).act = true ∧ extents ≤ (s.rotation 1).ext) ∧
    (let p := booted.xl.channelOf 524287;
      let s := slotted p 0xC1 (sweeping (fun x => { x with scrExt := some 0, scrLine := 524287 }));
      s.sweep.passed 0 = false ∧ (calBytes s.cal.installed p).getD 0 0xFF = 0xC1 ∧ s.askedAt p = none ∧ s.moveAt p = none ∧
        s.sweep.rot.find? (fun x => s.rotatesAt p x.2) = none ∧ s.scrubsAt p = true ∧
        s.unscrubbed (0 * 2 ^ 19 + 524287) = true ∧
        (slotted p 0xC1 (sweeping (fun x => { x with asked := [524287] }))).askedAt p = some 524287) ∧
    (let p := booted.xl.channelOf (2 ^ 34 - 1);
      let s : State := { hostSlots with host := { hostSlots.host with queue := [(31, 2 ^ 40 - 64, none)] } };
      (calBytes s.cal.installed p).getD 255 0xFF = 0xC3 ∧ s.hostReady (31, 2 ^ 40 - 64, none) = true ∧
        s.homeOf ((2 ^ 40 - 64) / 64) = p ∧ 2 ^ 40 - 64 + 64 ≤ s.xl.capacity ∧
        ∀ l ∈ linesOf (2 ^ 40 - 64) 64, s.bad (s.hostKey 31) l = false) ∧
    ((calBytes booted.cal.installed 0).getD 0 0xFF ≠ 0xC1 ∧ (calBytes booted.cal.installed 0).getD 0 0xFF ≠ 0xC3) ∧
    (let s : State := { mapped (fun x => { x with extents := [(32768, ⟨1, 0⟩)] }) with
        mem := { booted.mem with faulty := [bmBase / 64] } };
      bmBase / 64 ∈ s.patrolFinds (.bank 0) [2 ^ 17 - 1, 2 ^ 17]) ∧
    ((run.coreAt 0).job.isSome = true ∧ (run.coreAt 0).job = some job1 ∧ PathUnit.present (.walk 15) = true) := by
  refine ⟨⟨rfl, ?_⟩, ?_, ?_, ?_, ?_, ?_, ?_, ?_⟩
  all_goals decide +kernel

/-- A flit of a class from a package to another, of key 7. -/
def flit (cls : BitVec 2) (src dst : BitVec 5) : Flit := ⟨cls, .read, false, false, 0, 7, 0, src, 0, dst, 1, 0, 1, 63, []⟩

/-- An outstanding request. -/
def req1 : Req := ⟨1, 0, none, 0, .read, 1, true, 0, [], 8, 63, false, false, none, 1, 7, 1, 0, 0, 5, 3⟩

/-- A package that is not this one. -/
def peerPackage : BitVec 5 := Config.ownPackage + 1

theorem peer_other : peerPackage ≠ Config.ownPackage := by
  intro h
  have h2 := congrArg BitVec.toNat h
  unfold peerPackage at h2
  rw [BitVec.toNat_add] at h2
  have h3 := Config.ownPackage.isLt
  simp at h2
  omega

/-- A machine whose port 0 is in a state, whose ports take key 7 in, with requests outstanding. -/
def linked (p : PortState) (l : List Req) : State :=
  { ported p with links := { (ported p).links with admits := [0x80000007], reqs := l } }

theorem witness_LinkEvents_ports :
    (∀ p, (ported p).links.ports[0]? = some (port0 p) ∧ (port0 p).state = p ∧ (ported p).mailOpen 32 = true ∧
      (ported p).trust.lcNow ≠ .retired) ∧
    (let s : State := { ported .training with trust := { (ported .training).trust with lcNow := .retired } };
      s.trust.lcNow = .retired) ∧
    State.reset.mailOpen 32 = false ∧
    (4095 < 4096 ∧ (booted.links.rank 4095).getLsbD 63 = false ∧ (1 : Word) &&& 0xC000FFFF00FFFFFF#64 ≠ 0) ∧
    (31 < 32 ∧ (0x80FF0001 : W32).toNat % 65536 ≠ 0) :=
  ⟨fun p => ⟨rfl, rfl, rfl, fun h => nomatch h⟩, rfl, by decide +kernel, by decide +kernel, by decide⟩

/-- That machine with every port OPEN. -/
def allOpen (l : List Req) : State :=
  { linked .open_ l with links := { (linked .open_ l).links with ports := List.replicate 4 (port0 .open_) } }

theorem crosses_allOpen (l : List Req) (p : Nat) : (allOpen l).links.crosses p = true := by
  rcases Nat.lt_or_ge p 4 with h | h
  · have h : p = 0 ∨ p = 1 ∨ p = 2 ∨ p = 3 := by omega
    rcases h with rfl | rfl | rfl | rfl <;> rfl
  · unfold Links.crosses
    rw [decide_eq_true h]
    rfl

theorem witness_LinkEvents_flits :
    (∀ x, (allOpen []).reaches 11 x = true ∧ (allOpen []).links.crosses ((allOpen []).onward 11 x) = true ∧
      (linked .open_ []).reaches 0 x = true ∧ (linked .open_ []).links.crosses ((linked .open_ []).onward 0 x) = false) ∧
    ((∀ c, (flit c peerPackage Config.ownPackage).fits = true ∧ (flit c peerPackage Config.ownPackage).resv = 0) ∧
      ∀ p, ((linked p []).links.admitted (flit 0 0 0).pkey.toNat).isSome = true) ∧
    (∀ c, (flit c 0 peerPackage).goal ≠ Config.ownPackage) ∧
    (let s := linked .open_ [req1];
      (flit 1 peerPackage Config.ownPackage).dpkg = Config.ownPackage ∧ (∀ r ∈ s.links.reqs, r.posted = false) ∧
        s.links.reqs[0]? = some req1 ∧ req1.id % 65536 = (flit 1 peerPackage Config.ownPackage).tag.toNat ∧ req1.resp = none) ∧
    (({ flit 0 Config.ownPackage peerPackage with ret := true } : Flit).spkg = Config.ownPackage) ∧
    ((flit 0 peerPackage Config.ownPackage).spkg ≠ Config.ownPackage ∧
      (let s : State := { allOpen [] with links := { (allOpen []).links with admits := [] } };
        s.links.admitted (flit 0 0 0).pkey.toNat = none ∧ ∀ p, s.links.crosses p = true)) := by
  refine ⟨fun x => ⟨?_, crosses_allOpen _ _, rfl, rfl⟩, ⟨fun _ => ⟨rfl, rfl⟩, fun p => ?_⟩, fun c => ?_,
    ⟨rfl, by decide +kernel, rfl, by decide, rfl⟩, rfl, peer_other, by decide +kernel, fun p => crosses_allOpen [] p⟩
  · unfold State.reaches
    rw [crosses_allOpen]
    rfl
  · cases p <;> decide +kernel
  · have h : (flit c 0 peerPackage).goal = peerPackage := if_neg (fun h => by cases h.2)
    rw [h]
    exact peer_other

theorem witness_LinkEvents_requests :
    (let x : Req := { req1 with returned := true };
      let s := linked .open_ [{ x with id := 2, resp := some (0, []) }, x];
      s.links.reqs[1]? = some x ∧ x.returned = true ∧
        (∀ q ∈ (allOpen [x]).links.reqs, (allOpen [x]).links.crosses q.port = true) ∧
        ∀ (n : Nat) (q : Req), n < 1 → s.links.reqs[n]? = some q → q.sameLine x = true →
          q.returned = false ∨ q.resp.isSome = true) ∧
    (let s : State := { run with links := (linked .open_ [{ req1 with posted := true, ext := false }]).links };
      let s := s.upCore (fun c => { c with posted := [1] });
      (s.coreAt 0).posted[0]? = some 1 ∧ (s.links.reqs.find? (fun r => r.id == 1)).isSome = true ∧
        s.links.anyOpen = true ∧ (0xD : BitVec 8).toNat ≤ 0xD) := by
  refine ⟨⟨rfl, rfl, fun q _ => crosses_allOpen _ _, fun n q hn hq _ => ?_⟩, by decide +kernel⟩
  obtain rfl : n = 0 := by omega
  obtain rfl : _ = q := Option.some.inj hq
  exact .inr rfl

theorem witness_LinkEvents_endpoints :
    (let s (n : Nat) : State := { linked .open_ [req1] with
        links := { (linked .open_ [req1]).links with
          endpoints := [(5, { Endpoint.reset with window := [(0, n, flit 0 Config.ownPackage peerPackage)] })] } };
      (∀ w ∈ ((s 63).endpoint 5).window, w.2.2.cls = 0 → w.2.1 < 64) ∧
        ∃ w ∈ ((s 64).endpoint 5).window, w.2.2.cls = 0 ∧ 64 ≤ w.2.1) ∧
    7 < 8 ∧ 2047 < 2048 ∧ 1 ≠ ((linked .open_ []).endpoint 2047).expect :=
  ⟨⟨fun w hw => by
      obtain rfl : w = _ := List.mem_singleton.mp hw
      exact fun _ => by decide, _, List.mem_singleton.mpr rfl, rfl, by decide⟩, by decide, by decide, by decide +kernel⟩

theorem witness_LinkEvents_arrivals :
    let s : State := { booted with links := { booted.links with
      arrivals := [(lmPlace 0 0, 64, 1)], adds := [(bmBase, 64, 1, none, flit 0 0 0)] } }
    s.memOk ∧ s.links.arrivals[0]? = some (lmPlace 0 0, 64, 1) ∧ s.links.adds[0]? = some (bmBase, 64, 1, none, flit 0 0 0) ∧
      s.bad s.domain (lmPlace 0 0 / 64) = false ∧ s.writeWaits bmBase 8 = none ∧
      ∀ l ∈ linesOf bmBase 8, s.bad (fun l => ((s.ctx? 1).map (fun y => s.keyFor y l)).getD 0) l = false :=
  ⟨rfl, rfl, rfl, by decide +kernel⟩

/-- `run` under an open debug port, stopped, with scalar register 61 named and a platform extent. -/
def opened : State :=
  let s := run.upCore (fun c => { c with stopped := true })
  { s with
    trust := { s.trust with debugOpen := true }
    dbg := { s.dbg with reg := 61, log := 511 }
    xl := { s.xl with extents := [(32768 + 511, ⟨0xFF, 0⟩)] } }

theorem witness_DebugEvents :
    opened.trust.debugOpen = true ∧ opened.dbg.busy = false ∧ 767 ≤ 767 ∧ (opened.coreAt 0).job.isSome = true ∧
      (let s := opened.upCore (fun c => { c with stopped := false }); (s.coreAt 0).stopped = false) ∧
      (opened.coreAt 0).stopped = true ∧ Eng.matrix ≠ .copy ∧
      opened.platformExtent (bits opened.dbg.log.toNat 8 0) = true ∧ (opened.coreAt opened.dbg.core).stopped = true ∧
      opened.dbg.replaying = none ∧ 1 ≤ opened.dbg.reg.toNat ∧ opened.dbg.reg.toNat < 62 ∧
      (0x80000000000001FF : Word).getLsbD 63 = true ∧ opened.dbg.trcctl.getLsbD 63 = false ∧
      opened.platformExtent (bits (0x80000000000001FF : Word).toNat 8 0) = true ∧
      (let s : State := { opened with dbg := { opened.dbg with replaying := some (0, .matrix) } };
        s.dbg.replaying = some (0, .matrix) ∧ s.dbg.logged = []) := by decide +kernel

/-- A begun command with scalar operands. -/
def begunWith (i : Instr) (args : List Word) : Cmd := { begun i with scal := args }

/-- A machine with one command at the head of an engine. -/
def heading (s : State) (e : Eng) (x : Cmd) : State := s.upCore (fun c => c.setQueue e [x])

/-- A command of a machine with no requests outstanding awaits none. -/
theorem awaits_none {s : State} {x : Cmd} (hf : x.fail = none) (hl : s.links.reqs = []) : s.awaiting x = false := by
  simp [State.awaiting, State.reqsOf, hf, hl]

/-- A begun command is at its turn where nothing pre-empts its core. -/
theorem head_begun (e : Eng) (i : Instr) (args : List Word) {s : State} (hp : s.core.preempt = false)
    (hr : s.core.preemptReady = false) (hl : s.links.reqs = []) :
    Head (heading s e (begunWith i args)) e (begunWith i args) := by
  refine ⟨?_, fun _ => ?_, ⟨[], ?_⟩, rfl, awaits_none rfl hl, rfl, rfl, rfl⟩
  · cases e <;> exact hr
  · have h3 : (heading s e (begunWith i args)).core.preempt = false := by cases e <;> exact hp
    simp [Core.arrayStops, h3]
  · cases e <;> rfl

/-- `wide` with every vector register valid and under one tag. -/
def lanes (t : BitVec 4) : State := wide.upRegs (fun g => { g with v := List.replicate 64 ⟨0x4000000040000000, t, true⟩ })

/-- Operands of format V that name single registers. -/
def opW (t : BitVec 4) : OpV := ⟨7, 8, 16, 0, 0, 0, t, 0, 0, 0, 0, 31⟩

theorem witness_EngineActs_vector :
    (∀ i ∈ [Instr.vadd, .vsub, .vmul], ∀ t ∈ [0xC#4, 1#4],
      let x := begunWith (i (opW t)) []
      let s := heading (lanes t) .vector x
      Head s .vector x ∧ s.tagAt x (opW t).a.toNat = (opW t).t ∧ s.tagAt x (opW t).b.toNat = (opW t).t) ∧
    (∀ p ∈ [(0xC#4, 4), (0xF#4, 1)], ∀ i ∈ [Instr.vld, .vst],
      let o := opW p.1
      let x := begunWith (i o) [64]
      let s := heading (lanes p.1) .vector x
      Head s .vector x ∧ s.replaysHere = false ∧ s.memOk ∧ o.ldTag = p.1.toNat ∧ s.tagAt x o.d.toNat = p.1.toNat ∧
        memBits p.1.toNat = 8 * p.2 ∧ elemBits p.1.toNat = 8 * p.2 ∧
        ∀ e, e < elemsPerReg p.1.toNat → s.goodAt (s.lmAt (x.arg 0 + e * p.2)) p.2) ∧
    (let o := { opW 0 with d := 3, a := 1 };
      Head (heading run .vector (begunWith (.mnot o) [])) .vector (begunWith (.mnot o) []) ∧ o.d ≠ 0) := by
  refine ⟨fun i hi t ht => ⟨head_begun _ _ _ rfl rfl rfl, ?_⟩, fun p hp i hi => ⟨head_begun _ _ _ rfl rfl rfl, rfl, rfl, ?_⟩,
    head_begun _ _ _ rfl rfl rfl, by decide⟩
  · simp only [List.mem_cons, List.not_mem_nil, or_false] at hi ht
    rcases hi with rfl | rfl | rfl <;> rcases ht with rfl | rfl <;> decide +kernel
  · unfold State.goodAt
    simp only [List.mem_cons, List.not_mem_nil, or_false] at hi hp
    rcases hi with rfl | rfl <;> rcases hp with rfl | rfl <;> decide +kernel

theorem witness_EngineActs_arrays :
    (∀ i ∈ [Instr.mswap, .mzero, .mretFree, .mldw, .mlda, .mmul, .mret], ∀ w,
      Head (heading (planed false) .matrix (begunWith (i (opE 0 w 0)) [0, 256, 0]))
        .matrix (begunWith (i (opE 0 w 0)) [0, 256, 0])) ∧
    (let s := heading (planed false) .matrix (begunWith (.mret (opE 0 0x2010 0)) [0, 256, 0]);
      s.memOk ∧ s.replaysHere = false ∧ s.core.arrays.wbs = false ∧ s.core.arrays.abs_ = false ∧
        planeOk s.core.arrays.w0 s.core.arrays.atag = true ∧ memBytes 2 64 ≤ 256 ∧
        (∀ n ∈ [memBytes 2 64, rowBytesW s.core.arrays.wtag, rowBytesA s.core.arrays.atag], n ≤ 256) ∧
        ∀ k, k < 65 → s.goodAt (s.lmAt (k * 256)) 256) ∧
    (∀ i ∈ [Instr.plswap, .plclr, .plload], ∀ w1 w2,
      Head (heading wide .plait (begunWith (i (opE 0 w1 w2)) [0, 256])) .plait (begunWith (i (opE 0 w1 w2)) [0, 256])) ∧
    (let w : W32 := 0x10001029;
      let s := heading wide .plait (begunWith (.plload (opE 0 0 w)) [0, 256]);
      plF2 w + plF3 w ≤ 41 ∧ memBits (plF w) = 8 * plWidth (plF w) ∧ s.replaysHere = false ∧ plF1 w = 1 ∧
        ∀ i, i < 2 → ∀ l, l < 41 → s.goodAt (s.lmAt (0 + i * 256 + l * plWidth (plF w))) (plWidth (plF w))) := by
  refine ⟨fun i _ w => head_begun _ _ _ rfl rfl rfl, ⟨rfl, rfl, ?_⟩, fun i _ w1 w2 => head_begun _ _ _ rfl rfl rfl, ?_⟩
  all_goals unfold State.goodAt; decide +kernel

/-- A copy command of two rows of 96 bytes within the LM share, from offset 0 to offset 4096. -/
def copying (i : Instr) (started : Bool) : Cmd :=
  let v : View := { wide.ownView 0 0 with base := lmPlace 0 0 }
  { begunWith i [0, 128, 2, 96, 4096, 128, 0, 0xA5] with started := started, views := [v, v] }

theorem witness_EngineActs_copies :
    (∀ b, ∀ i ∈ [Instr.cpy, .cpfill],
      let x := copying (i (opE 0 0 0)) b
      let s := wide.upCore (fun c => { c with cq := [x] })
      s.core.preemptReady = false ∧ s.core.cq[0]? = some x ∧ x.ready = true ∧ s.awaiting x = false ∧ x.fail = none ∧
        x.started = b ∧ x.broken = false ∧ s.trust.debugOpen = false ∧ s.memOk ∧ s.requestsFull = false) ∧
    (∀ i ∈ [Instr.cpy, .cpfill],
      let x := copying (i (opE 0 0 0)) true
      let s := wide.upCore (fun c => { c with cq := [x] })
      s.cmd? .copy x.prod = some x ∧ x.isRun = false ∧ x.cursor = 0 ∧ x.dst.kind = 0 ∧ x.src.kind = 0 ∧
        x.src.local_ = true ∧ x.dst.local_ = true ∧
        (∀ k, k < x.rows → s.goodAt (x.dst.base + x.x2 + k * x.y2) x.len ∧ s.goodAt (x.src.base + x.x1 + k * x.y1) x.len) ∧
        (∀ k, k < x.rows → ∀ col, col < x.len → x.undefAt k col = false ∧
          rowHits (x.dst.base + x.x2) x.y2 x.rows x.len (x.dst.base + x.x2 + k * x.y2 + col) ≤ 1) ∧
        (copyUnits { x with cursor := 3 }).1 ≤ 3 ∧ ∀ g o, x.instr ≠ .tblbase g o) := by
  refine ⟨fun b i hi => ?_, fun i hi => ?_⟩
  · simp only [List.mem_cons, List.not_mem_nil, or_false] at hi
    rcases hi with rfl | rfl <;> exact ⟨rfl, rfl, rfl, awaits_none rfl rfl, rfl, rfl, rfl, rfl, rfl, rfl⟩
  · simp only [List.mem_cons, List.not_mem_nil, or_false] at hi
    rcases hi with rfl | rfl <;> exact ⟨rfl, rfl, rfl, rfl, rfl, rfl, rfl, by unfold State.goodAt; decide +kernel,
      by decide +kernel, by decide +kernel, fun g o h => nomatch h⟩

/-! ## Words of the spec's encodings -/

/-- The decoder reads one instruction, all its words, under the largest register counts. -/
def reads (ws : List W32) (i : Instr) : Bool := decode Limits.max ws == .ok i ws.length

/-! The words of the worked example of 07. -/

theorem decode_ld_acquire : reads [0x60531F5B] (.ld ⟨5, 3, 7, 3, 1, 3, 3, 0⟩) = true := by decide +kernel
theorem decode_ld_literal : reads [0x6053FB58, 0x40] (.ld ⟨5, 3, 62, 3, 1, 3, 0, 0x40⟩) = true := by decide +kernel
theorem decode_bad_scope : decode Limits.max [0x60531F6B] = .illegal .field := by decide +kernel
theorem decode_bad_order : decode Limits.max [0x64531F5B] = .illegal .field := by decide +kernel
theorem decode_bad_literal : decode Limits.max [0x63E31F5B] = .illegal .literal := by decide +kernel
theorem decode_bad_major : decode Limits.max [0x6C000000] = .illegal .major ∧ decode Limits.max [0] = .illegal .major := by
  decide +kernel
theorem decode_literal_missing : decode Limits.max [0x6053FB58] = .short := by decide +kernel

/-! The words of the worked examples of 09, 10, 11 and 13. -/

theorem decode_vld : reads [0x80000080, 0x00100000] (.vld ⟨0, 0, 0, 2, 0, 0, 1, 0, 0, 0, 0, 0⟩) = true := by decide +kernel
theorem decode_vscale : reads [0x90800002, 0x20400240] (.vscale ⟨8, 0, 0, 0, 2, 0, 4, 0, 0, 0, 0, 9⟩) = true := by decide +kernel
theorem decode_vst : reads [0x80800701, 0x00000080] (.vst ⟨8, 0, 7, 0, 0, 0, 0, 0, 0, 0, 0, 2⟩) = true := by decide +kernel
theorem decode_mcfg : reads [0xC0000000, 0x22000000] (.mcfg ⟨0, 0, 0, 0, 0x22000000, 0, 0, 0⟩) = true := by decide +kernel
theorem decode_mldw : reads [0xC0108000, 0] (.mldw ⟨1, 0, 0, 0, 0, 0, 0, 0⟩) = true := by decide +kernel
theorem decode_mswap : reads [0xC0200000, 0] (.mswap ⟨0, 0, 0, 0, 0, 0, 0, 0⟩) = true := by decide +kernel
theorem decode_mmul : reads [0xC0410000, 0x0F800000, 0x00040000, 0x2000]
    (.mmul ⟨2, 0, 0, 0, 0x0F800000, 0x00040000, 0, 0x2000⟩) = true := by decide +kernel
theorem decode_mret : reads [0xC0718000, 0x0F801000, 0x4000] (.mret ⟨3, 0, 0, 0, 0x0F801000, 0, 0, 0x4000⟩) = true := by
  decide +kernel
theorem decode_plload : reads [0xD0108000, 0, 0x10021029] (.plload ⟨1, 0, 0, 0, 0, 0x10021029, 0, 0⟩) = true := by
  decide +kernel
theorem decode_plqr : reads [0xD0210000, 0x0F801C80, 0x10041002, 0x200]
    (.plqr ⟨2, 0, 0, 0, 0x0F801C80, 0x10041002, 0, 0x200⟩) = true := by decide +kernel
theorem decode_plsolve : reads [0xD0318000, 0x0F800000, 0x01001802, 0x800]
    (.plsolve ⟨3, 0, 0, 0, 0x0F800000, 0x01001802, 0, 0x800⟩) = true := by decide +kernel

/-! Words put together from the layouts of R139 to R144 and the codes of 08, 15 and 20. -/

theorem decode_add : reads [0x04104200] (.add (opA 1 1 2)) = true := by decide +kernel
theorem decode_addi : reads [0x0861E000] (.addi ⟨6, 7, 0x2000⟩) = true := by decide +kernel
theorem decode_shrai : reads [0x3C10603F] (.shrai ⟨1, 1, 0x03F⟩) = true := by decide +kernel
theorem decode_clz : reads [0x34104000] (.clz (opA 1 1 0)) = true := by decide +kernel
theorem decode_fmul : reads [0x20104222] (.fmul 1 (opA 1 1 2)) = true := by decide +kernel
theorem decode_fmul_double : reads [0x24107F22, 0x2, 0x1] (.fmulFp64 1 ⟨1, 1, 63, 0x100000002⟩) = true := by decide +kernel
theorem decode_qand : reads [0x3020C401] (.qand (opA 2 3 4)) = true := by decide +kernel
theorem decode_br : reads [0x4041FFFF] (.brEqz ⟨1, 0xFFFF⟩) = true := by decide +kernel
theorem decode_call : reads [0x4810BE02, 0x40] (.call ⟨1, 2, 62, 0x40⟩) = false := by decide +kernel
theorem decode_call_link : reads [0x48103E02, 0x40] (.call ⟨1, 0, 62, 0x40⟩) = true := by decide +kernel
theorem decode_watch : reads [0x4C20C40A] (.watch 2 (opA 2 3 4)) = true := by decide +kernel
theorem decode_csrset : reads [0x50106012] (.csrset ⟨1, 1, 0x012⟩) = true := by decide +kernel
theorem decode_hquery : reads [0x68108001] (.hquery (opA 1 2 0)) = true := by decide +kernel
theorem decode_fence : reads [0x78000034] (.fence 4 (opA 0 0 0)) = true := by decide +kernel
theorem decode_kwait : reads [0xF010C100] (.kwait (opA 1 3 1)) = true := by decide +kernel
theorem decode_barrive : reads [0xF0F0C111] (.barrive (opA 15 3 1)) = true := by decide +kernel
theorem decode_tblstart : reads [0xF410C103] (.tblstart 3 (opA 1 3 1)) = true := by decide +kernel
theorem decode_eret : reads [0xF8000000] (.eret (opA 0 0 0)) = true := by decide +kernel

/-! ## Single steps, with results worked out from the spec -/

/-- A property of the state after an instruction. -/
def then_ (i : Instr) (s : State) (p : State → Bool) : Bool :=
  match exec i s with
  | .next t => p t
  | _ => false

/-- `run` with s1 and s2 set. -/
def with12 (x y : Word) : State := (run.setS 1 x).setS 2 y

/-- R157: the one signed overflow gives the dividend and remainder 0, without a flag. -/
theorem test_divs_overflow : then_ (.divs (opA 3 1 2)) (with12 0x8000000000000000 (-1))
    (fun t => t.getS 3 == 0x8000000000000000 && t.core.live.flags == 0) = true := by decide +kernel
theorem test_rems_sign : then_ (.rems (opA 3 1 2)) (with12 (-7) 2) (fun t => t.getS 3 == -1) = true := by decide +kernel
/-- R157: an unsigned division by zero gives all ones and sets DZ. -/
theorem test_divu_by_zero : then_ (.divu (opA 3 1 2)) (with12 5 0)
    (fun t => t.getS 3 == BitVec.allOnes 64 && t.core.live.flags == 8) = true := by decide +kernel
/-- R156: the count of a shift is taken modulo 64, the literal of fp code 62 sign-extends (R138). -/
theorem test_shl_count : then_ (.shl (opA 3 1 2)) (with12 3 65) (fun t => t.getS 3 == 6) = true := by decide +kernel
theorem test_s0_discards : then_ (.add (opA 0 1 2)) (with12 3 4) (fun t => t.getS 0 == 0 && t.core.pc == 4) = true := by
  decide +kernel
/-- R158: a field that reaches beyond bit 63 is cut there. -/
theorem test_bext_cut : then_ (.bext (opA 3 1 2)) (with12 0xF000000000000000 0x083C)
    (fun t => t.getS 3 == 0xF) = true := by decide +kernel
theorem test_bins_in_place : then_ (.bins (opA 1 2 3)) ((with12 (-1) 0).setS 3 0x0404)
    (fun t => t.getS 1 == 0xFFFFFFFFFFFFFF0F) = true := by decide +kernel
/-- R160: 1 + 2^-24 in FP32 is a tie to even: 1, inexact (INX is bit 0 of R70). -/
theorem test_fadd_tie : then_ (.fadd 0 (opA 3 1 2)) (with12 0x3F800000 0x33800000)
    (fun t => t.getS 3 == 0x3F800000 && t.core.live.flags == 1) = true := by decide +kernel
/-- R161: a comparison with a quiet NaN: .lt gives 0 and sets INV. -/
theorem test_fcmp_nan : then_ (.fcmp 1 (opA 3 1 2)) (with12 0x3F800000 0x7FC00000)
    (fun t => t.getS 3 == 0 && t.core.live.flags == 16) = true := by decide +kernel
/-- R166: the link of CALL with a literal is the address after both words. -/
theorem test_call_link : then_ (.call ⟨5, 0, 62, 16⟩) (at_ 8) (fun t => t.core.pc == 16 && t.getS 5 == 16) = true := by
  decide +kernel
/-- R167: LOOP lowers its counter and goes back. -/
theorem test_loop_back : then_ (.loop 0 ⟨0, 0xFFFF⟩) (looping 2 0)
    (fun t => t.core.pc == 0 && t.core.live.lc.getD 0 9 == 1) = true := by decide +kernel
/-- R420: SYSCALL saves the address after it, and its operand. -/
theorem test_syscall : Gives (.syscall (opA 0 0 1)) (run.setS 1 77)
    (fun t => TrapTaken (run.setS 1 77) t 0x16 77 4 60) :=
  ⟨_, rfl, trapEntry_ready _ _ _ _ _ _ ⟨rfl, rfl, entry_run _ rfl rfl rfl (by decide +kernel), rfl⟩⟩
/-- R424: ERET goes back to EPC, unprivileged. -/
theorem test_eret : then_ (.eret (opA 0 0 0)) (privy.upCore (fun c => { c with epc := 12 }))
    (fun t => !t.core.priv && t.core.pc == 12) = true := by decide +kernel
/-- R134: a privileged instruction in a strand that is not traps with PRIV. -/
theorem test_priv : Gives (.halt (opA 0 0 0)) run (fun t => ∃ i, TrapTaken run t 0x11 i 0 60) :=
  ⟨_, rfl, _, trapEntry_ready _ _ _ _ _ _ ready⟩
/-- R316: bytes are little-endian, and a byte load zero-extends. -/
theorem test_store_load : then_ (.st (opM 0 8 1 0)) (run.setS 1 0xA1F2) (fun t =>
    then_ (.ld ⟨4, 0, 62, 0, 0, 0, 0, 9⟩) t (fun u => u.getS 4 == 0xA1)) = true := by decide +kernel
/-- R455: a store to a line of HBM that the scrub has still to pass waits, the sweep engine asked for the line. -/
theorem test_scrub_wait : then_ (.st (opM 3 4088 3 2)) { run with xl := { run.xl with extents := [] } } (fun t =>
    t.core.stall == .scrub 63 && t.sweep.asked == [63] && t.core.pc == 0) = true := by decide +kernel
/-- R16: a translation that no cache holds waits while its walk unit has no slot. -/
theorem test_walk_wait : then_ (.ld (opM 3 4088 3 2)) { run with
    cal := State.reset.cal, xl := { run.xl with cache := [], tids := [(1, ⟨.live, 0, 1, 0, true, 0⟩)] } }
    (fun t => t.core.stall == .walk) = true := by decide +kernel
/-- R382: CAS with the expected value writes the new one and returns the old. -/
theorem test_cas : then_ (.atomCas (opM 0 8 2 0) 2 3) (((run.setS 1 9).setS 2 0).setS 3 7)
    (fun t => t.getS 1 == 0 && leNat (memRead t.mem.cells (lmPlace 0 8) 4) == 7) = true := by decide +kernel
/-- R370, R421: KWAIT on a token with status 3 traps with cause 3 and the token mark, bit 9. -/
theorem test_kwait_trap : Gives (.kwait (opA 31 0 0)) (tok 31 ⟨false, 3, 0, 0⟩)
    (fun t => ∃ i, TrapTaken (tok 31 ⟨false, 3, 0, 0⟩) t 0x203 i 0 60) :=
  ⟨_, rfl, _, trapEntry_ready _ _ _ _ _ _ ⟨rfl, rfl, entry_run _ rfl rfl rfl (by decide +kernel), rfl⟩⟩
/-- R181: CSRSET returns the old value and sets the bits that exist. -/
theorem test_csrset : then_ (.csrset ⟨3, 1, 0x011⟩) (run.setS 1 0xFF)
    (fun t => t.getS 3 == 0 && t.core.live.flagen == 0x1F) = true := by decide +kernel
/-- R321: HDROP empties the register, and a load through it is stale (R85). -/
theorem test_hdrop : Gives (.hdrop (opA 0 2 0)) run (fun t =>
    Gives (.ld (opM 2 0 3 0)) t (fun u => ∃ i, TrapTaken t u 5 i 4 60)) :=
  ⟨_, rfl, _, rfl, _, trapEntry_ready _ _ _ _ _ _ ⟨rfl, rfl, entry_run _ rfl rfl rfl (by decide +kernel), rfl⟩⟩
/-- A loaded w0 and an MSWAP at the head of the matrix queue. -/
def tabledSwap : State := (planed false).upCore (fun c => c.setQueue .matrix [begun (.mswap (opE 0 0 0))])

/-- R242: MSWAP at its turn exchanges the planes; the queue is empty after it. -/
theorem test_mswap_turn : then_ (.matrixExecute 0) (tabledSwap)
    (fun t => t.core.arrays.w1.valid && !t.core.arrays.w0.valid && t.core.mq.isEmpty) = true := by decide +kernel

end Sys2Proof.Tests
end

section
/-! Host writes of registers and the host's accesses of memory (06 R107 to R110; 12 R298 to R310; 16 R397; 20 R417,
R430; 23 R471): what each does, from the rules of the operations it goes through. -/

namespace Sys2Proof.Machine

/-! ### Function registers -/

theorem fn_upFn (s : State) (f h : Nat) (g : Fn → Fn) :
    (s.upFn f g).fn h = if h = f then g (s.fn f) else s.fn h := getD_upd _ _ _ _ _

@[simp] theorem fn_upFn_self (s : State) (f : Nat) (g : Fn → Fn) : (s.upFn f g).fn f = g (s.fn f) := by
  rw [fn_upFn, if_pos rfl]

/-- A mailbox that is open belongs to one of the 33 functions. -/
theorem le_of_mailOpen {s : State} {f : Nat} (h : s.mailOpen f = true) : f ≤ 32 := by
  simp only [State.mailOpen, Bool.and_eq_true, decide_eq_true_eq] at h
  exact h.1.2

/-! ### TDISP states, kept by all that ends a context -/

/-- Every function's TDISP state is as it was. -/
def State.tdispKept (s t : State) : Prop := ∀ f, (t.fn f).tdisp = (s.fn f).tdisp

theorem tdispKept_refl (s : State) : s.tdispKept s := fun _ => rfl

theorem tdispKept_trans {s t u : State} (h : s.tdispKept t) (k : t.tdispKept u) : s.tdispKept u :=
  fun f => (k f).trans (h f)

theorem tdispKept_of_fns {s t : State} (h : t.fns = s.fns) : s.tdispKept t := fun f => by
  simp only [State.fn, h]

theorem tdispKept_foldl {α : Type} (g : State → α → State) (h : ∀ (s : State) a, s.tdispKept (g s a)) (l : List α)
    (s : State) : s.tdispKept (l.foldl g s) :=
  List.foldlRecOn (motive := s.tdispKept) l g (tdispKept_refl s) (fun t ht a _ => tdispKept_trans ht (h t a))

theorem upFn_tdispKept (s : State) (f : Nat) (g : Fn → Fn) (h : ∀ n, (g n).tdisp = n.tdisp) :
    s.tdispKept (s.upFn f g) := fun k => by
  rw [fn_upFn]
  split
  · next e => rw [h, e]
  · rfl

theorem complete_tdispKept (s : State) (f : Nat) (r : List Byte) : s.tdispKept (s.complete f r) := by
  unfold State.complete
  split
  · exact upFn_tdispKept _ _ _ (fun _ => rfl)
  · exact tdispKept_refl s

theorem recordsLeft_tdispKept (s : State) (f n : Nat) : s.tdispKept (s.recordsLeft f n) := by
  have left : s.tdispKept (s.upFn f (fun x => { x with endLeft := n })) := upFn_tdispKept _ _ _ (fun _ => rfl)
  unfold State.recordsLeft
  dsimp only
  split
  · exact tdispKept_trans left (upFn_tdispKept _ _ _ (fun _ => rfl))
  · exact left

theorem leaveRun_tdispKept (s : State) (f : Nat) : s.tdispKept (s.leaveRun f) :=
  tdispKept_trans (upFn_tdispKept s f (fun n => { n with waiting := [], submitted := [], lqHead := n.lqTail })
    (fun _ => rfl)) (recordsLeft_tdispKept _ f 0)

theorem rotationGone_tdispKept (s : State) (t : Nat) : s.tdispKept (s.rotationGone t) := by
  unfold State.rotationGone
  split
  · exact upFn_tdispKept _ _ _ (fun _ => rfl)
  · exact tdispKept_refl s

theorem startScrubSweep_keeps (s : State) : s.startScrubSweep.fns = s.fns ∧ s.startScrubSweep.work = s.work := by
  unfold State.startScrubSweep
  split
  · exact ⟨rfl, rfl⟩
  · split <;> exact ⟨rfl, rfl⟩

theorem startScrub_keeps (s : State) (c : Ctx) : (s.startScrub c).fns = s.fns ∧ (s.startScrub c).work = s.work :=
  startScrubSweep_keeps _

theorem settleTids_keeps (s : State) : s.settleTids.fns = s.fns ∧ s.settleTids.work = s.work := ⟨rfl, rfl⟩

theorem rotationGone_work (s : State) (t : Nat) : (s.rotationGone t).work = s.work := by
  unfold State.rotationGone
  split <;> rfl

/-! ### The contexts that an end of context leaves -/

/-- What launches hold freed and their strands stopped, without a write back: no register of a function and no
context of the list changes. -/
theorem stopped_freed_keeps (s : State) (p : Nat → Bool) :
    ((s.stopStrands p false).freeLaunch p).fns = s.fns ∧
      ((s.stopStrands p false).freeLaunch p).work.ctxs = s.work.ctxs := ⟨rfl, rfl⟩

theorem complete_keeps (s : State) (f : Nat) (r : List Byte) :
    (s.complete f r).work = s.work ∧ ∀ n, (s.complete f r).coreAt n = s.coreAt n := by
  unfold State.complete
  split <;> exact ⟨rfl, fun _ => rfl⟩

/-- An end of a context takes every context of its number, and no other, off the list. -/
theorem endContext_ctxs (s : State) (num st cause : Nat) :
    (s.endContext num st cause).work.ctxs = s.work.ctxs.filter (fun c => c.num != num) := by
  unfold State.endContext
  split
  · next h =>
    refine (List.filter_eq_self.mpr fun c hc => ?_).symm
    have := List.find?_eq_none.mp h c hc
    simpa using this
  · next c _ =>
    dsimp only
    rw [(settleTids_keeps _).2, (startScrub_keeps _ _).2, rotationGone_work]
    dsimp only
    rw [(foldl_keeps _ (fun t a => complete_keeps t _ _) _ _).1,
      (foldl_keeps _ (fun t a => complete_keeps t _ _) _ _).1, (stopped_freed_keeps _ _).2,
      (foldl_keeps _ (fun t a => complete_keeps t _ _) _ _).1]

theorem tdispKept_record {s t : State} (w : Work) (r : List Replay) (l : Links) (h : s.tdispKept t) :
    s.tdispKept { t with work := w, replays := r, links := l } := h

theorem endContext_tdispKept (s : State) (num st cause : Nat) : s.tdispKept (s.endContext num st cause) := by
  unfold State.endContext
  split
  · exact tdispKept_refl s
  · dsimp only
    refine tdispKept_trans ?_ (tdispKept_of_fns (settleTids_keeps _).1)
    refine tdispKept_trans ?_ (tdispKept_of_fns (startScrub_keeps _ _).1)
    refine tdispKept_trans ?_ (rotationGone_tdispKept _ _)
    refine tdispKept_record _ _ _ ?_
    refine tdispKept_trans ?_ (tdispKept_foldl _ (fun t a => complete_tdispKept t _ _) _ _)
    refine tdispKept_trans ?_ (tdispKept_foldl _ (fun t a => complete_tdispKept t _ _) _ _)
    refine tdispKept_trans ?_ (tdispKept_of_fns (stopped_freed_keeps _ _).1)
    exact (tdispKept_foldl _ (fun t a => complete_tdispKept t _ _) _ _)

theorem loseContext_tdispKept (s : State) (num cause : Nat) : s.tdispKept (s.loseContext num cause) :=
  tdispKept_trans (tdispKept_of_fns (State.logRec_fns s .contextLost num cause 0)) (endContext_tdispKept _ _ _ _)

theorem loseAll_tdispKept (s : State) (f cause : Nat) : s.tdispKept (s.loseAll f cause) :=
  tdispKept_foldl _ (fun t n => loseContext_tdispKept t n cause) _ s

theorem loseContext_ctxs (s : State) (num cause : Nat) :
    (s.loseContext num cause).work.ctxs = s.work.ctxs.filter (fun c => c.num != num) := endContext_ctxs _ _ _ _

theorem mem_ctxs_foldl_loseContext (l : List Nat) (cause : Nat) (s : State) (c : Ctx) :
    c ∈ (l.foldl (fun s n => s.loseContext n cause) s).work.ctxs ↔ c ∈ s.work.ctxs ∧ c.num ∉ l := by
  induction l generalizing s with
  | nil => simp
  | cons n l ih => simp [ih, loseContext_ctxs, and_assoc]

/-- No context of a function is left after all of them are declared lost. -/
theorem fn_ne_of_mem_loseAll {s : State} {f cause : Nat} {c : Ctx} (h : c ∈ (s.loseAll f cause).work.ctxs) :
    c.fn ≠ f := fun e => by
  obtain ⟨hc, hn⟩ := (mem_ctxs_foldl_loseContext _ _ _ _).mp h
  exact hn (List.mem_map_of_mem (List.mem_filter.mpr ⟨hc, by simp [e]⟩))

/-- Entry to TDISP ERROR (R38): the function is there, and none of its contexts is left. -/
theorem toError_spec (s : State) (f : Nat) :
    ((s.toError f).fn f).tdisp = .error ∧ ∀ c ∈ (s.toError f).work.ctxs, c.fn ≠ f := by
  refine ⟨?_, fun c hc => fn_ne_of_mem_loseAll hc⟩
  have kept := tdispKept_trans (leaveRun_tdispKept (s.upFn f (fun n => { n with tdisp := .error })) f)
    (loseAll_tdispKept _ f 0)
  exact (kept f).trans (by rw [fn_upFn_self])

/-! ### Writes of the physical function's registers -/

/-- A host write takes effect once the mailbox of the physical function answers (R25). -/
theorem gives_hostWrite {i : Instr} {s : State} {act : State → State} {p : State → Prop}
    (h : exec i s = .next (s.hostWrite act)) (up : s.mailOpen 32 = true) (hp : p (act s)) : Gives i s p :=
  ⟨act s, by rw [h, State.hostWrite, physFn, if_pos up], hp⟩

theorem gives_hostWrite_shut {i : Instr} {s : State} {act : State → State}
    (h : exec i s = .next (s.hostWrite act)) (shut : ¬s.mailOpen 32 = true) : Gives i s (fun t => t = s) :=
  ⟨s, by rw [h, State.hostWrite, physFn, if_neg shut], rfl⟩

/-- Before that, none of these writes has any effect. -/
theorem hostWrites_shut {s : State} (shut : ¬s.mailOpen 32 = true) (v : Word) (off i : Nat) (bs : List Byte) :
    ∀ x ∈ [Instr.ptCommit, .calendarGo, .calendarPost, .patChange v, .xlinv v, .walkApertureWrite off bs,
      .pageRequestClose i, .pageRequestRefuse i, .saveAreaCheck i], Gives x s (fun t => t = s) := by
  simp only [List.forall_mem_cons, List.not_mem_nil, false_implies, implies_true, and_true]
  refine ⟨?_, ?_, ?_, ?_, ?_, ?_, ?_, ?_, ?_⟩ <;> exact gives_hostWrite_shut rfl shut

/-! ### Partitions and calendars -/

/-- A commit whose checks pass installs the written table (R110). -/
theorem gives_ptCommitDone {s : State} {p : State → Prop} (busy : s.part.busy = true) (ok : s.commitFails = none)
    (hp : p s.installParts) : Gives .ptCommitDone s p :=
  ⟨s.installParts, by
    show Host.Outcome.next _ = _
    rw [busy, ok]; rfl, hp⟩

theorem calGo_pass {s : State} (idle : s.cal.busy = false) (ok : s.calCheck s.cal.pending false = 0) :
    s.calGo = { s with cal := { s.cal with busy := true, code := 0, staged := some s.cal.pending } } := by
  simp [State.calGo, idle, ok]

theorem calPost_pass {s : State} (idle : s.cal.busy = false) (ok : s.calCheck s.cal.pending true = 0) :
    s.calPost = { s with cal := { s.cal with code := 0, post := some s.cal.pending } } := by
  simp [State.calPost, idle, ok]

theorem gives_calendarInstall {s : State} {l : List (Nat × List Byte)} (h : s.cal.staged = some l) :
    Gives .calendarInstall s (fun t => t.cal.installed = l ∧ t.cal.staged = none ∧ t.cal.busy = false) := by
  refine ⟨_, rfl, ?_⟩
  rw [h]
  exact ⟨rfl, rfl, rfl⟩

/-! ### Extents and translation -/

/-- An extent change whose check passes gives the extent its new owner (R310). -/
theorem gives_patChangeDone {s : State} (busy : s.xl.patBusy = true) {owner ix e : Nat} {bm : Bool}
    (ho : owner = bits s.xl.patop.toNat 23 16) (hb : bm = bit s.xl.patop.toNat 15)
    (hi : ix = bits s.xl.patop.toNat 14 0) (he : e = if bm then 32768 + ix else ix) (ok : s.patCheck bm ix owner = 0) :
    Gives .patChangeDone s (fun t => t.xl.extent e = { s.xl.extent e with owner := BitVec.ofNat 8 owner } ∧
      t.xl.patBusy = false ∧ t.xl.patCode = 0 ∧ t.mem = s.mem) := by
  subst ho hb hi he
  refine ⟨_, rfl, ?_⟩
  simp only [busy, ok, Bool.not_true, Bool.false_eq_true, if_false, ne_eq, not_true_eq_false]
  refine ⟨?_, rfl, rfl, rfl⟩
  simp only [State.settleTids, Xlat.extent, lookup_insertKey_self, Option.getD_some]

/-- Watchers marked: nothing else of the machine changes (R119). -/
theorem wakeBy_only_watchers (s : State) (hit : Watcher → Bool) :
    ∃ l, s.wakeBy hit = { s with mem := { s.mem with watchers := l } } := by
  unfold State.wakeBy
  split
  · exact ⟨s.mem.watchers, rfl⟩
  · exact ⟨_, rfl⟩

theorem maskNow_xl {s t : State} {dom : Nat → Nat} {line : Nat} {bs : List (Byte × Bool)} {i : Word}
    (h : s.maskNow dom line bs i = .ok t) : t.xl = s.xl := by
  unfold State.maskNow at h
  dsimp only at h
  split at h
  · cases h
  · cases h
    split
    · obtain ⟨_, e⟩ := wakeBy_only_watchers _ _
      rw [e]
    · rfl

theorem maskNow_error_xl {s t : State} {dom : Nat → Nat} {line : Nat} {bs : List (Byte × Bool)} {i : Word}
    {why : Stop} (h : s.maskNow dom line bs i = .error (why, t)) : t.xl = s.xl := by
  unfold State.maskNow at h
  dsimp only at h
  split at h
  · cases h; rfl
  · cases h

theorem writeBackLoose_xl (dom : Nat → Nat) (c : Nat) (ls : List LineBuf) (s : State) :
    (s.writeBackLoose dom c ls).xl = s.xl := by
  induction ls generalizing s with
  | nil => rfl
  | cons l ls ih =>
    rw [State.writeBackLoose, ih]
    split
    · rfl
    · split
      · next h => exact maskNow_xl h
      · next h =>
        rw [State.logRec_xl]
        exact maskNow_error_xl h

theorem writeBackCores_xl (s : State) (p : Core → Bool) : (s.writeBackCores p).xl = s.xl :=
  List.foldlRecOn (motive := fun t : State => t.xl = s.xl) _ _ rfl (fun _ h _ _ => (writeBackLoose_xl _ _ _ _).trans h)

theorem onceLoose_nil {s : State} {p : Core → Bool} (f : State → State) (h : s.looseWaits p = []) :
    s.onceLoose p f = f s := by
  simp only [State.onceLoose, h]

/-- An invalidation that nothing holds up ends, and takes from the caches entries of its tenant alone, every one of them
where it names the whole tenant (R300). -/
theorem gives_xlinvComplete {s : State} {tenant : Nat} (ht : tenant = bits s.xl.xlinv.toNat 55 48)
    (busy : s.xl.xlBusy = true) (adds : s.links.adds = [])
    (held : ∀ k ∈ s.core :: s.parked.map (fun p => p.2), s.heldBack k = false)
    (waits : s.looseWaits (fun k => k.runs (fun j => j.tenant == tenant)) = []) :
    Gives .xlinvComplete s (fun t => t.xl.xlBusy = false ∧
      (bit s.xl.xlinv.toNat 62 = true → ∀ x ∈ t.xl.cache, x.tenant ≠ tenant) ∧
      ∀ x ∈ s.xl.cache, x.tenant ≠ tenant → x ∈ t.xl.cache) := by
  subst ht
  have free : (s.core :: s.parked.map (fun p => p.2)).any s.heldBack = false :=
    List.any_eq_false.mpr (fun k hk => by simp [held k hk])
  refine ⟨_, rfl, ?_⟩
  simp only [busy, free, adds, Bool.not_true, Bool.or_false, List.isEmpty_nil, Bool.false_eq_true, if_false,
    onceLoose_nil _ waits, State.onCores_xl, writeBackCores_xl]
  refine ⟨trivial, fun whole x hx e => ?_, fun x hx ne => ?_⟩
  · have := (List.mem_filter.mp hx).2
    simp [whole, e] at this
  · exact List.mem_filter.mpr ⟨hx, by simp [ne]⟩

/-- A line of walk space that is not poisoned takes a write with no entry of it changed (R444). -/
theorem mendWalk_xl {s : State} {line : Nat} (p : Nat) (h : line ∉ s.xl.walkBad) : (s.mendWalk line p).xl = s.xl := by
  simp [State.mendWalk, h]

/-- A write of the walk aperture with an entry that passes its checks puts that entry alone (R298). -/
theorem apertureWrite_entry {s : State} {off a fr : Nat} {bs : List Byte} (ha : a = off % 2 ^ 27)
    (hf : fr = (a - 2 ^ 20) / 16 * 16 + off / 2 ^ 27) (slice : off / 2 ^ 27 < 16) (above : 2 ^ 20 ≤ a)
    (below : fr < frames) (len : bs.length = 16) (aligned : a % 16 = 0) (ok : s.entryOk fr bs = true)
    (full : IptEntry.read bs ≠ IptEntry.empty) (good : entryLine fr ∉ s.xl.walkBad) :
    (s.apertureWrite off bs).xl.entry fr = IptEntry.read bs ∧
      ∀ k, k ≠ fr → (s.apertureWrite off bs).xl.entry k = s.xl.entry k := by
  have written : (s.apertureWrite off bs).xl.entries = insertKey s.xl.entries fr (IptEntry.read bs) := by
    unfold State.apertureWrite
    dsimp only
    rw [← ha, ← hf, if_neg (by omega), if_neg (by omega), if_neg (by omega), if_neg (by simp [len, aligned, ok]),
      if_neg full, mendWalk_xl fr good]
    rfl
  simp only [Xlat.entry, written, lookup_insertKey_self, Option.getD_some]
  exact ⟨trivial, fun k hk => by rw [lookup_insertKey_ne _ _ _ _ hk]⟩

/-! ### Page requests -/

theorem lookup_map_snd {α β : Type} (f : α → β) (l : List (Nat × α)) (n : Nat) :
    lookup (l.map (fun p => (p.1, f p.2))) n = (lookup l n).map f := by
  induction l with
  | nil => rfl
  | cons p l ih =>
    obtain ⟨k, x⟩ := p
    simp only [List.map_cons, lookup]
    split
    · rfl
    · exact ih

/-- An operation on every core that has state of its own acts on core `n`, or that one has none. -/
theorem coreAt_onCores (s : State) (f : Core → Core) (n : Nat) :
    (s.onCores f).coreAt n = f (s.coreAt n) ∨
      (s.onCores f).coreAt n = Core.reset ∧ s.coreAt n = Core.reset := by
  unfold State.coreAt
  rw [State.onCores_coreId]
  split
  · exact .inl rfl
  · simp only [State.onCores, lookup_map_snd]
    cases lookup s.parked n with
    | none => exact .inr ⟨rfl, rfl⟩
    | some c => exact .inl rfl

/-- Every core, and the translation tables, are as they were. -/
def State.sameCores (s t : State) : Prop :=
  t.core = s.core ∧ t.coreId = s.coreId ∧ t.parked = s.parked ∧ t.xl = s.xl

theorem sameCores_coreAt {s t : State} (h : s.sameCores t) (n : Nat) : t.coreAt n = s.coreAt n := by
  obtain ⟨core, id, parked, -⟩ := h
  simp only [State.coreAt, core, id, parked]

/-- Replays and exchanges go on with no core touched, where the request is closed or no exchange waits for it. -/
theorem onPlans_sameCores (s : State) (e : Nat) (refused : Bool)
    (h : refused = true → ∀ l ∈ s.work.launches, ∀ q, l.planPage = some q → q.1 ≠ e) :
    s.sameCores (s.onPlans e refused) := by
  unfold State.onPlans
  dsimp only
  cases refused with
  | false => exact List.foldlRecOn (motive := s.sameCores) _ _ ⟨rfl, rfl, rfl, rfl⟩ (fun t ht l _ => ht)
  | true =>
    have none_waits : s.work.launches.filter (fun l => l.planPage.any (fun p => p.1 == e)) = [] := by
      refine List.filter_eq_nil_iff.mpr fun l hl => ?_
      rw [Option.any_eq_true]
      rintro ⟨q, hq, eq⟩
      exact h rfl l hl q hq (by simpa using eq)
    rw [none_waits]
    exact ⟨rfl, rfl, rfl, rfl⟩

/-- No copy command of a core stays paused on an entry that it was taken off. -/
theorem paused_unpause {c : Core} {e : Nat} {f : Cmd → Cmd} (hf : ∀ x, (f x).paused = x.paused) :
    ∀ x ∈ (c.unpause e f).cq, x.paused ≠ some e := by
  intro x hx
  obtain ⟨y, -, rfl⟩ := List.mem_map.mp hx
  split
  · simp [hf]
  · assumption

/-- A core whose strand waits for an entry, woken. -/
def Core.wakePage (e : Nat) (c : Core) : Core := if c.stall = .page e then { c with stall := .none } else c

/-- Cores that wait for an entry are woken, after their commands were taken off it. -/
theorem woken_stall (s : State) (e n : Nat) (f : Cmd → Cmd) (h : (s.coreAt n).stall = .page e) :
    ((((s.dropRequest e).onAll (fun c => c.unpause e f)).onCores (Core.wakePage e)).coreAt n).stall = .none := by
  have waits : (((s.dropRequest e).onAll (fun c => c.unpause e f)).coreAt n).stall = .page e := by
    rcases coreAt_onCores (s.dropRequest e) (fun c => c.unpause e f) n with k | ⟨-, k⟩
    · exact (congrArg Core.stall k).trans h
    · have : (s.coreAt n).stall = Core.reset.stall := congrArg Core.stall k
      exact absurd (this.symm.trans h) (by simp [Core.reset])
  rcases coreAt_onCores ((s.dropRequest e).onAll (fun c => c.unpause e f)) (Core.wakePage e) n with k | ⟨k, -⟩
  · rw [k, Core.wakePage, if_pos waits]
  · rw [k]; rfl

/-- Closing an open request ends the stalls of the cores, and the pauses of the commands, that wait for it (R417). -/
theorem gives_pageRequestClose {s : State} {e : Nat} (up : s.mailOpen 32 = true) (opened : s.isOpen e = true)
    (rising : Rising s.xl.prq) :
    Gives (.pageRequestClose e) s (fun t => lookup t.xl.prq e = none ∧
      (∀ n, (s.coreAt n).stall = .page e → (t.coreAt n).stall = .none) ∧ ∀ x ∈ t.core.cq, x.paused ≠ some e) := by
  refine gives_hostWrite rfl up ?_
  simp only [opened, Bool.not_true, Bool.false_eq_true, if_false]
  generalize hu : State.onCores _ _ = u
  have kept := onPlans_sameCores (u.onWaiting e id) e false (fun h => by cases h)
  have ⟨core, _, _, xl⟩ := kept
  refine ⟨?_, fun n stalled => ?_, fun x hx => ?_⟩
  · have : lookup u.xl.prq e = none := by rw [← hu]; exact lookup_eraseKey_self _ _ rising
    exact (congrArg (fun x : Xlat => lookup x.prq e) xl).trans this
  · refine (congrArg Core.stall (sameCores_coreAt kept n)).trans ?_
    subst hu
    exact woken_stall s e n id stalled
  · have hx : x ∈ u.core.cq := core ▸ hx
    subst hu
    refine paused_unpause (c := s.core) (f := id) (fun _ => rfl) x ?_
    have same : ∀ c : Core, (c.wakePage e).cq = c.cq := fun c => by unfold Core.wakePage; split <;> rfl
    exact same _ ▸ hx

/-- Refusing an open request that no strand, and no exchange, waits for: commands paused on it end with HANDLE_RIGHTS
(R417). -/
theorem gives_pageRequestRefuse {s : State} {e : Nat} (up : s.mailOpen 32 = true) (opened : s.isOpen e = true)
    (rising : Rising s.xl.prq) (strands : s.waitingOn e = [])
    (plans : ∀ l ∈ s.work.launches, ∀ q, l.planPage = some q → q.1 ≠ e) :
    Gives (.pageRequestRefuse e) s (fun t => lookup t.xl.prq e = none ∧
      ∀ (n : Nat) (x : Cmd), s.core.cq[n]? = some x → x.paused = some e →
        ∃ y : Cmd, t.core.cq[n]? = some y ∧ y.paused = none ∧ y.fail = some (3, 0)) := by
  refine gives_hostWrite rfl up ?_
  simp only [opened, Bool.not_true, Bool.false_eq_true, if_false, strands, List.foldl_nil]
  generalize hu : State.onAll _ _ = u
  obtain ⟨core, -, -, xl⟩ := onPlans_sameCores (u.onWaiting e (fun q => { q with refused := true })) e true
    (fun _ => by subst hu; exact plans)
  refine ⟨?_, fun n x hx paused => ?_⟩
  · have : lookup u.xl.prq e = none := by rw [← hu]; exact lookup_eraseKey_self _ _ rising
    exact (congrArg (fun x : Xlat => lookup x.prq e) xl).trans this
  · refine ⟨{ x with paused := none, fail := some (3, 0) }, ?_, rfl, rfl⟩
    refine (congrArg (fun c : Core => c.cq[n]?) core).trans ?_
    subst hu
    show (s.core.cq.map _)[n]? = _
    rw [List.getElem?_map, hx]
    simp [paused]

/-! ### Save areas and event selectors -/

@[simp] theorem saveArea_upSave (s : State) (t : Nat) (f : SaveArea → SaveArea) :
    (s.upSave t f).saveArea t = f (s.saveArea t) := by
  simp only [State.upSave, State.saveArea, lookup_insertKey_self, Option.getD_some]

theorem gives_saveAreaCheck {s : State} {t : Nat} (up : s.mailOpen 32 = true) (unlocked : s.saveLocked t = false) :
    Gives (.saveAreaCheck t) s (fun u => u.saveArea t = { s.saveArea t with state := 1 }) := by
  refine gives_hostWrite rfl up ?_
  simp [unlocked]

theorem logWalks_host (s : State) (t k : Nat) (tas : List Nat) : (s.logWalks t k tas).host = s.host := by
  unfold State.logWalks
  split
  · split <;> rfl
  · rfl

/-- The check of a save area ends with its verdict in STATE (R430). -/
theorem gives_saveAreaCheckDone {s : State} {t : Nat} (checking : (s.saveArea t).state = 1)
    (ready : s.saveCheckWaits t = false) :
    Gives (.saveAreaCheckDone t) s (fun u =>
      u.saveArea t = { s.saveArea t with state := if s.saveAreaPasses t then 2 else 3 }) := by
  refine ⟨_, rfl, ?_⟩
  rw [if_pos (And.intro checking ready)]
  dsimp only
  rw [saveArea_upSave]
  split
  · rw [State.saveArea, logWalks_host, ← State.saveArea]
  · rfl

theorem b2n_le (b : Bool) : b2n b ≤ 1 := by cases b <;> decide

theorem decide_b2n (b : Bool) : decide (b2n b = 1) = b := by cases b <;> rfl

/-- The fields of a word with EN, UNAVAIL and EVENT put together as an event selector has them (R471). -/
theorem pmevt_fields (en un : Bool) {id : Nat} (h : id < 65536) {w : Word}
    (hw : w = BitVec.ofNat 64 (b2n en * 2 ^ 63 + b2n un * 2 ^ 62 + id)) :
    w.getLsbD 63 = en ∧ w.getLsbD 62 = un ∧ w.toNat % 65536 = id := by
  have he := b2n_le en
  have hu := b2n_le un
  rw [hw, BitVec.getLsbD_ofNat, BitVec.getLsbD_ofNat, Nat.testBit_eq_decide_div_mod_eq,
    Nat.testBit_eq_decide_div_mod_eq, BitVec.toNat_ofNat,
    show (b2n en * 2 ^ 63 + b2n un * 2 ^ 62 + id) / 2 ^ 63 % 2 = b2n en by omega,
    show (b2n en * 2 ^ 63 + b2n un * 2 ^ 62 + id) / 2 ^ 62 % 2 = b2n un by omega, decide_b2n, decide_b2n]
  exact ⟨rfl, rfl, by omega⟩

/-- A write of an event selector keeps EN and EVENT and finds UNAVAIL; the counter of an unavailable event reads zero
(R471, R473). -/
theorem gives_pmevtWrite {f i : Nat} (v : Word) {s : State} (hi : i < 8) (hf : f ≠ 32) (up : s.mailOpen f = true) :
    Gives (.pmevtWrite f i v) s (fun t =>
      ((t.fn f).pmevt.getD i 0).getLsbD 63 = v.getLsbD 63 ∧
        (((t.fn f).pmevt.getD i 0).getLsbD 62 = true ↔ v.toNat % 65536 ∉ eventIds) ∧
        ((t.fn f).pmevt.getD i 0).toNat % 65536 = v.toNat % 65536 ∧
        (v.toNat % 65536 ∉ eventIds → (t.fn f).pmcnt.getD i 0 = 0)) := by
  refine ⟨_, rfl, ?_⟩
  have taken : ¬(8 ≤ i ∨ f = physFn ∨ s.mailOpen f = false) := by
    rintro (h | h | h)
    · omega
    · exact hf h
    · rw [up] at h; cases h
  rw [if_neg taken]
  simp only [fn_upFn_self, getD_upd, if_true]
  obtain ⟨en, un, id⟩ := pmevt_fields (v.getLsbD 63) (!eventIds.contains (v.toNat % 65536))
    (Nat.mod_lt _ (by decide)) rfl
  refine ⟨en, by rw [un]; simp, id, fun h => ?_⟩
  rw [if_pos (by simpa using h), getD_upd, if_pos rfl]

/-! ### Plain registers -/

/-- A write of MBCMD (R31). -/
theorem gives_writeMbcmd {f : Nat} (v : Word) {s : State} (up : s.mailOpen f = true) :
    Gives (.registerWrite f 0 v) s (fun t => (t.fn f).mbox = { (s.fn f).mbox with
      cmd := BitVec.ofNat 8 (bits v.toNat 23 16), len := BitVec.ofNat 13 v.toNat }) := by
  refine ⟨_, rfl, ?_⟩
  rw [up, if_neg (by decide), if_neg (by omega), State.writeFnReg]
  simp

/-- A write of a register that the physical function alone has, once its mailbox answers (R6, R25). -/
theorem gives_writePhysReg {off : Nat} {v : Word} {s : State} {p : State → Prop} (up : s.mailOpen 32 = true)
    (above : 0x4000 ≤ off) (hp : p (s.writePhysReg off v)) : Gives (.registerWrite 32 off v) s p :=
  ⟨s.writePhysReg off v, by
    show Host.Outcome.next _ = _
    rw [up, if_neg (by decide), if_pos ⟨rfl, above⟩], hp⟩

/-- A write of the size hint of a tenant identifier (R301). -/
theorem gives_writeHint {i : Nat} (v : Word) {s : State} (hi : i < 256) (up : s.mailOpen 32 = true) :
    Gives (.registerWrite 32 (0x5100 + 8 * i) v) s (fun t =>
      t.xl.tid i = { s.xl.tid i with hint := BitVec.ofNat 4 v.toNat }) := by
  refine gives_writePhysReg up (by omega) ?_
  rw [State.writePhysReg, if_neg (by omega), if_neg (by omega), if_neg (by omega), if_pos (by omega)]
  dsimp only
  rw [show (0x5100 + 8 * i - 0x5100) / 8 = i by omega, Xlat.tid, lookup_insertKey_self, Option.getD_some]

/-- A write that changes the weight of a frozen function moves it to TDISP ERROR (R38). -/
theorem gives_writeWeight_frozen {f : Nat} {v : Word} {s : State} (hf : f < 33) (up : s.mailOpen 32 = true)
    (frozen : s.frozen f = true) (changes : (s.fn f).weight ≠ BitVec.ofNat 8 v.toNat) :
    Gives (.registerWrite 32 (0x1F0000 + 4 * f) v) s (fun t => (t.fn f).tdisp = .error ∧
      ∀ c ∈ t.work.ctxs, c.fn ≠ f) := by
  refine gives_writePhysReg up (by omega) ?_
  have written : s.writePhysReg (0x1F0000 + 4 * f) v = s.toError f := by
    unfold State.writePhysReg
    iterate 10 rw [if_neg (by omega)]
    rw [if_pos (by omega)]
    dsimp only
    rw [show (0x1F0000 + 4 * f - 0x1F0000) / 4 = f by omega, if_neg changes, if_pos frozen]
  rw [written]
  exact toError_spec s f

/-! ### The host's accesses of memory -/

theorem countFor_host (s : State) (j : Option Job) (id n : Nat) : (s.countFor j id n).host = s.host := by
  cases j <;> rfl

theorem countFor_mem (s : State) (j : Option Job) (id n : Nat) : (s.countFor j id n).mem = s.mem := by
  cases j <;> rfl

theorem countFor_hostReady (s : State) (j : Option Job) (id n : Nat) : (s.countFor j id n).hostReady = s.hostReady := by
  cases j <;> rfl

/-- A request noted as waiting changes neither the waiting accesses nor memory, nor which of them can be served. -/
theorem noteHeld_keeps (s : State) (core who : Nat) (w : Stall) :
    (s.noteHeld core who w).host = s.host ∧ (s.noteHeld core who w).mem = s.mem ∧
      (s.noteHeld core who w).hostReady = s.hostReady := by
  unfold State.noteHeld
  split
  · unfold State.noteStall
    dsimp only
    split
    · exact ⟨rfl, rfl, rfl⟩
    · rw [countFor_host, countFor_mem, countFor_hostReady]
      refine ⟨rfl, rfl, ?_⟩
      split <;> rfl
  · exact ⟨rfl, rfl, rfl⟩
  · exact ⟨rfl, rfl, rfl⟩

/-- The machine with one access of the host waiting: `q` alone. -/
def State.queued (s : State) (q : Nat × Nat × Option (List Byte)) : State :=
  { s with host := { s.host with queue := [q] } }

/-- An access that comes where none waits: it is noted as it waits for the memory, and served if it can be. -/
theorem exec_hostMemoryAccess {f a : Nat} {wr : Option (List Byte)} {s : State} (up : s.mailOpen f = true)
    (alone : s.host.queue = []) :
    exec (.hostMemoryAccess f a wr) s =
      .next ((s.queued (f, a, wr)).hostStalls.hostServe (s.queued (f, a, wr)).hostStalls.hostReady) := by
  show Host.Outcome.next _ = _
  rw [if_pos up, alone]
  rfl

theorem hostStalls_queued_of_none {s : State} {q : Nat × Nat × Option (List Byte)} (h : s.hostWaits q = none) :
    (s.queued q).hostStalls = s.queued q := by
  show (s.hostWaits q).elim _ _ = _
  rw [h]
  rfl

theorem hostStalls_queued_keeps (s : State) (q : Nat × Nat × Option (List Byte)) :
    (s.queued q).hostStalls.host = (s.queued q).host ∧ (s.queued q).hostStalls.mem = s.mem ∧
      (s.queued q).hostStalls.hostReady = s.hostReady := by
  cases h : s.hostWaits q with
  | none =>
    rw [hostStalls_queued_of_none h]
    exact ⟨rfl, rfl, rfl⟩
  | some w =>
    have noted : (s.queued q).hostStalls = (s.queued q).noteHeld 769 (q.1 * 2 ^ 48 + q.2.1) w := by
      show (s.hostWaits q).elim _ _ = _
      rw [h]
      rfl
    rw [noted]
    exact noteHeld_keeps (s.queued q) _ _ w

theorem filter_range_eq_self {f n : Nat} (h : f < n) : (List.range n).filter (fun g => f == g) = [f] := by
  induction n with
  | zero => omega
  | succ n ih =>
    rw [List.range_succ, List.filter_append]
    rcases Nat.lt_succ_iff_lt_or_eq.mp h with lt | rfl
    · rw [ih lt, List.filter_cons_of_neg (by rw [beq_iff_eq]; omega), List.filter_nil, List.append_nil]
    · have none_below : (List.range f).filter (fun g => f == g) = [] := by
        refine List.filter_eq_nil_iff.mpr fun g hg => ?_
        have := List.mem_range.mp hg
        rw [beq_iff_eq]
        omega
      rw [none_below, List.filter_cons_of_pos (beq_self_eq_true f), List.filter_nil, List.nil_append]

/-- A function that alone has an access ready is served next, at no turn, whatever its weight (R397). -/
theorem hostPick_one {s : State} {f : Nat} {a : Nat} {wr : Option (List Byte)}
    {p : Nat × Nat × Option (List Byte) → Bool} (hf : f ≤ 32) (hq : s.host.queue = [(f, a, wr)])
    (hp : p (f, a, wr) = true) : s.hostPick p = some (f, s.host.deficits) := by
  unfold State.hostPick
  simp only [hq, List.filter_cons, hp, if_true, List.filter_nil, List.any_cons, List.any_nil, Bool.or_false,
    filter_range_eq_self (show f < 33 by omega)]
  cases (s.fn f).weight != 0 <;> rfl

/-- The machine as an access of function `f` is served, the only one that waited: the deficit of `f` is void (R397). -/
def State.served (s : State) (f : Nat) : State :=
  { s with host := { s.host with queue := [], deficits := eraseKey s.host.deficits f, turn := f } }

/-- With one access waiting, it is served if it meets the condition, and taken off (R397). -/
theorem hostServe_one {s : State} {f : Nat} (a : Nat) (wr : Option (List Byte))
    {p : Nat × Nat × Option (List Byte) → Bool} (hf : f ≤ 32) (hq : s.host.queue = [(f, a, wr)])
    (hp : p (f, a, wr) = true) :
    s.hostServe p = (s.served f).hostAccess f a wr := by
  unfold State.hostServe
  rw [hostPick_one hf hq hp]
  simp [hq, hp, State.served]

/-- Where no waiting access meets the condition, no function is picked. -/
theorem hostPick_none {s : State} {p : Nat × Nat × Option (List Byte) → Bool}
    (h : s.host.queue.filter p = []) : s.hostPick p = none := by
  unfold State.hostPick
  have none_ready : (List.range 33).filter
      (fun f => ([] : List (Nat × Nat × Option (List Byte))).any (fun q => q.1 == f)) = [] :=
    List.filter_eq_nil_iff.mpr (fun _ _ => Bool.false_ne_true)
  simp only [h, none_ready, List.filter_nil, List.isEmpty_nil, if_true]

/-- With one access waiting that does not meet the condition, none is served. -/
theorem hostServe_none {s : State} {q : Nat × Nat × Option (List Byte)}
    {p : Nat × Nat × Option (List Byte) → Bool} (hq : s.host.queue = [q]) (hp : p q = false) : s.hostServe p = s := by
  have pick : s.hostPick p = none :=
    hostPick_none (by rw [hq, List.filter_cons_of_neg (by rw [hp]; exact Bool.false_ne_true), List.filter_nil])
  rw [State.hostServe, pick]

/-- The host registers after an access served, by how it ended. -/
theorem served_hostEnds_host {s : State} {f : Nat} (alone : s.host.queue = []) (st : Nat) :
    ((s.served f).hostEnds st).host =
      { s.host with access := st, deficits := eraseKey s.host.deficits f, turn := f } := by
  simp only [State.served, State.hostEnds, alone]

/-- An access that can be served is served as it comes, where no other waits. -/
theorem gives_hostAccess_ready {f a : Nat} {wr : Option (List Byte)} {s : State} {p : State → Prop}
    (up : s.mailOpen f = true) (alone : s.host.queue = []) (ready : s.hostReady (f, a, wr) = true)
    (waits : s.hostWaits (f, a, wr) = none) (hp : p ((s.served f).hostAccess f a wr)) :
    Gives (.hostMemoryAccess f a wr) s p := by
  refine ⟨_, exec_hostMemoryAccess up alone, ?_⟩
  rw [hostStalls_queued_of_none waits,
    hostServe_one (s := s.queued (f, a, wr)) (p := (s.queued (f, a, wr)).hostReady) a wr
      (le_of_mailOpen up) rfl ready]
  exact hp

/-- An access that cannot be served waits, with memory as it was. -/
theorem gives_hostAccess_waits {f a : Nat} {wr : Option (List Byte)} {s : State}
    (up : s.mailOpen f = true) (alone : s.host.queue = []) (ready : s.hostReady (f, a, wr) = false) :
    Gives (.hostMemoryAccess f a wr) s (fun t => t.host = { s.host with queue := [(f, a, wr)] } ∧ t.mem = s.mem) := by
  refine ⟨_, exec_hostMemoryAccess up alone, ?_⟩
  obtain ⟨host, mem, hr⟩ := hostStalls_queued_keeps s (f, a, wr)
  rw [hostServe_none (congrArg HostRegs.queue host) (by rw [hr]; exact ready)]
  exact ⟨host, mem⟩

/-- When an access of the host may be served (R15, R397, R442, R455). -/
theorem hostReady_iff (s : State) (q : Nat × Nat × Option (List Byte)) :
    s.hostReady q = true ↔ s.xl.capacity < q.2.1 + hostSize q ∨
      0 < slotsOf (calBytes s.cal.installed (s.homeOf (q.2.1 / 64))) 0xC3 ∧ s.hostWaits q = none := by
  simp [State.hostReady]

/-- An access beyond CAPACITY faults at once (R15). -/
theorem gives_hostAccess_beyond {f a : Nat} {wr : Option (List Byte)} {s : State} {p : State → Prop}
    (up : s.mailOpen f = true) (alone : s.host.queue = []) (beyond : s.xl.capacity < a + hostSize (f, a, wr))
    (hp : p ((s.served f).hostEnds 8)) : Gives (.hostMemoryAccess f a wr) s p := by
  refine gives_hostAccess_ready up alone ((hostReady_iff _ _).mpr (.inl beyond)) (if_pos beyond) ?_
  unfold State.hostAccess
  rw [if_pos (show (s.served f).xl.capacity < _ from beyond)]
  exact hp

theorem ordRead_good {s : State} {dom : Nat → Nat} {a n : Nat} {info : Word} (still : s.transit? a n = none)
    (good : ∀ l ∈ linesOf a n, s.bad dom l = false) : s.ordRead dom a n info = .ok (memRead s.mem.cells a n) := by
  rw [State.ordRead, still, List.find?_eq_none.mpr (fun l hl => by simp [good l hl])]

/-- A read below CAPACITY of good lines ends with status OK. -/
theorem gives_hostRead {f a : Nat} {s : State} {p : State → Prop} (up : s.mailOpen f = true)
    (alone : s.host.queue = []) (within_ : a + 64 ≤ s.xl.capacity)
    (slot : 0 < slotsOf (calBytes s.cal.installed (s.homeOf (a / 64))) 0xC3)
    (good : ∀ l ∈ linesOf a 64, s.bad (s.hostKey f) l = false) (waits : s.hostWaits (f, a, none) = none)
    (hp : p ((s.served f).hostEnds 0)) : Gives (.hostMemoryAccess f a none) s p := by
  refine gives_hostAccess_ready up alone ((hostReady_iff _ _).mpr (.inr ⟨slot, waits⟩)) waits ?_
  have below : ¬s.xl.capacity < a + hostSize (f, a, none) := by simpa [hostSize] using within_
  have still : s.transit? a 64 = none := by simpa [State.hostWaits, within_, hostSize] using waits
  have read : (s.served f).ordRead ((s.served f).hostKey f) a 64 0 = .ok (memRead s.mem.cells a 64) :=
    ordRead_good still good
  rw [State.hostAccess, if_neg (show ¬(s.served f).xl.capacity < _ from below)]
  simp only [read]
  exact hp

theorem wake_keeps (s : State) (a n : Nat) :
    (s.wake a n).mem.cells = s.mem.cells ∧ (s.wake a n).core = s.core ∧ (s.wake a n).host = s.host := by
  unfold State.wake
  split
  · exact ⟨rfl, rfl, rfl⟩
  · obtain ⟨_, e⟩ := wakeBy_only_watchers s _
    rw [e]
    exact ⟨rfl, rfl, rfl⟩

/-- A write of good lines that waits for nothing puts its bytes (R314, R350). -/
theorem ordWrite_good {s : State} {dom : Nat → Nat} {a : Nat} {bs : List Byte} {info : Word}
    (still : s.writeWaits a bs.length = none) (good : ∀ l ∈ linesOf a bs.length, s.bad dom l = false) :
    ∃ t, s.ordWrite dom a bs info = .ok t ∧ t.mem.cells = memWrite s.mem.cells a bs ∧ t.core = s.core ∧
      t.host = s.host := by
  rw [State.ordWrite, still, List.find?_eq_none.mpr (fun l hl => by simp [good l hl])]
  exact ⟨_, rfl, wake_keeps _ _ _⟩

/-- A write below CAPACITY of good lines puts its bytes and ends with status OK. -/
theorem gives_hostStore {f a : Nat} {bs : List Byte} {s : State} (up : s.mailOpen f = true)
    (alone : s.host.queue = []) (within_ : a + bs.length ≤ s.xl.capacity)
    (slot : 0 < slotsOf (calBytes s.cal.installed (s.homeOf (a / 64))) 0xC3)
    (good : ∀ l ∈ linesOf a bs.length, s.bad (s.hostKey f) l = false) (waits : s.hostWaits (f, a, some bs) = none) :
    Gives (.hostMemoryAccess f a (some bs)) s (fun t => t.mem.cells = memWrite s.mem.cells a bs ∧ t.core = s.core ∧
      t.host = { s.host with access := 0, deficits := eraseKey s.host.deficits f, turn := f }) := by
  refine gives_hostAccess_ready up alone ((hostReady_iff _ _).mpr (.inr ⟨slot, waits⟩)) waits ?_
  have below : ¬s.xl.capacity < a + hostSize (f, a, some bs) := by simpa [hostSize] using within_
  have still : s.writeWaits a bs.length = none := by simpa [State.hostWaits, within_, hostSize] using waits
  obtain ⟨t, write, cells, core, host⟩ : ∃ t, (s.served f).ordWrite ((s.served f).hostKey f) a bs 0 = .ok t ∧ _ :=
    ordWrite_good still good
  rw [State.hostAccess, if_neg (show ¬(s.served f).xl.capacity < _ from below)]
  simp only [write]
  refine ⟨cells, core, ?_⟩
  rw [← served_hostEnds_host alone]
  simp only [State.hostEnds, host]

/-- Bytes written are the only ones that change. -/
theorem bytesPut_of_cells {s t : State} {a : Nat} {bs : List Byte} (wf : s.memOk)
    (h : t.mem.cells = memWrite s.mem.cells a bs) : BytesPut s t a bs := by
  refine ⟨?_, fun c hc => ?_⟩
  · rw [h]; exact memRead_memWrite _ _ _ wf
  · rw [h]; exact memGet_memWrite_outside _ _ _ _ hc

/-- For a function that is not enumerated no access and no write of a register has any effect (R25, R26). -/
theorem hostAccesses_shut {f : Nat} {s : State} (shut : s.mailOpen f = false) (i off : Nat) (v : Word)
    (wr : Option (List Byte)) :
    ∀ x ∈ [Instr.hostMemoryAccess f i wr, .registerWrite f off v, .pmevtWrite f i v], Gives x s (fun t => t = s) := by
  simp only [List.forall_mem_cons, List.not_mem_nil, false_implies, implies_true, and_true]
  refine ⟨⟨_, rfl, ?_⟩, ⟨_, rfl, ?_⟩, ⟨_, rfl, ?_⟩⟩
  · rw [shut]; rfl
  · rw [shut]; rfl
  · rw [if_pos (.inr (.inr shut))]

/-- Settles O56: one lemma above for each write or act; the two host writes left start a change that none runs beside. -/
theorem hostRegisterEvents : Obligations.HostRegisterEvents := by
  unfold Obligations.HostRegisterEvents
  intro f i off v bs s w owner bm ix e a fr up
  refine ⟨fun h => gives_hostWrite rfl h rfl, fun h => hostWrites_shut h v off i bs,
    fun busy ok => gives_ptCommitDone busy ok ⟨rfl, rfl, rfl, rfl, rfl⟩,
    fun h idle ok => gives_hostWrite rfl h (calGo_pass idle ok),
    fun h idle ok => gives_hostWrite rfl h (calPost_pass idle ok), fun l h => gives_calendarInstall h,
    fun h idle go => gives_hostWrite rfl h ?_, fun busy ok => gives_patChangeDone busy rfl rfl rfl rfl ok,
    fun h idle go => gives_hostWrite rfl h ?_, fun busy adds held waits => gives_xlinvComplete rfl busy adds held waits,
    fun h slice above below len aligned ok full good =>
      gives_hostWrite rfl h (apertureWrite_entry rfl rfl slice above below len aligned ok full good),
    fun h opened rising => ⟨gives_pageRequestClose h opened rising, gives_pageRequestRefuse h opened rising⟩,
    gives_saveAreaCheck, gives_saveAreaCheckDone, gives_pmevtWrite v, gives_writeMbcmd v, gives_writeHint v,
    gives_writeWeight_frozen, fun h alone => ⟨?_, ?_, ?_, ?_⟩, fun shut wr => hostAccesses_shut shut i off v wr⟩
  · simp only [idle, go, Bool.not_true, Bool.or_false, Bool.false_eq_true, if_false]
  · simp only [idle, go, Bool.not_true, Bool.or_false, Bool.false_eq_true, if_false]
  · intro within_ slot ⟨good, waits⟩
    exact gives_hostRead h alone within_ slot good waits ⟨⟨rfl, rfl, served_hostEnds_host alone 0⟩, rfl⟩
  · intro wf within_ slot ⟨good, waits⟩
    obtain ⟨t, ht, cells, core, host⟩ := gives_hostStore h alone within_ slot good waits
    exact ⟨t, ht, bytesPut_of_cells wf cells, cells, core, host⟩
  · intro wr beyond
    exact gives_hostAccess_beyond h alone beyond ⟨rfl, rfl, served_hostEnds_host alone 8⟩
  · intro wr within_ held
    refine gives_hostAccess_waits h alone (Bool.eq_false_iff.mpr fun ready => ?_)
    rcases (hostReady_iff _ _).mp ready with beyond | ⟨slot, free⟩
    · exact absurd within_ (Nat.not_le.mpr beyond)
    · exact held.elim (fun no => no slot) (fun no => no free)

end Sys2Proof.Machine
end

section
/-! Package resets, the steps after a reset, training, and the loss of a function's contexts (02 R22 to R27, R37, R38;
12 R303; 25 R483): what each leaves. -/

namespace Sys2Proof.Machine

/-! ### The state at reset release -/

/-- Settles O48: no byte is listed. -/
theorem resetMemoryCanonical : Obligations.ResetMemoryCanonical := by
  unfold Obligations.ResetMemoryCanonical
  exact (wf_iff []).mpr ⟨List.Pairwise.nil, by simp⟩

/-- A list of equal entries, read at any index with that entry as default, gives it. -/
theorem getD_replicate_self {α : Type} (n i : Nat) (a : α) : (List.replicate n a).getD i a = a := by
  rw [List.getD_eq_getElem?_getD, List.getElem?_replicate]
  split <;> rfl

/-- Every scalar register reads zero at reset release (R22, R132). -/
theorem getS_reset (r : Nat) : State.reset.getS r = 0 := by
  unfold State.getS
  split
  · rfl
  · exact getD_replicate_self _ _ _

/-- Every token register reads complete and OK at reset release (R22, R132). -/
theorem getK_reset (r : Nat) : State.reset.getK r = Tok.reset := by
  unfold State.getK
  split
  · rfl
  · exact getD_replicate_self _ _ _

/-- Where every function's registers are as after a reset, so are those of any number (R22). -/
theorem fn_of_fresh {s : State} (h : s.fns = List.replicate 33 Fn.reset) (f : Nat) : s.fn f = Fn.reset := by
  rw [State.fn, h]
  exact getD_replicate_self _ _ _

/-- Every tile is FREE after a reset (R240). -/
theorem tile_reset (i : Nat) : Arrays.reset.tile i = Tile.reset := getD_replicate_self _ _ _

/-- Every rack port is DOWN after a reset (R392). -/
theorem port_reset (p : Nat) : State.reset.port p = Port.reset := getD_replicate_self _ _ _

/-- Settles O46: a list of equal entries, read at any index with that entry as default, gives it; the rest is written in
the reset state. -/
theorem resetState : Obligations.ResetState := by
  unfold Obligations.ResetState
  refine ⟨fun _ => rfl, rfl, rfl, getS_reset, getK_reset, fun _ => getD_replicate_self _ _ _,
    fun _ => getD_replicate_self _ _ _, rfl, rfl, rfl, rfl, rfl, rfl, fun i => ?_, rfl, rfl, rfl,
    rfl, rfl, rfl, fun f => ?_, fun p => ?_, rfl⟩
  · exact congrArg Tile.live (tile_reset i)
  · rw [fn_of_fresh rfl]; rfl
  · rw [port_reset]; rfl

/-! ### Resets and the reset's steps -/

theorem packageReset_fresh (s : State) : FreshPackage s s.packageReset :=
  ⟨rfl, rfl, rfl, rfl, rfl, rfl, rfl, rfl, rfl, rfl, rfl, rfl, rfl, rfl, rfl⟩

theorem powerLost_fresh (s : State) : FreshPackage s s.powerLost := packageReset_fresh s

/-- The version of a flash bank that the ROM would take (R27). -/
def Trust.bankVersion (t : Trust) (i : Nat) : Option Nat :=
  match t.banks[i]? with
  | some b => if b.signed && decide (t.arbn ≤ b.version) then some b.version else none
  | none => none

theorem bankVersion_eq_some (s : State) (i v : Nat) :
    s.trust.bankVersion i = some v ↔ ∃ x, BankGood s i x ∧ x.version = v := by
  unfold Trust.bankVersion BankGood
  cases s.trust.banks[i]? with
  | none => simp
  | some b => simp [and_assoc]

theorem bankVersion_eq_none {s : State} {i : Nat} (h : ∀ x, ¬BankGood s i x) : s.trust.bankVersion i = none :=
  Option.eq_none_iff_forall_ne_some.mpr fun v e => by
    obtain ⟨x, good, -⟩ := (bankVersion_eq_some s i v).mp e
    exact h x good

theorem chooseBank_eq (t : Trust) :
    t.chooseBank = match t.bankVersion 0, t.bankVersion 1 with
      | some a, some b => some (if a < b then 1 else 0)
      | some _, none => some 0
      | none, some _ => some 1
      | none, none => none := rfl

/-- The ROM takes a good bank above the other (R27). -/
theorem chooseBank_best {s : State} {b : Nat} {x : Flash} (hb : b < 2) (good : BankGood s b x)
    (best : ∀ y, BankGood s (1 - b) y → y.version < x.version) : s.trust.chooseBank = some b := by
  have here : s.trust.bankVersion b = some x.version := (bankVersion_eq_some s b _).mpr ⟨x, good, rfl⟩
  have below : ∀ v, s.trust.bankVersion (1 - b) = some v → v < x.version := fun v hv => by
    obtain ⟨y, hy, rfl⟩ := (bankVersion_eq_some s _ v).mp hv
    exact best y hy
  rw [chooseBank_eq]
  obtain rfl | rfl : b = 0 ∨ b = 1 := by omega
  · cases other : s.trust.bankVersion 1 with
    | none => simp only [here]
    | some v => simp only [here, if_neg (Nat.lt_asymm (below v other))]
  · cases other : s.trust.bankVersion 0 with
    | none => simp only [here]
    | some v => simp only [here, if_pos (below v other)]

theorem chooseBank_none {s : State} (h : ∀ b x, b < 2 → ¬BankGood s b x) : s.trust.chooseBank = none := by
  rw [chooseBank_eq, bankVersion_eq_none (fun x => h 0 x (by omega)), bankVersion_eq_none (fun x => h 1 x (by omega))]

@[simp] theorem extend_slot (t : Trust) (k j : Nat) (v : List Byte) :
    (t.extend k v).slots.getD j zeroSlot =
      if j = k then shake (t.slots.getD k zeroSlot ++ v) else t.slots.getD j zeroSlot := getD_upd _ _ _ _ _

/-- Firmware taken from a bank: slot 1 measures its image, and the identity key comes from that (R27, R30, R34). -/
theorem verified_bank {t : Trust} {b : Nat} {x : Flash} (choice : t.chooseBank = some b) (whole : t.parityError = false)
    (bank : t.banks[b]? = some x) :
    t.verified.running = b ∧ t.verified.fwver = x.version ∧ t.verified.boot = 1 ∧
      t.verified.recovery = t.recovery ∧
      t.verified.slots.getD 1 zeroSlot = shake (zeroSlot ++ shake x.image) ∧
      t.verified.identity = Config.identityKey (fixLen 32 (Config.fuse 4)) (t.verified.slots.getD 1 zeroSlot) := by
  have image : t.banks.getD b ⟨[], 0, false⟩ = x := by rw [List.getD_eq_getElem?_getD, bank]; rfl
  unfold Trust.verified
  simp only [choice, whole, Bool.false_eq_true, if_false, image, extend_slot]
  exact ⟨rfl, rfl, rfl, rfl, rfl, rfl⟩

/-- Without a bank to take, or with fuses that fail their parity, the recovery loop (R25 to R27, R30). -/
theorem verified_recovery {t : Trust} (h : t.chooseBank = none ∨ t.parityError = true) :
    t.verified.recovery = true ∧ t.verified.boot = 1 := by
  unfold Trust.verified
  cases choice : t.chooseBank with
  | none => exact ⟨rfl, rfl⟩
  | some b =>
    have parity : t.parityError = true := h.resolve_left (by simp [choice])
    simp only [parity, if_true, and_self]

/-! ### Training -/

/-- The start of the scrub changes extents and the sweeps alone (R435, R454). -/
theorem startScrubSweep_only (s : State) :
    ∃ e w, s.startScrubSweep = { s with xl := { s.xl with extents := e }, sweep := w } := by
  unfold State.startScrubSweep
  split
  · exact ⟨s.xl.extents, s.sweep, rfl⟩
  · split
    · exact ⟨_, _, rfl⟩
    · exact ⟨s.xl.extents, s.sweep, rfl⟩

@[simp] theorem startScrubSweep_core (s : State) : s.startScrubSweep.core = s.core := by
  obtain ⟨_, _, only⟩ := startScrubSweep_only s
  rw [only]

@[simp] theorem startScrubSweep_mem (s : State) : s.startScrubSweep.mem = s.mem := by
  obtain ⟨_, _, only⟩ := startScrubSweep_only s
  rw [only]

@[simp] theorem startScrubSweep_trust (s : State) : s.startScrubSweep.trust = s.trust := by
  obtain ⟨_, _, only⟩ := startScrubSweep_only s
  rw [only]

/-- Which stacks are live, what they hold and which slices they serve stay as the scrub starts. -/
theorem startScrubSweep_stacks (s : State) :
    s.startScrubSweep.xl.surv = s.xl.surv ∧ s.startScrubSweep.xl.capacity = s.xl.capacity ∧
      s.startScrubSweep.xl.whome = s.xl.whome := by
  obtain ⟨_, _, only⟩ := startScrubSweep_only s
  rw [only]
  exact ⟨rfl, rfl, rfl⟩

/-- With no extent listed, the first is unscrubbed (R24). -/
theorem dirtyFrom_unlisted {x : Xlat} (h : x.extents = []) (n e : Nat) : x.dirtyFrom (n + 1) e = some e := by
  rw [Xlat.dirtyFrom, if_pos]
  simp [Xlat.extent, h, lookup]

/-- A counter that was even is odd one later, past its end too. -/
theorem odd_succ {w : W32} (h : ¬w.toNat % 2 = 1) : (w + 1).toNat % 2 = 1 := by
  rw [BitVec.toNat_add]
  have : (1 : W32).toNat = 1 := rfl
  omega

/-- With no extent listed, the scrub runs from now on (R303, R454). -/
theorem startScrubSweep_runs {s : State} (h : s.xl.extents = []) : s.startScrubSweep.sweep.scrNum.toNat % 2 = 1 := by
  unfold State.startScrubSweep
  split
  · assumption
  · next even =>
    rw [show extents = 33279 + 1 from rfl, dirtyFrom_unlisted h]
    exact odd_succ even

/-- Slices taken over by adopters leave the others where they are (R303). -/
theorem getD_foldl_adopt (surv : List Nat) {i : Nat} (live : i ∈ surv) (l h : List Nat) :
    (l.foldl (fun h j => if surv.contains j then h else upd 0 h j (adopter surv h j)) h).getD i 0 = h.getD i 0 := by
  induction l generalizing h with
  | nil => rfl
  | cons j l ih =>
    rw [List.foldl_cons, ih]
    split
    · rfl
    · next dead =>
      rw [getD_upd, if_neg]
      rintro rfl
      exact dead (List.contains_iff_mem.mpr live)

/-- A stack that trained serves its own slice (R303). -/
theorem trainedHome_live {surv : List Nat} {i : Nat} (hi : i < 16) (live : i ∈ surv) :
    (trainedHome surv).getD i 0 = i := by
  have own : ((List.range 16).map (fun j => if surv.contains j then j else 16)).getD i 0 = i := by
    simp [List.getD_eq_getElem?_getD, List.getElem?_range hi, live]
  unfold trainedHome
  dsimp only
  rw [List.getD_eq_getElem?_getD, List.getElem?_map]
  refine (Option.getD_map (fun x => if x = 16 then 0 else x) 0 _).trans ?_
  rw [← List.getD_eq_getElem?_getD, getD_foldl_adopt surv live, own]
  exact if_neg (by omega)

/-- The stacks of the mask live, those and no others (R303). -/
theorem trained_spec (s : State) (m : BitVec 16) :
    let live := (List.range 16).filter (fun i => m.getLsbD i)
    let t := s.trained m
    t.xl.surv = live ∧ t.xl.capacity = (if live.length < 8 then 0 else live.length * 2 ^ 36) ∧
      (∀ i, i < 16 → m.getLsbD i = true → t.xl.whome.getD i 0 = i) ∧ t.trust.boot = 2 ∧
      (s.xl.extents = [] → t.sweep.scrNum.toNat % 2 = 1) ∧ t.core = s.core := by
  have serves : ∀ i, i < 16 → m.getLsbD i = true →
      (trainedHome ((List.range 16).filter (fun i => m.getLsbD i))).getD i 0 = i := fun i hi live =>
    trainedHome_live hi (List.mem_filter.mpr ⟨List.mem_range.mpr hi, live⟩)
  unfold State.trained
  dsimp only
  obtain ⟨surv, capacity, home⟩ := startScrubSweep_stacks _
  refine ⟨surv, capacity, home ▸ serves, congrArg Trust.boot (startScrubSweep_trust _),
    fun unlisted => startScrubSweep_runs unlisted, startScrubSweep_core _⟩

/-! ### The loss of a function's contexts -/

/-- A context that shares its number with none of the function's stays as they are lost. -/
theorem mem_ctxs_loseAll {s : State} {f cause : Nat} {c : Ctx} (h : c ∈ s.work.ctxs)
    (other : ∀ d ∈ s.work.ctxs, d.fn = f → d.num ≠ c.num) : c ∈ (s.loseAll f cause).work.ctxs := by
  refine (mem_ctxs_foldl_loseContext _ _ _ _).mpr ⟨h, fun mine => ?_⟩
  obtain ⟨d, hd, num⟩ := List.mem_map.mp mine
  obtain ⟨hd, fn⟩ := List.mem_filter.mp hd
  exact other d hd (beq_iff_eq.mp fn) num

/-- Settles O49: one lemma above for each event; a step out of its order takes the branch that leaves the state. -/
theorem packageEvents : Obligations.PackageEvents := by
  unfold Obligations.PackageEvents
  intro f m s
  refine ⟨?_, ⟨_, rfl, powerLost_fresh s, rfl⟩, fun b x hb good best first whole => ?_, fun first bad => ?_,
    fun late => ⟨_, rfl, if_neg late⟩, fun first sound => ?_, fun early => ⟨_, rfl, if_neg ?_⟩,
    fun ready => ⟨_, rfl, if_pos ready⟩, fun early => ⟨_, rfl, if_neg early⟩,
    ⟨_, rfl, fun c hc => fn_ne_of_mem_loseAll hc, fun c hc => mem_ctxs_loseAll hc⟩, ⟨_, rfl, toError_spec s f⟩⟩
  · simp only [List.forall_mem_cons, List.not_mem_nil, false_implies, implies_true, and_true]
    exact ⟨⟨_, rfl, packageReset_fresh s, rfl⟩, ⟨_, rfl, packageReset_fresh s, rfl⟩⟩
  · refine ⟨_, rfl, ?_⟩
    rw [if_pos first]
    obtain ⟨running, version, boot, recovery, slot, identity⟩ :=
      verified_bank (chooseBank_best hb good best) whole good.1
    exact ⟨running, version, boot, recovery, slot, identity, rfl, rfl⟩
  · refine ⟨_, rfl, ?_⟩
    rw [if_pos first]
    obtain ⟨recovery, boot⟩ := verified_recovery (bad.imp_left chooseBank_none)
    exact ⟨recovery, boot, rfl⟩
  · exact ⟨s.trained m, congrArg _ (if_pos ⟨first, sound⟩), trained_spec s m⟩
  · rintro ⟨first, sound⟩
    exact early.elim (fun h => h first) (fun h => by simp [sound] at h)

end Sys2Proof.Machine
end

section
/-! The mailboxes: how a command is taken, served and answered (02 R31, R32, R41), and what the loss of contexts leaves
of the functions and of the trust core. -/

namespace Sys2Proof.Machine

/-! ### Responses -/

@[simp] theorem fn_respond_self (s : State) (f st : Nat) (bs : List Byte) :
    (s.respond f st bs).fn f = { s.fn f with mbox := (s.fn f).mbox.respond st bs } := fn_upFn_self _ _ _

@[simp] theorem respond_trust (s : State) (f st : Nat) (bs : List Byte) : (s.respond f st bs).trust = s.trust := rfl
@[simp] theorem respond_core (s : State) (f st : Nat) (bs : List Byte) : (s.respond f st bs).core = s.core := rfl
@[simp] theorem respond_mem (s : State) (f st : Nat) (bs : List Byte) : (s.respond f st bs).mem = s.mem := rfl

/-- A response written finishes the command (R31, R32). -/
theorem answered_respond (s : State) (f st : Nat) (bs : List Byte) : Answered (s.respond f st bs) f st bs := by
  unfold Answered
  rw [fn_respond_self]
  exact ⟨rfl, rfl, rfl, rfl, List.take_left⟩

/-! ### Commands that wait in the mailboxes -/

/-- Every command that waits in a mailbox of `t` waited there in `s`. -/
def State.asksNoMore (s t : State) : Prop :=
  ∀ g r, (t.fn g).mbox.pending = some r → (s.fn g).mbox.pending = some r

theorem asksNoMore_refl (s : State) : s.asksNoMore s := fun _ _ h => h

theorem asksNoMore_trans {s t u : State} (h : s.asksNoMore t) (k : t.asksNoMore u) : s.asksNoMore u :=
  fun g r e => h g r (k g r e)

theorem asksNoMore_of_fns {s t : State} (h : t.fns = s.fns) : s.asksNoMore t := fun g r e => by
  simpa only [State.fn, h] using e

theorem upFn_asksNoMore (s : State) (f : Nat) (g : Fn → Fn)
    (h : ∀ n r, (g n).mbox.pending = some r → n.mbox.pending = some r) : s.asksNoMore (s.upFn f g) := fun k r e => by
  rw [fn_upFn] at e
  split at e
  · next same => rw [same]; exact h _ _ e
  · exact e

theorem respond_asksNoMore (s : State) (f st : Nat) (bs : List Byte) : s.asksNoMore (s.respond f st bs) :=
  upFn_asksNoMore s f _ (fun _ _ e => nomatch e)

theorem asksNoMore_foldl {α : Type} (g : State → α → State) (h : ∀ (s : State) a, s.asksNoMore (g s a)) (l : List α)
    (s : State) : s.asksNoMore (l.foldl g s) :=
  List.foldlRecOn (motive := s.asksNoMore) l g (asksNoMore_refl s) (fun t ht a _ => asksNoMore_trans ht (h t a))

/-- Every command that waits is one that an act of the opcode table serves. -/
def State.asksKnown (s : State) : Prop := ∀ g r, (s.fn g).mbox.pending = some r → r.known = true

theorem asksKnown_of_asksNoMore {s t : State} (h : s.asksKnown) (k : s.asksNoMore t) : t.asksKnown :=
  fun g r e => h g r (k g r e)

/-- Where every command that waits has an act of its own, the trust core serves none on the way (R32). -/
theorem serveUnknown_of_asksKnown {s : State} (h : s.asksKnown) (n : Nat) : s.serveUnknown n = s := by
  cases n with
  | zero => rfl
  | succ n =>
    unfold State.serveUnknown
    dsimp only
    split
    · next r waiting => exact if_neg (fun unknown => by simp [h _ r waiting] at unknown)
    · rfl

/-- A command that a mailbox holds and that is kept back is a HANDLE_REVOKE (R435), which has an act of its own. -/
theorem known_of_keptBack {s : State} {g : Nat} {r : Rung} (kept : s.mailPending g = false)
    (waiting : (s.fn g).mbox.pending = some r) : r.known = true := by
  have revoke : r.code.toNat = 0x33 := by
    have : s.revokeWaits r.code.toNat = true := by simpa [State.mailPending, waiting] using kept
    simp only [State.revokeWaits, Bool.and_eq_true, beq_iff_eq] at this
    exact this.1
  have code : (r.code != 2) = true := bne_iff_ne.mpr (fun e => by simp [e] at revoke)
  rw [Rung.known, revoke, code]
  rfl

/-! ### A command taken at its turn -/

/-- The doorbell of function `f` rung with command `code` (R31). -/
def State.coded (s : State) (f code : Nat) : State :=
  s.upFn f (fun n => { n with mbox := { n.mbox with cmd := BitVec.ofNat 8 code } })

/-- Command `code` of function `f` as the trust core has taken it: no command waits in its mailbox, and its function is
the one served last (R31, R32). -/
def State.taken (s : State) (f code : Nat) : State := (s.coded f code).takeCommand f

theorem fn_takeCommand (s : State) (f h : Nat) :
    (s.takeCommand f).fn h =
      if h = f then { s.fn f with mbox := { (s.fn f).mbox with pending := none } } else s.fn h :=
  fn_upFn s f h (fun n => { n with mbox := { n.mbox with pending := none } })

@[simp] theorem fn_taken_self (s : State) (f code : Nat) :
    (s.taken f code).fn f =
      { s.fn f with mbox := { (s.fn f).mbox with cmd := BitVec.ofNat 8 code, pending := none } } := by
  rw [State.taken, fn_takeCommand, if_pos rfl, State.coded, fn_upFn_self]

@[simp] theorem fn_taken_ne (s : State) {f g : Nat} (code : Nat) (h : g ≠ f) : (s.taken f code).fn g = s.fn g := by
  rw [State.taken, fn_takeCommand, if_neg h, State.coded, fn_upFn, if_neg h]

@[simp] theorem taken_trust (s : State) (f code : Nat) : (s.taken f code).trust = { s.trust with last := f } := rfl

@[simp] theorem taken_core (s : State) (f code : Nat) : (s.taken f code).core = s.core := rfl
@[simp] theorem taken_mem (s : State) (f code : Nat) : (s.taken f code).mem = s.mem := rfl

theorem nextMailbox_alone {s : State} {f : Nat} (h : ∀ g, g ≠ f → s.mailPending g = false) : s.nextMailbox f = f := by
  unfold State.nextMailbox
  cases found : ((List.range 33).map (fun i => (s.trust.last + 1 + i) % 33)).find?
      (fun g => g == f || s.mailPending g) with
  | none => rfl
  | some g =>
    have asks : (g == f || s.mailPending g) = true := List.find?_some (p := fun g => g == f || s.mailPending g) found
    by_cases same : g = f
    · exact same
    · rw [h g same, Bool.or_false] at asks
      exact beq_iff_eq.mp asks

theorem takes_of_served {s : State} {f code : Nat} (h : Served s f code) : s.takes f code = true := by
  obtain ⟨opened, idle, alone, free, -⟩ := h
  simp [State.takes, opened, Mailbox.accepts, idle, free, nextMailbox_alone alone]

/-- The doorbell leaves the command to be served. -/
theorem coded_served {s : State} {f code : Nat} (h : Served s f code) : Served (s.coded f code) f code := by
  obtain ⟨opened, idle, alone, free, notice, len, answers⟩ := h
  refine ⟨opened, ?_, fun g ne => ?_, free, ?_, ?_, answers⟩
  · rw [State.coded, fn_upFn_self]; exact idle
  · have same := alone g ne
    rw [State.mailPending] at same ⊢
    rw [State.coded, fn_upFn, if_neg ne]
    exact same
  · rw [State.coded, fn_upFn_self]; exact notice
  · rw [State.coded, fn_upFn_self]; exact len

theorem taken_asksKnown {s : State} {f code : Nat} (h : Served s f code) : (s.taken f code).asksKnown := by
  obtain ⟨-, -, alone, -⟩ := h
  intro g r waiting
  by_cases e : g = f
  · subst e
    rw [fn_taken_self] at waiting
    cases waiting
  · rw [fn_taken_ne s code e] at waiting
    exact known_of_keptBack (alone g e) waiting

/-- A command whose mailbox is at its turn is served: its act runs on the request, and none is served after it (R31,
R32). -/
theorem serve_served {s : State} {f code : Nat} {act : List Byte → State → State} (h : Served s f code)
    (calm : (s.taken f code).asksNoMore (act (request s f) (s.taken f code))) :
    s.serve f code act = act (request s f) (s.taken f code) := by
  have takes := takes_of_served (coded_served h)
  have after := serveUnknown_of_asksKnown (asksKnown_of_asksNoMore (taken_asksKnown h) calm) 33
  obtain ⟨opened, idle, -, -, notice, len, answers⟩ := h
  have rung : (s.fn f).mbox.rung code = ⟨BitVec.ofNat 8 code, (s.fn f).mbox.len, (s.fn f).mbox.buf⟩ := by
    unfold Mailbox.rung
    rw [idle]
  have accepts : (s.fn f).mbox.accepts code = true := by simp [Mailbox.accepts, idle]
  have turn : ¬(!(s.coded f code).takes f code) = true := by simp [takes]
  have told : ¬(s.fn f).mbox.lostNotice = true := by simp [notice]
  have answers : (s.taken f code).answers code = true := answers
  have answered : ¬(!(s.taken f code).answers code) = true := by simp [answers]
  unfold State.serve
  dsimp only
  rw [rung, if_neg (by simp [opened]), if_neg (by simp [accepts]), idle, if_neg Bool.false_ne_true]
  refine (if_neg turn).trans ?_
  refine (congrArg (State.serveUnknown · 33) ?_).trans after
  exact (if_neg told).trans ((if_neg (Nat.not_lt.mpr len)).trans (if_neg answered))

/-- What a served command gives, where its act leaves no new command. -/
theorem gives_serve {i : Instr} {s u : State} {f code : Nat} {act : List Byte → State → State} {p : State → Prop}
    (arm : exec i s = .next (s.serve f code act)) (h : Served s f code)
    (acts : act (request s f) (s.taken f code) = u) (calm : (s.taken f code).asksNoMore u) (hp : p u) :
    Gives i s p := by
  subst acts
  exact ⟨_, by rw [arm, serve_served h calm], hp⟩

/-- A command that is answered with no other act. -/
theorem gives_respond {i : Instr} {s : State} {f code st : Nat} {act : List Byte → State → State} {bs : List Byte}
    {p : State → Prop} (arm : exec i s = .next (s.serve f code act)) (h : Served s f code)
    (acts : act (request s f) (s.taken f code) = (s.taken f code).respond f st bs)
    (hp : p ((s.taken f code).respond f st bs)) : Gives i s p :=
  gives_serve arm h acts (respond_asksNoMore _ _ _ _) hp

/-! ### What the loss of contexts leaves -/

/-- What ends of contexts leave as it was: the trust core but its key slots and its log, the retirement's phase, and of
every function all but the completion records that wait and the vectors raised. -/
def State.lossKeeps (s t : State) : Prop :=
  t.sweep.phaseNum = s.sweep.phaseNum ∧ t.trust = { s.trust with keys := t.trust.keys, log := t.trust.log } ∧
    ∀ g, t.fn g = { s.fn g with waiting := (t.fn g).waiting, msix := (t.fn g).msix }

theorem lossKeeps_refl (s : State) : s.lossKeeps s := ⟨rfl, rfl, fun _ => rfl⟩

theorem lossKeeps_trans {s t u : State} (h : s.lossKeeps t) (k : t.lossKeeps u) : s.lossKeeps u := by
  obtain ⟨phase, trust, fns⟩ := h
  obtain ⟨phase', trust', fns'⟩ := k
  refine ⟨phase'.trans phase, ?_, fun g => ?_⟩
  · rw [trust] at trust'
    exact trust'
  · have := fns' g
    rw [fns g] at this
    exact this

theorem lossKeeps_foldl {α : Type} (g : State → α → State) (h : ∀ (s : State) a, s.lossKeeps (g s a)) (l : List α)
    (s : State) : s.lossKeeps (l.foldl g s) :=
  List.foldlRecOn (motive := s.lossKeeps) l g (lossKeeps_refl s) (fun t ht a _ => lossKeeps_trans ht (h t a))

theorem lossKeeps_of_fns {s t : State} (fns : t.fns = s.fns) (phase : t.sweep.phaseNum = s.sweep.phaseNum)
    (trust : t.trust = { s.trust with keys := t.trust.keys, log := t.trust.log }) : s.lossKeeps t :=
  ⟨phase, trust, fun g => by simp only [State.fn, fns]⟩

theorem upFn_lossKeeps (s : State) (f : Nat) (g : Fn → Fn)
    (h : ∀ n, g n = { n with waiting := (g n).waiting, msix := (g n).msix }) : s.lossKeeps (s.upFn f g) := by
  refine ⟨rfl, rfl, fun k => ?_⟩
  rw [fn_upFn]
  split
  · next e => subst e; exact h _
  · rfl

theorem complete_lossKeeps (s : State) (f : Nat) (r : List Byte) : s.lossKeeps (s.complete f r) := by
  unfold State.complete
  split
  · exact upFn_lossKeeps _ _ _ (fun _ => rfl)
  · exact lossKeeps_refl s

theorem rotationGone_lossKeeps (s : State) (t : Nat) : s.lossKeeps (s.rotationGone t) := by
  unfold State.rotationGone
  split
  · exact upFn_lossKeeps _ _ _ (fun _ => rfl)
  · exact lossKeeps_refl s

theorem startScrubSweep_lossKeeps (s : State) : s.lossKeeps s.startScrubSweep := by
  unfold State.startScrubSweep
  split
  · exact lossKeeps_refl s
  · split
    · exact lossKeeps_of_fns rfl rfl rfl
    · exact lossKeeps_refl s

theorem soilExtents_lossKeeps (s : State) (t : Nat) : s.lossKeeps (s.soilExtents t) := lossKeeps_of_fns rfl rfl rfl

theorem startScrub_lossKeeps (s : State) (c : Ctx) : s.lossKeeps (s.startScrub c) := by
  unfold State.startScrub
  dsimp only
  refine lossKeeps_trans ?_ (startScrubSweep_lossKeeps _)
  refine lossKeeps_trans ?_ (soilExtents_lossKeeps _ _)
  exact lossKeeps_of_fns rfl rfl rfl

theorem settleTids_lossKeeps (s : State) : s.lossKeeps s.settleTids := lossKeeps_of_fns rfl rfl rfl

theorem stopped_freed_lossKeeps (s : State) (p : Nat → Bool) : s.lossKeeps ((s.stopStrands p false).freeLaunch p) :=
  lossKeeps_of_fns rfl rfl rfl

theorem record_lossKeeps (s : State) (w : Work) (r : List Replay) (l : Links) :
    s.lossKeeps { s with work := w, replays := r, links := l } := lossKeeps_of_fns rfl rfl rfl

theorem endContext_lossKeeps (s : State) (num st cause : Nat) : s.lossKeeps (s.endContext num st cause) := by
  unfold State.endContext
  split
  · exact lossKeeps_refl s
  · dsimp only
    refine lossKeeps_trans ?_ (settleTids_lossKeeps _)
    refine lossKeeps_trans ?_ (startScrub_lossKeeps _ _)
    refine lossKeeps_trans ?_ (rotationGone_lossKeeps _ _)
    refine lossKeeps_trans ?_ (record_lossKeeps _ _ _ _)
    refine lossKeeps_trans ?_ (lossKeeps_foldl _ (fun t a => complete_lossKeeps t _ _) _ _)
    refine lossKeeps_trans ?_ (lossKeeps_foldl _ (fun t a => complete_lossKeeps t _ _) _ _)
    refine lossKeeps_trans ?_ (stopped_freed_lossKeeps _ _)
    exact lossKeeps_foldl _ (fun t a => complete_lossKeeps t _ _) _ _

theorem loseContext_lossKeeps (s : State) (num cause : Nat) : s.lossKeeps (s.loseContext num cause) :=
  lossKeeps_trans (lossKeeps_of_fns rfl rfl rfl) (endContext_lossKeeps _ _ _ _)

theorem asksNoMore_of_lossKeeps {s t : State} (h : s.lossKeeps t) : s.asksNoMore t := fun g r e => by
  obtain ⟨-, -, fns⟩ := h
  rw [fns g] at e
  exact e

theorem recordsLeft_asksNoMore (s : State) (f n : Nat) : s.asksNoMore (s.recordsLeft f n) := by
  have left : s.asksNoMore (s.upFn f (fun x => { x with endLeft := n })) := upFn_asksNoMore _ _ _ (fun _ _ e => e)
  unfold State.recordsLeft
  dsimp only
  split
  · exact asksNoMore_trans left (respond_asksNoMore _ _ _ _)
  · exact left

/-- Entry to TDISP ERROR leaves no new command in a mailbox (R38). -/
theorem toError_asksNoMore (s : State) (f : Nat) : s.asksNoMore (s.toError f) := by
  unfold State.toError State.leaveRun State.loseAll
  refine asksNoMore_trans (upFn_asksNoMore s f (fun n => { n with tdisp := .error }) (fun _ _ e => e)) ?_
  refine asksNoMore_trans (upFn_asksNoMore _ f (fun n => { n with waiting := [], submitted := [], lqHead := n.lqTail })
    (fun _ _ e => e)) ?_
  refine asksNoMore_trans (recordsLeft_asksNoMore _ f 0) ?_
  exact asksNoMore_foldl _ (fun t n => asksNoMore_of_lossKeeps (loseContext_lossKeeps t n 0)) _ _

end Sys2Proof.Machine
end

section
/-! SPDM and TDISP messages and the key update of a port (02 R35 to R38; 16 R393): each in its order, and out of it. -/

namespace Sys2Proof.Machine

/-! ### A message in its order and out of it -/

/-- The answer to a message of function `f`: status 0 and the bytes of its kind (R35). -/
def Tells (s t : State) (f kind : Nat) : Prop := Answered t f 0 (s.spdmBytes kind (request s f))

theorem tells_respond {s t : State} {f kind : Nat} : Tells s (t.respond f 0 (s.spdmBytes kind (request s f))) f kind :=
  answered_respond _ _ _ _

/-- A message in its order moves the function as its flow says, and is answered with its response. -/
theorem gives_spdm {i : Instr} {s : State} {f kind : Nat} {ok : Fn → Bool} {act : State → State} {p : State → Prop}
    (arm : exec i s = .next (s.spdm f kind ok act)) (h : Served s f 2) (good : ok ((s.taken f 2).fn f) = true)
    (calm : (s.taken f 2).asksNoMore (act (s.taken f 2)))
    (hp : p ((act (s.taken f 2)).respond f 0 (s.spdmBytes kind (request s f)))) : Gives i s p :=
  gives_serve arm h (if_pos good) (asksNoMore_trans calm (respond_asksNoMore _ _ _ _)) hp

/-- A message in its order that moves the registers of its function alone, and not its mailbox. -/
theorem gives_spdm_upFn {i : Instr} {s : State} {f kind : Nat} {ok : Fn → Bool} {act : State → State} {g : Fn → Fn}
    {p : State → Prop} (arm : exec i s = .next (s.spdm f kind ok act)) (h : Served s f 2)
    (good : ok ((s.taken f 2).fn f) = true) (acts : act (s.taken f 2) = (s.taken f 2).upFn f g)
    (mail : ∀ n, (g n).mbox = n.mbox)
    (hp : ∀ t, Tells s t f kind → (∃ m, t.fn f = { g ((s.taken f 2).fn f) with mbox := m }) → p t) : Gives i s p := by
  refine gives_spdm arm h good (acts ▸ upFn_asksNoMore _ _ _ (fun n r e => mail n ▸ e)) (hp _ tells_respond ?_)
  rw [acts, fn_respond_self, fn_upFn_self]
  exact ⟨_, rfl⟩

/-- A message out of its order is answered with an SPDM error and moves nothing (R35, log 87). -/
def Refused (i : Instr) (f : Nat) (s : State) : Prop :=
  Gives i s (fun t => Tells s t f spdmError ∧ (t.fn f).spdm = (s.fn f).spdm ∧ (t.fn f).tdisp = (s.fn f).tdisp ∧
    (t.fn f).session = (s.fn f).session)

theorem refused_of_error {i : Instr} {s : State} {f : Nat} {act : List Byte → State → State}
    (arm : exec i s = .next (s.serve f 2 act)) (h : Served s f 2)
    (acts : act (request s f) (s.taken f 2) = (s.taken f 2).respond f 0 (s.spdmBytes spdmError (request s f))) :
    Refused i f s := by
  refine gives_respond arm h acts ⟨tells_respond, ?_⟩
  rw [fn_respond_self, fn_taken_self]
  exact ⟨rfl, rfl, rfl⟩

theorem refused_spdm {i : Instr} {s : State} {f kind : Nat} {ok : Fn → Bool} {act : State → State}
    (arm : exec i s = .next (s.spdm f kind ok act)) (h : Served s f 2) (bad : ok ((s.taken f 2).fn f) = false) :
    Refused i f s :=
  refused_of_error arm h (if_neg (by rw [bad]; exact Bool.false_ne_true))

/-- A message that one stage of the flow alone answers, at another. -/
theorem refused_stage {i : Instr} {s : State} {f kind : Nat} {st : SpdmStage} {act : State → State}
    (arm : exec i s = .next (s.spdm f kind (fun n => n.spdm == st) act)) (h : Served s f 2)
    (out : (s.fn f).spdm ≠ st) : Refused i f s :=
  refused_spdm arm h (by rw [fn_taken_self]; exact beq_eq_false_iff_ne.mpr out)

/-- A report asked for before the algorithms are agreed. -/
theorem refused_report {i : Instr} {s : State} {f kind : Nat} {act : State → State}
    (arm : exec i s = .next (s.spdm f kind (atLeast .algorithms) act)) (h : Served s f 2)
    (early : (s.fn f).spdm.rank < 3) : Refused i f s :=
  refused_spdm arm h (by rw [fn_taken_self]; exact decide_eq_false (Nat.not_le.mpr early))

theorem refused_ideKm {s : State} {f : Nat} (h : Served s f 2) (out : (s.fn f).spdm ≠ .session) :
    Refused (.ideKm f) f s :=
  refused_of_error rfl h (if_neg fun keyed => out (by rw [fn_taken_self] at keyed; exact keyed.1))

theorem refused_lock {s : State} {f : Nat} (h : Served s f 2) (out : (s.fn f).tdisp ≠ .unlocked) :
    Refused (.lockInterfaceRequest f) f s :=
  refused_spdm rfl h (by rw [fn_taken_self]; simp [out])

theorem refused_start {s : State} {f : Nat} {sess : Option Nat} (h : Served s f 2)
    (out : (s.fn f).tdisp ≠ .locked ∨ sess ≠ some (s.fn f).session) : Refused (.startInterfaceRequest f sess) f s := by
  refine refused_spdm rfl h ?_
  rw [fn_taken_self]
  rcases out with ne | ne <;> simp [ne]

/-! ### The messages of a flow -/

/-- GET_VERSION starts the flow; a secured session stays (R35). -/
theorem gives_getVersion {s : State} {f : Nat} (h : Served s f 2) :
    Gives (.getVersion f) s (fun t => Tells s t f 0x84 ∧ ((s.fn f).session = 0 → (t.fn f).spdm = .version) ∧
      (t.fn f).session = (s.fn f).session) := by
  by_cases fresh : (s.fn f).session = 0
  · refine gives_spdm_upFn (g := fun n => { n with spdm := .version }) rfl h rfl ?_ (fun _ => rfl)
      fun t tells ⟨m, moved⟩ => ?_
    · exact if_pos (by rw [fn_taken_self]; exact fresh)
    · rw [moved, fn_taken_self]
      exact ⟨tells, fun _ => rfl, rfl⟩
  · have stays : ¬((s.taken f 2).fn f).session = 0 := by rw [fn_taken_self]; exact fresh
    refine gives_respond rfl h ((if_pos rfl).trans (congrArg (State.respond · f 0 _) (if_neg stays)))
      ⟨tells_respond, fun e => absurd e fresh, ?_⟩
    rw [fn_respond_self, fn_taken_self]

/-- A message that takes the flow from one stage to the next (R35). -/
theorem gives_stage {i : Instr} {s : State} {f kind : Nat} {from_ onto : SpdmStage}
    (arm : exec i s = .next (s.spdm f kind (fun n => n.spdm == from_) (fun s => s.setStage f onto))) (h : Served s f 2)
    (here : (s.fn f).spdm = from_) : Gives i s (fun t => Tells s t f kind ∧ (t.fn f).spdm = onto) := by
  refine gives_spdm_upFn arm h ?_ rfl (fun _ => rfl) fun t tells ⟨m, moved⟩ => ⟨tells, ?_⟩
  · rw [fn_taken_self]; exact beq_iff_eq.mpr here
  · rw [moved]

/-- A message that reports and moves nothing (R34, R35). -/
theorem gives_report {i : Instr} {s : State} {f kind : Nat}
    (arm : exec i s = .next (s.spdm f kind (atLeast .algorithms) id)) (h : Served s f 2)
    (far : 3 ≤ (s.fn f).spdm.rank) :
    Gives i s (fun t => Tells s t f kind ∧ (t.fn f).spdm = (s.fn f).spdm ∧ t.trust = { s.trust with last := f }) := by
  refine gives_spdm arm h ?_ (asksNoMore_refl _) ⟨tells_respond, ?_, rfl⟩
  · rw [fn_taken_self]; exact decide_eq_true far
  · rw [id, fn_respond_self, fn_taken_self]

/-- FINISH opens a secured session with a number of its own (R35). -/
theorem gives_finish {s : State} {f : Nat} (h : Served s f 2) (here : (s.fn f).spdm = .exchanging) :
    Gives (.finish f) s (fun t => Tells s t f 0xE5 ∧ (t.fn f).spdm = .session ∧
      (t.fn f).session = s.trust.draws + 1) := by
  refine gives_spdm rfl h ?_ (upFn_asksNoMore _ _ _ (fun _ _ e => e)) ⟨tells_respond, ?_⟩
  · rw [fn_taken_self]; exact beq_iff_eq.mpr here
  · rw [fn_respond_self, fn_upFn_self]
    exact ⟨rfl, rfl⟩

/-- END_SESSION (R35). -/
theorem gives_endSession {s : State} {f : Nat} (h : Served s f 2) (here : (s.fn f).spdm = .session) :
    Gives (.endSession f) s (fun t => Tells s t f 0xEC ∧ (t.fn f).session = 0) := by
  refine gives_spdm_upFn rfl h ?_ rfl (fun _ => rfl) fun t tells ⟨m, moved⟩ => ⟨tells, ?_⟩
  · rw [fn_taken_self]; exact beq_iff_eq.mpr here
  · rw [moved]

/-- IDE_KM keys the link for a message of the secured session alone (R35). -/
theorem gives_ideKm {s : State} {f : Nat} (h : Served s f 2) (here : (s.fn f).spdm = .session) :
    Gives (.ideKm f) s (fun t => (t.fn f).spdm = .session ∧
      (Config.securedIn (s.fn f).session (request s f) = true → Tells s t f 0x100 ∧ (t.fn f).ideKeyed = true) ∧
      (Config.securedIn (s.fn f).session (request s f) = false →
        Tells s t f spdmError ∧ (t.fn f).ideKeyed = (s.fn f).ideKeyed)) := by
  have spdm : ((s.taken f 2).fn f).spdm = .session := by rw [fn_taken_self]; exact here
  have session : ((s.taken f 2).fn f).session = (s.fn f).session := by rw [fn_taken_self]
  cases secured : Config.securedIn (s.fn f).session (request s f) with
  | true =>
    have keyed : ((s.taken f 2).fn f).spdm = .session ∧
        Config.securedIn ((s.taken f 2).fn f).session (request s f) = true := ⟨spdm, session ▸ secured⟩
    refine gives_serve rfl h (if_pos keyed) (asksNoMore_trans ?_ (respond_asksNoMore _ _ _ _)) ?_
    · exact upFn_asksNoMore _ _ _ (fun _ _ e => e)
    · rw [fn_respond_self, fn_upFn_self]
      exact ⟨spdm, fun _ => ⟨tells_respond, rfl⟩, fun no => absurd no (by decide)⟩
  | false =>
    refine gives_respond rfl h (if_neg fun keyed => ?_) ?_
    · rw [session, secured] at keyed
      exact Bool.false_ne_true keyed.2
    · rw [fn_respond_self, fn_taken_self]
      exact ⟨here, fun no => absurd no (by decide), fun _ => ⟨tells_respond, rfl⟩⟩

/-! ### The interface of a function (R37, R38) -/

/-- LOCK_INTERFACE_REQUEST (R37). -/
theorem gives_lock {s : State} {f : Nat} (h : Served s f 2) (here : (s.fn f).tdisp = .unlocked) (virtual : f ≠ 32) :
    Gives (.lockInterfaceRequest f) s (fun t => Tells s t f 0x103 ∧ (t.fn f).tdisp = .locked) := by
  refine gives_spdm_upFn rfl h ?_ rfl (fun _ => rfl) fun t tells ⟨m, moved⟩ => ⟨tells, ?_⟩
  · rw [fn_taken_self]; simpa [physFn, here] using virtual
  · rw [moved]

/-- START_INTERFACE_REQUEST over the session of the tenant (R37). -/
theorem gives_start {s : State} {f : Nat} {sess : Option Nat} (h : Served s f 2) (here : (s.fn f).tdisp = .locked)
    (opened : (s.fn f).session ≠ 0) (same : sess = some (s.fn f).session) :
    Gives (.startInterfaceRequest f sess) s (fun t => Tells s t f 0x105 ∧ (t.fn f).tdisp = .run) := by
  refine gives_spdm_upFn rfl h ?_ rfl (fun _ => rfl) fun t tells ⟨m, moved⟩ => ⟨tells, ?_⟩
  · rw [fn_taken_self]; simp [here, opened, same]
  · rw [moved]

/-- STOP_INTERFACE_REQUEST has no effect on an unlocked interface (R38). -/
theorem gives_stop_unlocked {s : State} {f : Nat} (h : Served s f 2) (here : (s.fn f).tdisp = .unlocked) :
    Gives (.stopInterfaceRequest f) s (fun t => Tells s t f 0x106 ∧ (t.fn f).tdisp = .unlocked) := by
  have unlocked : ((s.taken f 2).fn f).tdisp = .unlocked := by rw [fn_taken_self]; exact here
  refine gives_respond rfl h (if_pos unlocked) ⟨tells_respond, ?_⟩
  rw [fn_respond_self]
  exact unlocked

/-- STOP_INTERFACE_REQUEST of a locked or running interface loses its contexts; the answer waits for the scrub (R38). -/
theorem gives_stop {s : State} {f : Nat} (h : Served s f 2) (here : (s.fn f).tdisp = .locked ∨ (s.fn f).tdisp = .run) :
    Gives (.stopInterfaceRequest f) s (fun t => (t.fn f).tdisp = .error ∧ (t.fn f).stopping = true ∧
      (t.fn f).mbox.busy = true ∧ ∀ c ∈ t.work.ctxs, c.fn ≠ f) := by
  have same : ((s.taken f 2).fn f).tdisp = (s.fn f).tdisp := by rw [fn_taken_self]
  have locked : ¬((s.taken f 2).fn f).tdisp = .unlocked := by rw [same]; rcases here with e | e <;> simp [e]
  have sound : ¬((s.taken f 2).fn f).tdisp = .error := by rw [same]; rcases here with e | e <;> simp [e]
  obtain ⟨error, gone⟩ := toError_spec (s.taken f 2) f
  refine gives_serve rfl h ((if_neg locked).trans (congrArg (State.upFn · f _) (if_neg sound)))
    (asksNoMore_trans (toError_asksNoMore _ f) ?_) ?_
  · exact upFn_asksNoMore _ _ _ (fun _ _ e => e)
  · rw [fn_upFn_self]
    exact ⟨error, rfl, rfl, gone⟩

/-- Once the scrub has ended the interface is unlocked, and the stop answered (R38). -/
theorem gives_stopComplete {s : State} {f : Nat} (stopping : (s.fn f).stopping = true)
    (error : (s.fn f).tdisp = .error) (scrubbed : s.scrubbed f = true) :
    Gives (.stopInterfaceComplete f) s (fun t => Answered t f 0 (s.spdmBytes 0x106 []) ∧
      (t.fn f).tdisp = .unlocked ∧ (t.fn f).stopping = false) := by
  refine ⟨_, rfl, ?_⟩
  rw [if_pos ⟨stopping, error, scrubbed⟩]
  refine ⟨answered_respond _ _ _ _, ?_⟩
  rw [fn_respond_self, fn_upFn_self]
  exact ⟨rfl, rfl⟩

/-- KEY_UPDATE gives an open port new keys, and touches no other port (R393). -/
theorem gives_keyUpdate {s : State} {p : Nat} {x : Port} (here : s.links.ports[p]? = some x)
    (open_ : x.state = .open_) :
    Gives (.keyUpdate p) s (fun t => t.links.ports[p]? = some { x with keyNo := x.keyNo + 1, groups := 0 } ∧
      ∀ k, k ≠ p → t.links.ports[k]? = s.links.ports[k]?) := by
  obtain ⟨bound, -⟩ := List.getElem?_eq_some_iff.mp here
  refine ⟨_, rfl, ?_⟩
  simp only [here, open_, if_true]
  exact ⟨List.getElem?_set_self bound, fun k ne => List.getElem?_set_ne ne.symm⟩

/-- Settles O52: one lemma above for each message. -/
theorem sessionMessages : Obligations.SessionMessages := by
  unfold Obligations.SessionMessages
  intro f p sess x s
  refine ⟨fun h => ⟨gives_getVersion h, ?_, fun far => ?_, gives_finish h, gives_endSession h, gives_ideKm h, ?_,
    gives_lock h, gives_start h, gives_stop_unlocked h, gives_stop h⟩, gives_stopComplete, gives_keyUpdate⟩
  · simp only [List.forall_mem_cons, List.not_mem_nil, false_implies, implies_true, and_true]
    exact ⟨gives_stage rfl h, gives_stage rfl h, gives_stage rfl h⟩
  · simp only [List.forall_mem_cons, List.not_mem_nil, false_implies, implies_true, and_true]
    exact ⟨gives_report rfl h far, gives_report rfl h far, gives_report rfl h far, gives_report rfl h far⟩
  · simp only [List.forall_mem_cons, List.not_mem_nil, false_implies, implies_true, and_true]
    exact ⟨refused_stage rfl h, refused_stage rfl h, refused_stage rfl h, refused_stage rfl h, refused_stage rfl h,
      refused_ideKm h, refused_report rfl h, refused_report rfl h, refused_report rfl h, refused_report rfl h,
      refused_lock h, refused_start h⟩

end Sys2Proof.Machine
end

section
/-! The commands of the physical function, and STATUS (02 R28, R33, R39 to R42, R487 to R489): what each gives, and what
a lifecycle transition wipes and keeps. -/

namespace Sys2Proof.Machine

/-! ### STATUS, RESET, FW_LOAD and DEBUG_NONCE -/

@[simp] theorem fixLen_length (n : Nat) (l : List Byte) : (fixLen n l).length = n := by simp [fixLen]

@[simp] theorem peerBytes_length (p : Port) : p.peerBytes.length = 352 := by
  unfold Port.peerBytes
  split
  · simp only [List.length_append, leBytes_length, List.length_replicate, List.length_flatMap, List.map_const',
      List.length_range, List.sum_replicate_nat]
  · exact List.length_replicate

/-- The record of R487 is 1536 bytes, with the lifecycle and anti-rollback values in their places. -/
theorem statusBytes_spec (s : State) (f : Nat) :
    (s.statusBytes f).length = 1536 ∧ (s.statusBytes f).getD 17 0 = BitVec.ofNat 8 s.trust.lcNow.code ∧
      (s.statusBytes f).getD 18 0 = BitVec.ofNat 8 s.trust.arbn := by
  have places : ∃ front back, front.length = 17 ∧ s.statusBytes f =
      front ++ (BitVec.ofNat 8 s.trust.lcNow.code :: BitVec.ofNat 8 s.trust.arbn :: back) :=
    ⟨fixLen 16 (Config.fuse 0) ++ leBytes 1 s.trust.lcFuse.fuse, _,
      by rw [List.length_append, fixLen_length, leBytes_length],
      by rw [State.statusBytes]; simp only [List.append_assoc]; rfl⟩
  refine ⟨?_, ?_⟩
  · have peers : (if f = physFn then (List.range 4).flatMap (fun i => (s.links.ports.getD i Port.reset).peerBytes)
        else List.replicate 1408 0).length = 1408 := by
      split
      · simp only [List.length_flatMap, peerBytes_length, List.map_const', List.length_range,
          List.sum_replicate_nat]
      · exact List.length_replicate
    simp only [State.statusBytes, List.length_append, fixLen_length, leBytes_length, List.length_replicate, peers]
  · obtain ⟨front, back, len, eq⟩ := places
    rw [eq, List.getD_eq_getElem?_getD, List.getD_eq_getElem?_getD, List.getElem?_append_right (by omega),
      List.getElem?_append_right (by omega), len]
    exact ⟨rfl, rfl⟩

/-- STATUS changes nothing but which mailbox was served last (R32, R487). -/
theorem gives_status {s : State} {f : Nat} (h : Served s f 1) :
    Gives (.status f) s (fun t => ∃ bs, Answered t f 0 bs ∧ bs.length = 1536 ∧
      bs.getD 17 0 = BitVec.ofNat 8 s.trust.lcNow.code ∧ bs.getD 18 0 = BitVec.ofNat 8 s.trust.arbn ∧
      t.trust = { s.trust with last := f } ∧ t.core = s.core ∧ t.mem = s.mem) := by
  obtain ⟨len, lifecycle, rollback⟩ := statusBytes_spec (s.taken f 1) f
  refine gives_respond rfl h rfl ⟨_, answered_respond _ _ _ _, len, lifecycle, rollback, ?_⟩
  simp

/-- In a fresh package no mailbox holds a command. -/
theorem asksNoMore_of_fresh {s u t : State} (h : FreshPackage u t) : s.asksNoMore t := fun g r waiting => by
  obtain ⟨-, -, -, -, fns, -⟩ := h
  rw [fn_of_fresh fns] at waiting
  cases waiting

/-- RESET is a package reset (R22, R33). -/
theorem gives_reset {s : State} (h : Served s 32 3) : Gives (.reset 32) s (fun t => FreshPackage s t) := by
  have fresh := packageReset_fresh (s.taken 32 3)
  exact gives_serve rfl h (if_pos rfl) (asksNoMore_of_fresh fresh) fresh

/-- FW_LOAD writes the inactive bank alone (R33, log 92). -/
theorem gives_fwLoad {s : State} (h : Served s 32 4) :
    Gives (.fwLoad 32) s (fun t => Answered t 32 0 [] ∧
      (t.trust.banks.getD (1 - s.trust.running) ⟨[], 0, false⟩).image = request s 32 ∧
      ∀ k, k ≠ 1 - s.trust.running → t.trust.banks.getD k ⟨[], 0, false⟩ = s.trust.banks.getD k ⟨[], 0, false⟩) := by
  refine gives_serve rfl h (if_pos rfl) ?_ ⟨answered_respond _ _ _ _, ?_, fun k other => ?_⟩
  · exact asksNoMore_trans (asksNoMore_of_fns rfl) (respond_asksNoMore _ _ _ _)
  · exact congrArg Flash.image ((getD_upd _ _ _ _ _).trans (if_pos rfl))
  · exact (getD_upd _ _ _ _ _).trans (if_neg other)

/-- DEBUG_NONCE draws the nonce in force (R40). -/
theorem gives_debugNonce {s : State} (h : Served s 32 0x10) :
    Gives (.debugNonce 32) s (fun t => ∃ n, n.length = 32 ∧ t.trust.nonce = some n ∧ Answered t 32 0 n ∧
      t.trust.draws = s.trust.draws + 1) := by
  refine gives_serve rfl h (if_pos rfl) ?_ ⟨_, fixLen_length _ _, rfl, answered_respond _ _ _ _, rfl⟩
  exact asksNoMore_trans (asksNoMore_of_fns rfl) (respond_asksNoMore _ _ _ _)

/-! ### Lifecycle transitions (R28, R488, R489) -/

/-- Cores and memory as after a reset, and no context left. -/
def State.wiped (t : State) : Prop := t.core = Core.reset ∧ t.mem = Mem.reset ∧ t.work.ctxs = []

theorem wiped_respond {t : State} (h : t.wiped) (f st : Nat) (bs : List Byte) : (t.respond f st bs).wiped := h

theorem dropRevocation_keeps (s : State) : s.dropRevocation.trust = s.trust ∧ s.asksNoMore s.dropRevocation := by
  unfold State.dropRevocation
  split
  · exact ⟨rfl, respond_asksNoMore _ _ _ _⟩
  · exact ⟨rfl, asksNoMore_refl s⟩

theorem wipeCores_wiped (s : State) : s.wipeCores.wiped := ⟨rfl, rfl, rfl⟩

/-- The wipe destroys the keys, takes a new seal key and abandons a revocation; the rest of the trust core stays. -/
theorem wipeCores_keeps (s : State) :
    s.wipeCores.trust = { s.trust with keys := List.replicate 64 none, sealNo := s.trust.sealNo + 1, revoke := none } ∧
      s.asksNoMore s.wipeCores := by
  obtain ⟨trust, calm⟩ := dropRevocation_keeps s
  refine ⟨?_, asksNoMore_trans calm (asksNoMore_of_fns rfl)⟩
  unfold State.wipeCores
  dsimp only
  rw [trust]

/-- What the end of an abandoned sweep tells changes no core, no memory, no work and nothing of the trust core. -/
theorem raises_keep (l : List Nat) (s : State) :
    let t := l.foldl (fun s _ => s.raise physFn 2) s
    t.core = s.core ∧ t.mem = s.mem ∧ t.work = s.work ∧ t.trust = s.trust ∧ s.asksNoMore t :=
  List.foldlRecOn (motive := fun t : State => t.core = s.core ∧ t.mem = s.mem ∧ t.work = s.work ∧ t.trust = s.trust ∧
    s.asksNoMore t) l _ ⟨rfl, rfl, rfl, rfl, asksNoMore_refl s⟩ fun _ ⟨core, mem, work, trust, calm⟩ _ _ =>
      ⟨core, mem, work, trust, asksNoMore_trans calm (upFn_asksNoMore _ _ _ (fun _ _ e => e))⟩

theorem lifecycleEffects_keeps (s : State) :
    s.lifecycleEffects.core = s.core ∧ s.lifecycleEffects.mem = s.mem ∧ s.lifecycleEffects.work = s.work ∧
      s.lifecycleEffects.trust = s.trust ∧ s.asksNoMore s.lifecycleEffects := by
  obtain ⟨core, mem, work, trust, calm⟩ := raises_keep (List.range s.sweepsRun) s
  unfold State.lifecycleEffects
  dsimp only
  rw [startScrubSweep_core, startScrubSweep_mem, startScrubSweep_trust, (startScrubSweep_keeps _).2]
  refine ⟨core, mem, work, trust, asksNoMore_trans calm (asksNoMore_of_fns (startScrubSweep_keeps _).1)⟩

/-- A transition carried out (R28, R41, R489): the state entered is in force, and fused but for DEBUG, which counts an
unlock. -/
theorem enterLifecycle_spec (s : State) (l : Lifecycle) :
    let t := s.enterLifecycle l
    t.wiped ∧ t.trust.lcNow = l ∧ t.trust.pendingLc = none ∧ t.trust.debugOpen = (l == .debug) ∧
      t.trust.dbgn = s.trust.dbgn + (if l = .debug then 1 else 0) ∧
      t.trust.lcFuse = (if l = .debug then s.trust.lcFuse else l) ∧ s.asksNoMore t := by
  obtain ⟨core, mem, work, trust, calm⟩ := lifecycleEffects_keeps s.wipeCores
  obtain ⟨wipedCore, wipedMem, wipedWork⟩ := wipeCores_wiped s
  obtain ⟨wipedTrust, wipedCalm⟩ := wipeCores_keeps s
  have trust := trust.trans wipedTrust
  have calm := asksNoMore_trans wipedCalm calm
  unfold State.enterLifecycle Trust.extend
  dsimp only
  rw [trust]
  refine ⟨⟨core.trans wipedCore, mem.trans wipedMem, (congrArg Work.ctxs work).trans wipedWork⟩, rfl, rfl, rfl, ?_, ?_,
    asksNoMore_trans calm (asksNoMore_of_fns rfl)⟩ <;> split <;> rfl

/-- A transition asked for while no retirement runs takes place at once, and its command is answered (R489). -/
theorem requestLifecycle_spec {s : State} (f : Nat) (l : Lifecycle) (token : List Byte)
    (idle : s.sweep.retiringNow = false) :
    let t := s.requestLifecycle f l token
    Answered t f 0 [] ∧ t.wiped ∧ t.trust.lcNow = l ∧ t.trust.debugOpen = (l == .debug) ∧
      t.trust.dbgn = s.trust.dbgn + (if l = .debug then 1 else 0) ∧
      t.trust.lcFuse = (if l = .debug then s.trust.lcFuse else l) ∧ s.asksNoMore t := by
  have now : s.requestLifecycle f l token = (State.enterLifecycle _ l).respond f 0 [] := if_neg (by simp [idle])
  obtain ⟨wiped, state, -, debug, count, fuse, calm⟩ := enterLifecycle_spec
    { s with trust := { s.trust with pendingLc := some l, pendingToken := token } } l
  dsimp only
  rw [now, respond_trust]
  exact ⟨answered_respond _ _ _ _, wiped_respond wiped _ _ _, state, debug, count, fuse,
    asksNoMore_trans calm (respond_asksNoMore _ _ _ _)⟩

/-- A transition that waited takes place once no retirement runs, and answers its command (R489). -/
theorem gives_lifecycleTransition {s : State} {l : Lifecycle} (waits : s.trust.pendingLc = some l)
    (idle : s.sweep.retiringNow = false) :
    Gives .lifecycleTransition s (fun t => Answered t 32 0 [] ∧ t.trust.lcNow = l ∧ t.trust.pendingLc = none ∧
      t.wiped) := by
  obtain ⟨wiped, state, done, -⟩ := enterLifecycle_spec s l
  have now : exec .lifecycleTransition s = .next ((s.enterLifecycle l).respond physFn 0 []) := by
    show execLifecycleTransition s = _
    rw [execLifecycleTransition, waits]
    simp only [idle, Bool.false_eq_true, if_false]
  refine ⟨_, now, answered_respond _ _ _ _, ?_⟩
  rw [respond_trust]
  exact ⟨state, done, wiped_respond wiped _ _ _⟩

/-- The byte that names a state is read back as its code. -/
theorem field_code (l : Lifecycle) : field [BitVec.ofNat 8 l.code] 0 1 = l.code := by cases l <;> rfl

theorem code_range (l : Lifecycle) : l.code ≠ 0 ∧ l.code ≤ 5 := by cases l <;> decide

/-- No advance enters DEBUG (R28). -/
theorem advance_ne_debug {k l : Lifecycle} (h : k.advance = some l) : l ≠ .debug := by
  rintro rfl
  cases k <;> cases h

/-- A request that names the next state passes the checks of R488. -/
theorem advanceLifecycle_pass {s : State} {l : Lifecycle} (next : s.trust.lcNow.advance = some l)
    (empty : s.work.ctxs = []) (fused : s.trust.identityFused = true) :
    s.advanceLifecycle 32 [BitVec.ofNat 8 l.code] = s.requestLifecycle 32 l [] := by
  obtain ⟨some_, below⟩ := code_range l
  unfold State.advanceLifecycle
  rw [if_neg (by decide), field_code, if_neg (by simp [some_, below]), next]
  simp [empty, fused]

/-- LIFECYCLE_ADVANCE with nothing in its way (R28, R488). -/
theorem gives_lifecycleAdvance {s : State} {l : Lifecycle} (h : Served s 32 0x20)
    (next : s.trust.lcNow.advance = some l) (asked : request s 32 = [BitVec.ofNat 8 l.code]) (empty : s.work.ctxs = [])
    (fused : s.trust.identityFused = true) (idle : s.sweep.retiringNow = false) :
    Gives (.lifecycleAdvance 32) s (fun t =>
      Answered t 32 0 [] ∧ t.trust.lcNow = l ∧ t.trust.lcFuse = l ∧ t.wiped) := by
  obtain ⟨answered, wiped, state, -, -, fuse, calm⟩ :=
    requestLifecycle_spec (s := s.taken 32 0x20) 32 l [] idle
  refine gives_serve rfl h ?_ calm ⟨answered, state, fuse.trans (if_neg (advance_ne_debug next)), wiped⟩
  rw [asked]
  exact advanceLifecycle_pass next empty fused

/-! ### Debug unlock (R39 to R42) -/

/-- What a notice to every tenant leaves as it was. -/
theorem noticeAll_keeps (s : State) :
    s.noticeAll.trust = s.trust ∧ s.noticeAll.sweep = s.sweep ∧ s.asksNoMore s.noticeAll :=
  List.foldlRecOn (motive := fun t : State => t.trust = s.trust ∧ t.sweep = s.sweep ∧ s.asksNoMore t) _ _
    ⟨rfl, rfl, asksNoMore_refl s⟩ fun _ ⟨trust, sweep, calm⟩ _ _ =>
      ⟨trust, sweep, asksNoMore_trans calm (upFn_asksNoMore _ _ _ (fun _ _ e => e))⟩

/-- Contexts lost to an unlock leave the fuses and the count of unlocks, and whether a retirement runs. -/
theorem loseForced_keeps (s : State) :
    s.loseForced.trust.lcFuse = s.trust.lcFuse ∧ s.loseForced.trust.dbgn = s.trust.dbgn ∧
      s.loseForced.sweep.retiringNow = s.sweep.retiringNow ∧ s.asksNoMore s.loseForced := by
  obtain ⟨told, sweep, calm⟩ := noticeAll_keeps s
  have lost : s.noticeAll.lossKeeps s.loseForced :=
    lossKeeps_foldl (fun s n => s.loseContext n 0) (fun t n => loseContext_lossKeeps t n 0) _ _
  have more := asksNoMore_trans calm (asksNoMore_of_lossKeeps lost)
  obtain ⟨phase, trust, -⟩ := lost
  refine ⟨?_, ?_, ?_, more⟩
  · rw [trust, told]
  · rw [trust, told]
  · rw [Sweep.retiringNow, phase, sweep]; rfl

theorem answered_lapse {t : State} {f st : Nat} {bs : List Byte} (h : Answered t f st bs) :
    Answered t.lapse f st bs := h

@[simp] theorem lapse_trust (t : State) : t.lapse.trust = { t.trust with nonce := none } := rfl

@[simp] theorem lapse_core (t : State) : t.lapse.core = t.core := rfl

theorem wiped_lapse {t : State} (h : t.wiped) : t.lapse.wiped := h

/-- An unlock attempt that the trust core takes ends with the nonce lapsed (R40). -/
theorem exec_debugUnlock {s u : State} (h : Served s 32 0x11) (acts : (s.taken 32 0x11).unlock 32 (request s 32) = u)
    (calm : (s.taken 32 0x11).asksNoMore u) : exec (.debugUnlock 32) s = .next u.lapse := by
  have allowed : (s.taken 32 0x11).physOnly 32 (fun t => t.unlock 32 (request s 32)) = u := (if_pos rfl).trans acts
  show execDebugUnlock 32 s = _
  unfold execDebugUnlock
  simp only [takes_of_served h, if_true]
  refine congrArg (fun t => Host.Outcome.next (State.lapse t)) ((serve_served h ?_).trans allowed)
  rw [allowed]
  exact calm

/-- DEBUG_UNLOCK: the check of R41 gives the status, or the package is wiped and enters DEBUG. -/
theorem gives_debugUnlock {s : State} (h : Served s 32 0x11)
    (from_ : s.trust.lcNow = .provisioned ∨ s.trust.lcNow = .operational) (idle : s.sweep.retiringNow = false) :
    Gives (.debugUnlock 32) s (fun t => t.trust.nonce = none ∧
      (∀ k, s.tokenCheck (request s 32) = some k →
        Answered t 32 k [] ∧ t.trust.lcNow = s.trust.lcNow ∧ t.core = s.core) ∧
      (s.tokenCheck (request s 32) = none → Answered t 32 0 [] ∧ t.trust.lcNow = .debug ∧ t.trust.debugOpen = true ∧
        t.trust.dbgn = s.trust.dbgn + 1 ∧ t.trust.lcFuse = s.trust.lcFuse ∧ t.wiped)) := by
  have same : (s.taken 32 0x11).tokenCheck (request s 32) = s.tokenCheck (request s 32) := rfl
  cases check : s.tokenCheck (request s 32) with
  | some k =>
    have refused : (s.taken 32 0x11).unlock 32 (request s 32) = (s.taken 32 0x11).respond 32 k [] := by
      rw [State.unlock, same, check]
    refine ⟨_, exec_debugUnlock h refused (respond_asksNoMore _ _ _ _), rfl, fun j eq => ?_,
      fun no => absurd no (by simp)⟩
    obtain rfl := Option.some.inj eq
    refine ⟨answered_lapse (answered_respond _ _ _ _), ?_⟩
    simp
  | none =>
    have passed : (s.taken 32 0x11).unlock 32 (request s 32) =
        (s.taken 32 0x11).loseForced.requestLifecycle 32 .debug ((request s 32).take 3373) := by
      rw [State.unlock, same, check]
      exact if_neg fun ⟨no, neither⟩ => from_.elim no neither
    obtain ⟨fuse, count, retiring, calm⟩ := loseForced_keeps (s.taken 32 0x11)
    obtain ⟨answered, wiped, state, debug, counted, fused, calm'⟩ :=
      requestLifecycle_spec 32 .debug ((request s 32).take 3373) (retiring.trans idle)
    refine ⟨_, exec_debugUnlock h passed (asksNoMore_trans calm calm'), rfl, fun _ no => absurd no (by simp),
      fun _ => ?_⟩
    rw [if_pos rfl, count] at counted
    rw [if_pos rfl, fuse] at fused
    rw [lapse_trust]
    exact ⟨answered_lapse answered, state, debug, counted, fused, wiped_lapse wiped⟩

/-- Settles O50: one lemma above for each command. -/
theorem mailboxCommands : Obligations.MailboxCommands := by
  unfold Obligations.MailboxCommands
  intro f l s
  exact ⟨gives_status, gives_reset, gives_fwLoad, gives_debugNonce, gives_debugUnlock, gives_lifecycleAdvance,
    gives_lifecycleTransition⟩

end Sys2Proof.Machine
end

section
/-! Issue into an engine's queue (08 R154, 15 R366), and the register instructions of the vector unit (03 R50; 09 R183
to R185, R191 to R220): the checks of their sources, then the entry of the queue. -/

namespace Sys2Proof.Machine

/-! ### An engine's queue replaced -/

@[simp] theorem Core.queue_setQueue (c : Core) (e : Eng) (q : List Cmd) : (c.setQueue e q).queue e = q := by
  cases e <;> rfl

@[simp] theorem Core.setQueue_prod (c : Core) (e : Eng) (q : List Cmd) : (c.setQueue e q).prod = c.prod := by
  cases e <;> rfl

@[simp] theorem Core.setQueue_pc (c : Core) (e : Eng) (q : List Cmd) : (c.setQueue e q).pc = c.pc := by
  cases e <;> rfl

@[simp] theorem Core.setQueue_live (c : Core) (e : Eng) (q : List Cmd) : (c.setQueue e q).live = c.live := by
  cases e <;> rfl

@[simp] theorem Core.setQueue_arrays (c : Core) (e : Eng) (q : List Cmd) : (c.setQueue e q).arrays = c.arrays := by
  cases e <;> rfl

/-- An engine's queue is read from the queues alone. -/
theorem Core.queue_congr {c d : Core} (hv : c.vq = d.vq) (hm : c.mq = d.mq) (hp : c.pq = d.pq) (hc : c.cq = d.cq)
    (e : Eng) : c.queue e = d.queue e := by
  cases e
  · exact hm
  · exact hp
  · exact hv
  · exact hc

/-! ### The token a command produces -/

/-- Rotation keeps k0 apart: no other token register is mapped to it (R132, R133). -/
theorem Core.physK_ne_zero (c : Core) {r : Nat} (h : r ≠ 0) : c.physK r ≠ 0 := by
  unfold Core.physK
  split <;> omega

theorem Regs.setTok_of_ne_zero (g : Regs) {p : Nat} (h : p ≠ 0) (t : Tok) :
    g.setTok p t = { g with k := upd Tok.reset g.k p t } := if_neg h

/-! ### Issue -/

/-- The state after a command entered last in an engine's queue, with the token it names pending (R154, R366). -/
def State.entered (s : State) (e : Eng) (kd : Nat) (x : Cmd) (n : Nat) : State :=
  let t := s.upCore (fun c => ({ c with prod := s.core.prod + 1 } : Core).setQueue e (c.queue e ++ [x]))
  (if kd = 0 then t
    else t.upRegs (fun g => g.setTok (s.core.physK kd) ⟨true, 0, 0, s.core.prod⟩)).advance n

/-- The token registers once token `kd` awaits the production; k0 discards it (R132). -/
def State.tokensPending (s : State) (kd : Nat) : List Tok :=
  if kd = 0 then s.core.live.k else upd Tok.reset s.core.live.k (s.core.physK kd) ⟨true, 0, 0, s.core.prod⟩

/-- Entry changes the queue, the production number, the token registers and the program counter of the core alone. -/
theorem entered_core (s : State) (e : Eng) (kd : Nat) (x : Cmd) (n : Nat) :
    (s.entered e kd x n).core =
      { ({ s.core with prod := s.core.prod + 1 } : Core).setQueue e (s.core.queue e ++ [x]) with
        live := { s.core.live with k := s.tokensPending kd }
        pc := s.core.pc + BitVec.ofNat 48 (4 * n) } := by
  unfold State.entered State.tokensPending
  split
  · simp
  · next named => simp [Regs.setTok_of_ne_zero _ (s.core.physK_ne_zero named)]

theorem entered_mem (s : State) (e : Eng) (kd : Nat) (x : Cmd) (n : Nat) : (s.entered e kd x n).mem = s.mem := by
  unfold State.entered
  split <;> rfl

/-- A command that entered as this core's next production is one that `Enqueued` speaks of. -/
theorem enqueued_entered {s : State} {x : Cmd} (prod : x.prod = s.core.prod) (rseq : x.rseq = s.core.rseq)
    (waits : x.started = false) (e : Eng) (kd n : Nat) : Enqueued s (s.entered e kd x n) e x.instr kd n := by
  refine ⟨x, rfl, prod, rseq, waits, ?_⟩
  rw [entered_core, entered_mem]
  exact ⟨(Core.queue_congr rfl rfl rfl rfl e).trans (Core.queue_setQueue _ e _), Core.setQueue_prod _ e _, rfl, rfl, rfl,
    rfl, rfl, Core.setQueue_arrays _ e _, rfl⟩

/-- With room in its queue and its token free, an instruction issued enters as a command (R154, R366). -/
theorem issue_enqueued {s : State} {e : Eng} {kd : Nat} (h : Room s e kd) (i : Instr) (cons : List Nat)
    (scal : List Word) (views : List View) (len : Nat) (tags : List (Nat × Nat)) (snap : List HReg) :
    ∃ t, s.issue e i kd cons scal views len tags snap = .ok t ∧ Enqueued s t e i kd len := by
  obtain ⟨room, free⟩ := h
  have enters : ∃ x : Cmd, s.issue e i kd cons scal views len tags snap = .ok (s.entered e kd x len) ∧
      x.instr = i ∧ x.prod = s.core.prod ∧ x.rseq = s.core.rseq ∧ x.started = false := by
    unfold State.issue queueEntries
    rw [if_neg (Nat.not_le.mpr room), if_neg (Bool.eq_false_iff.mp free)]
    exact ⟨_, rfl, rfl, rfl, rfl, rfl⟩
  obtain ⟨x, ok, rfl, prod, rseq, waits⟩ := enters
  exact ⟨_, ok, enqueued_entered prod rseq waits e kd len⟩

/-! ### The checks of a vector instruction's sources -/

/-- The check of one source: its first register, its registers and the tags accepted (R50). -/
def sourceCheck (c : Nat × Nat × (Nat → Bool)) : State → Res State := chkTags c.1 c.2.1 c.2.2

theorem sourceCheck_ok {s : State} {c : Nat × Nat × (Nat → Bool)} (h : TagsGood s c) : sourceCheck c s = .ok s := by
  have none_bad : (List.range c.2.1).find?
      (fun k => !c.2.2 (s.vtag (c.1 + k)) || s.vtag (c.1 + k) != s.vtag c.1) = none :=
    List.find?_eq_none.mpr fun k hk => by
      obtain ⟨accepted, same⟩ := h k (List.mem_range.mp hk)
      rw [same] at accepted ⊢
      simp [accepted]
  rw [sourceCheck, chkTags, none_bad]

/-- Checks that all pass leave the state. -/
theorem checks_ok {s : State} {cs : List (State → Res State)} (h : ∀ f ∈ cs, f s = .ok s) : s.checks cs = .ok s := by
  induction cs with
  | nil => rfl
  | cons f cs ih =>
    obtain ⟨first, rest⟩ := List.forall_mem_cons.mp h
    rw [State.checks, first]
    exact ih rest

/-- A vector instruction whose checks pass enters the vector queue (R183, R185). -/
theorem gives_vec {i : Instr} {s : State} {cs : List (State → Res State)} {kd : Nat} {scal : List Word}
    {tags : List (Nat × Nat)} (arm : exec i s = s.vec cs i kd scal tags) (pass : ∀ f ∈ cs, f s = .ok s)
    (room : Room s .vector kd) : Gives i s (fun t => Enqueued s t .vector i kd 2) := by
  obtain ⟨t, ok, enqueued⟩ := issue_enqueued room i [] scal [] 2 tags []
  refine ⟨t, ?_, enqueued⟩
  rw [arm, State.vec, checks_ok pass]
  exact congrArg retire ok

/-- The token an instruction of the vector unit names; k0 where its field c is a register (R185). -/
def namedToken (o : OpV) (i : Instr) : Nat := if tokenless i then 0 else o.c.toNat % 32

/-- An instruction of the vector unit with the sources it checks: it makes those checks, in their order, and then
issues with its token. -/
def ChecksThenIssues (o : OpV) (s : State) (p : Instr × List (Nat × Nat × (Nat → Bool))) : Prop :=
  ∃ scal tags, exec p.1 s = s.vec (p.2.map sourceCheck) p.1 (namedToken o p.1) scal tags

/-- Every row of `vectorChecks` is what the model's instruction does (R191 to R220): row by row, the instruction's own
definition unfolds to the row's checks. -/
theorem vectorChecks_issue (o : OpV) (s : State) : ∀ p ∈ vectorChecks o s, ChecksThenIssues o s p := by
  simp only [vectorChecks, List.forall_mem_append, List.forall_mem_cons, List.not_mem_nil, false_implies, implies_true,
    and_true]
  and_intros <;> exact ⟨_, _, rfl⟩

/-- Settles O34: each instruction is its row's checks, which pass, and then its issue, which has room. -/
theorem vectorIssue : Obligations.VectorIssue := by
  unfold Obligations.VectorIssue
  intro o s p hp kd good room
  obtain ⟨scal, tags, arm⟩ := vectorChecks_issue o s p hp
  refine gives_vec arm (fun f hf => ?_) room
  obtain ⟨c, hc, rfl⟩ := List.mem_map.mp hf
  exact sourceCheck_ok (good c hc)

end Sys2Proof.Machine
end

section
/-! Traps of the scalar accesses and of the atomics (04 R85; 13 R316; 20 R420, R422): each is stopped by the one check of
its view, before any byte is accessed. -/

namespace Sys2Proof.Machine

/-- Instruction `i` accesses `n` bytes through the handle and at the offset of its operands, and is stopped where the
check of that view stops it (R85, R316). -/
def StopsWithView (o : OpM) (s : State) (i : Instr) (n : Nat) : Prop :=
  ∃ need ∈ [Right.rd, .w, .at], ∀ e, s.scalarView o.h.toNat (s.memOff o) n need = .error e → exec i s = retire (.error e)

theorem ld_stopsWithView (o : OpM) (s : State) : StopsWithView o s (.ld o) (2 ^ o.size.toNat) := by
  refine ⟨.rd, by simp, fun e stops => congrArg retire ?_⟩
  simp only [State.load, OpM.bytes, stops]

theorem st_stopsWithView (o : OpM) (s : State) : StopsWithView o s (.st o) (2 ^ o.size.toNat) := by
  refine ⟨.w, by simp, fun e stops => congrArg retire ?_⟩
  simp only [State.store, OpM.bytes, stops]

/-- An atomic that has not been sent to another package checks its view (R383). -/
theorem atomic_stopsWithView {o : OpM} {s : State} {i : Instr} {n : Nat} {a b : BitVec 6} {aop : Nat}
    (unsent : s.sentAtomic = none) (arm : exec i s = retire (s.atomic o a b aop n)) : StopsWithView o s i n := by
  refine ⟨.at, by simp, fun e stops => arm.trans (congrArg retire ?_)⟩
  simp only [State.atomic, unsent, stops]

/-! ### What stops the check of a view -/

/-- A fault of the check before rights and bounds stops the view of an access of any bytes. -/
theorem scalarView_of_checkHandle {s : State} {h off n : Nat} {need : Right} {e : Stop × State} (some_ : n ≠ 0)
    (stops : s.checkHandle h off 0 = .error e) : s.scalarView h off n need = .error e := by
  simp only [State.scalarView, State.readHandle, State.openHandle, if_neg some_, stops]

/-- Through an EMPTY register: HANDLE_STALE (R85). -/
theorem checkHandle_empty {s : State} {h : Nat} (off opw : Nat) (loaded : 2 ≤ h)
    (empty : s.core.live.h.getD h .empty = .empty) :
    s.checkHandle h off opw = .error (.trap 5 (accessInfo off opw h), s) := by
  simp only [State.checkHandle, if_neg (Nat.not_le.mpr loaded), empty]

/-- Through a REVOKED register: HANDLE_REVOKED (R85). -/
theorem checkHandle_revoked {s : State} {h e g : Nat} (off opw : Nat) (loaded : 2 ≤ h)
    (revoked : s.core.live.h.getD h .empty = .revoked e g) :
    s.checkHandle h off opw = .error (.trap 4 (accessInfo off opw h), s) := by
  simp only [State.checkHandle, if_neg (Nat.not_le.mpr loaded), revoked]

/-- The LM share grants reads, writes and atomics (R82). -/
theorem share_grants {need : Right} (h : need ∈ [Right.rd, .w, .at]) : rightsOk 0x13 true need = true := by
  revert need
  decide

/-- Beyond the LM share, or at an offset that is no multiple of the access's size: HANDLE_BOUNDS (R85, R316). -/
theorem scalarView_share {s : State} {j : Job} {off n : Nat} {need : Right} (job : s.core.job = some j) (some_ : n ≠ 0)
    (granted : need ∈ [Right.rd, .w, .at]) (bad : j.lmBytes < off + n ∨ off % n ≠ 0) :
    s.scalarView 0 off n need = .error (.trap 2 (accessInfo off 0 0), s) := by
  have checked : s.checkHandle 0 off 0 = .ok (s.ownView 0 0, s) := rfl
  have allowed : rightsOk (s.ownView 0 0).rights (s.ownView 0 0).local_ need = true := share_grants granted
  have opened : s.openHandle 0 off need 0 = .ok ({ s.ownView 0 0 with off := off }, s) := by
    simp [State.openHandle, checked, allowed]
  have len : (s.ownView 0 0).length = j.lmBytes := by simp [State.ownView, job]
  simp only [State.scalarView, State.readHandle, if_neg some_, opened, len]
  by_cases beyond : j.lmBytes < off + n
  · simp only [if_pos beyond]
  · simp only [if_neg beyond, if_pos (bad.resolve_left beyond)]

/-! ### The traps -/

/-- TRAPINFO of a scalar access names its offset and its register (R422). -/
theorem accessInfo_scalar (off : Nat) (h : BitVec 4) :
    accessInfo off 0 h.toNat = BitVec.ofNat 64 (off % 2 ^ 48 * 2 ^ 16 + h.toNat) := by
  rw [accessInfo, Nat.mod_eq_of_lt (show h.toNat < 16 from h.isLt), Nat.zero_mod, Nat.zero_mul, Nat.add_zero]

/-- An exact fault of a strand that is ready for a trap traps at the instruction (R420). -/
theorem gives_fault {i : Instr} {s : State} {vec info : Word} {c : Nat} (ready : s.trapReady vec)
    (arm : exec i s = retire (.error (.trap c info, s))) :
    Gives i s (fun t => TrapTaken s t (trapCauseWord c false false) info s.core.pc vec) :=
  ⟨_, arm, trapEntry_ready s vec c false info s.core.pc ready⟩

/-- An access that the check of its view stops traps with its offset and its register. -/
theorem gives_viewFault {o : OpM} {s : State} {i : Instr} {n c : Nat} {vec : Word} (ready : s.trapReady vec)
    (view : StopsWithView o s i n) (stops : ∀ need ∈ [Right.rd, .w, .at],
      s.scalarView o.h.toNat (s.memOff o) n need = .error (.trap c (accessInfo (s.memOff o) 0 o.h.toNat), s)) :
    Gives i s (fun t => TrapTaken s t (trapCauseWord c false false)
      (BitVec.ofNat 64 (s.memOff o % 2 ^ 48 * 2 ^ 16 + o.h.toNat)) s.core.pc vec) := by
  obtain ⟨need, granted, arm⟩ := view
  rw [← accessInfo_scalar]
  exact gives_fault ready (arm _ (stops need granted))

/-- The three faults of R85 and R316 on an access of `n` bytes. -/
theorem viewFaults {o : OpM} {s : State} {j : Job} {i : Instr} {n : Nat} {vec : Word} (ready : s.trapReady vec)
    (job : s.core.job = some j) (some_ : n ≠ 0) (view : StopsWithView o s i n) :
    let info : Word := BitVec.ofNat 64 (s.memOff o % 2 ^ 48 * 2 ^ 16 + o.h.toNat)
    (o.h = 0 → (j.lmBytes < s.memOff o + n ∨ s.memOff o % n ≠ 0) →
      Gives i s (fun t => TrapTaken s t 2 info s.core.pc vec)) ∧
    (2 ≤ o.h.toNat → s.core.live.h.getD o.h.toNat .empty = .empty →
      Gives i s (fun t => TrapTaken s t 5 info s.core.pc vec)) ∧
    (∀ e g, 2 ≤ o.h.toNat → s.core.live.h.getD o.h.toNat .empty = .revoked e g →
      Gives i s (fun t => TrapTaken s t 4 info s.core.pc vec)) := by
  refine ⟨fun own bad => gives_viewFault ready view fun need granted => ?_,
    fun loaded empty => gives_viewFault ready view fun need _ => ?_,
    fun e g loaded revoked => gives_viewFault ready view fun need _ => ?_⟩
  · rw [own]
    exact scalarView_share job some_ granted bad
  · exact scalarView_of_checkHandle some_ (checkHandle_empty _ 0 loaded empty)
  · exact scalarView_of_checkHandle some_ (checkHandle_revoked _ 0 loaded revoked)

/-- Settles O26: each access is stopped by the check of its view, which the two states of the register and the bounds and
alignment of the LM share stop. -/
theorem memoryTraps : Obligations.MemoryTraps := by
  unfold Obligations.MemoryTraps
  intro o a b s j vec ready job n off sent p listed unsent
  suffices view : p.2 ≠ 0 ∧ StopsWithView o s p.1 p.2 from viewFaults ready job view.1 view.2
  have size : n ≠ 0 := Nat.ne_of_gt (Nat.two_pow_pos _)
  by_cases none_ : s.sentAtomic = none
  · revert p
    simp only [List.forall_mem_cons, List.not_mem_nil, false_implies, implies_true, and_true]
    have word {i : Instr} {aop : Nat} (arm : exec i s = retire (s.atomic o a b aop n)) : n ≠ 0 ∧ StopsWithView o s i n :=
      ⟨size, atomic_stopsWithView none_ arm⟩
    have pair {i : Instr} {aop : Nat} (arm : exec i s = retire (s.atomic o a b aop 16)) :
        16 ≠ 0 ∧ StopsWithView o s i 16 := ⟨by decide, atomic_stopsWithView none_ arm⟩
    exact ⟨fun _ => ⟨size, ld_stopsWithView o s⟩, fun _ => ⟨size, st_stopsWithView o s⟩, fun _ => word rfl,
      fun _ => word rfl, fun _ => word rfl, fun _ => word rfl, fun _ => word rfl, fun _ => word rfl, fun _ => word rfl,
      fun _ => word rfl, fun _ => word rfl, fun _ => word rfl, fun _ => word rfl, fun _ => pair rfl, fun _ => pair rfl⟩
  · have plain : p.1 = .ld o ∨ p.1 = .st o := Classical.byContradiction fun other =>
      unsent ⟨fun e => other (.inl e), fun e => other (.inr e), none_⟩
    revert p
    simp only [List.forall_mem_cons, List.not_mem_nil, false_implies, implies_true, and_true, reduceCtorEq, or_self]
    exact ⟨fun _ _ => ⟨size, ld_stopsWithView o s⟩, fun _ _ => ⟨size, st_stopsWithView o s⟩⟩

end Sys2Proof.Machine
end

section
/-! HLOAD, HDROP and HQUERY (04 R82, R83; 13 R321, R322): the register each writes, and the word a query gives. -/

namespace Sys2Proof.Machine

/-! ### HLOAD and HDROP -/

/-- A handle register written, read at any number. -/
theorem getD_setH (s : State) (h k : Nat) (r : HReg) :
    (s.setH h r).core.live.h.getD k .empty = if k = h then r else s.core.live.h.getD k .empty := getD_upd _ _ _ _ _

/-- HLOAD of an element whose entry has the generation recorded at admission (R83). -/
theorem handleLoad_admitted {s : State} {j : Job} {c : Ctx} {i : Nat} (hd : Nat) (job : s.core.job = some j)
    (ctx : s.ctx? j.ctx = some c) (listed : i < j.admitted.length)
    (same : (c.entry (j.hlStart + i)).gen = j.admitted.getD i 0) :
    s.handleLoad hd i = .ok (s.setH hd (.valid (j.hlStart + i) (j.admitted.getD i 0))) := by
  simp only [State.handleLoad, job, ctx, if_neg (Nat.not_le.mpr listed), same, ne_eq, not_true_eq_false, if_false]

theorem gives_hload {o : OpA} {s : State} {j : Job} {c : Ctx} {i : Nat} (index : i = (s.opB o).toNat)
    (job : s.core.job = some j) (ctx : s.ctx? j.ctx = some c) (listed : i < j.admitted.length)
    (same : (c.entry (j.hlStart + i)).gen = j.admitted.getD i 0) :
    Gives (.hload o) s (fun t =>
      (∀ k, t.core.live.h.getD k .empty = if k = o.d.toNat
        then .valid (j.hlStart + i) (j.admitted.getD i 0) else s.core.live.h.getD k .empty) ∧
      t = { s with core := { s.core with
        pc := s.core.pc + BitVec.ofNat 48 (4 * o.len)
        live := { s.core.live with h := t.core.live.h } } }) := by
  subst index
  refine ⟨(s.setH o.d.toNat (.valid (j.hlStart + (s.opB o).toNat) (j.admitted.getD (s.opB o).toNat 0))).advance o.len,
    ?_, fun k => getD_setH s o.d.toNat k _, rfl⟩
  show retire _ = _
  rw [handleLoad_admitted _ job ctx listed same]
  rfl

/-- Dropping a handle empties its register; only what the handle cache holds may change besides (R83). -/
theorem dropHandle_eq (s : State) (h : Nat) :
    ∃ kept, s.dropHandle h = (s.setH h .empty).upCore (fun c => { c with hcache := kept }) := by
  unfold State.dropHandle
  dsimp only
  split
  · exact ⟨s.core.hcache, rfl⟩
  · split
    · exact ⟨s.core.hcache, rfl⟩
    · exact ⟨_, rfl⟩

theorem gives_hdrop (o : OpA) (s : State) :
    Gives (.hdrop o) s (fun t =>
      (∀ k, t.core.live.h.getD k .empty = if k = o.a.toNat then .empty else s.core.live.h.getD k .empty) ∧
      t = { s with core := { s.core with
        pc := s.core.pc + 4
        hcache := t.core.hcache
        live := { s.core.live with h := t.core.live.h } } }) := by
  obtain ⟨kept, dropped⟩ := dropHandle_eq s o.a.toNat
  refine ⟨_, rfl, ?_⟩
  rw [dropped]
  exact ⟨fun k => getD_setH s o.a.toNat k .empty, rfl⟩

/-! ### HQUERY -/

/-- HQUERY gives the word of the view its check gives (R322). -/
theorem gives_hquery {o : OpA} {s u : State} {v : View} {w : Word}
    (checked : s.checkHandle o.a.toNat 0 0 true = .ok (v, u)) (word : queryWord v o.b.toNat = w) :
    Gives (.hquery o) s (fun t => ScalarResult u t o.d.toNat w 0 1) := by
  subst word
  refine ⟨_, ?_, scalar_ok u o.d.toNat _ 1⟩
  show retire _ = _
  rw [checked]
  rfl

theorem b2n_mul (b : Bool) (n : Nat) : b2n b * n = if b then n else 0 := by cases b <;> simp [b2n]

/-- A query's selector names the first word where its field is zero. -/
theorem toNat_eq_zero_iff {n : Nat} (b : BitVec n) : b.toNat = 0 ↔ b = 0 :=
  ⟨fun zero => BitVec.eq_of_toNat_eq (by simpa using zero), by rintro rfl; simp⟩

/-- The word of a view without a parameter record (R322). -/
theorem queryWord_plain {v : View} (plain : v.param = none) (b : BitVec 6) :
    queryWord v b.toNat = if b = 0 then BitVec.ofNat 64 ((if v.guard = unguarded then 0 else 2 ^ 58) +
      (if v.local_ then 2 ^ 57 else 0) + v.kind % 4 * 2 ^ 55 + v.rights.toNat % 128 * 2 ^ 48 + v.length % 2 ^ 48)
      else 0 := by
  simp only [queryWord, plain, b2n_mul, bne_iff_ne, ne_eq, ite_not, toNat_eq_zero_iff]

/-- The words of a view with a parameter record: the second gives its extents (R322). -/
theorem queryWord_param {v : View} {q : Param} (param : v.param = some q) (b : BitVec 6) :
    queryWord v b.toNat = BitVec.ofNat 64 (if b = 0 then q.tag * 2 ^ 60 + 2 ^ 59 +
      (if v.guard = unguarded then 0 else 2 ^ 58) + (if v.local_ then 2 ^ 57 else 0) + v.kind % 4 * 2 ^ 55 +
      v.rights.toNat % 128 * 2 ^ 48 + v.length % 2 ^ 48
      else q.d.getD 0 1 + q.d.getD 1 1 * 2 ^ 16 + q.d.getD 2 1 * 2 ^ 32 + q.d.getD 3 1 * 2 ^ 48) := by
  simp only [queryWord, param, b2n_mul, bne_iff_ne, ne_eq, ite_not, toNat_eq_zero_iff, Param.dim]
  split <;> rfl

/-- The word of the hardware's own records (R82, R322). -/
theorem queryWord_own {s : State} {j : Job} (job : s.core.job = some j) {a : BitVec 6} (own : a.toNat ≤ 1)
    (b : BitVec 6) :
    queryWord (s.ownView a.toNat 0) b.toNat = if b = 0 then BitVec.ofNat 64 (2 ^ 57 + a.toNat * 2 ^ 55 +
      0x13 * 2 ^ 48 + (if a = 0 then j.lmBytes else j.cpBytes) % 2 ^ 48) else 0 := by
  have kind : a.toNat % 4 = a.toNat := Nat.mod_eq_of_lt (by omega)
  rw [queryWord_plain rfl]
  simp [State.ownView, job, kind, toNat_eq_zero_iff]

/-- Settles O28: what each handle instruction writes, and for HQUERY the word of the view that its check gives. -/
theorem handleResults : Obligations.HandleResults := by
  unfold Obligations.HandleResults
  intro o s u j c v job i own
  refine ⟨fun ctx listed same => gives_hload rfl job ctx listed same, gives_hdrop o s, fun fixed => ?_,
    fun checked plain => gives_hquery checked (queryWord_plain plain o.b),
    fun q checked param => gives_hquery checked (queryWord_param param o.b)⟩
  exact gives_hquery (if_pos fixed) (queryWord_own job fixed o.b)

end Sys2Proof.Machine
end

section
/-! CTX_END of a number that two contexts have (04 R77; 21 R453; 24 R479). CTX_CREATE gives a context the lowest number
that none has (log 53), but the statement is about every state, and one may list two contexts of one number. CTX_END then
ends the first of the number, whichever function and session created it, and the extents of the tenant that asked keep
their bytes. -/

namespace Sys2Proof.Machine

/-- An empty context of number 1, created through a function over session 1 for a tenant identifier. -/
def contextOne (fn tenant : Nat) : Ctx := ⟨1, fn, 1, tenant, tenant, tenant, 0, 16, [], 0⟩

/-- Two contexts of one number: the first of function 1 and tenant 2, the second of function 0 and tenant 1, which owns
extent 0 with a byte in it. Function 0 asks for the end of that number. -/
def sharedNumber : State :=
  ({ State.reset with
    trust := { State.reset.trust with boot := 3 }
    mem := { State.reset.mem with cells := [(0, 7)] }
    xl := { State.reset.xl with extents := [(0, ⟨1, 0⟩)] }
    work := { State.reset.work with ctxs := [contextOne 1 2, contextOne 0 1] } } : State).upFn 0 (fun n =>
      { n with tdisp := .run, session := 1, mbox := { n.mbox with len := 2, buf := leBytes 2 1 } })

theorem sharedNumber_tenant : Tenant sharedNumber 0 (some 1) :=
  ⟨by decide, by decide +kernel, by decide +kernel, by decide +kernel⟩

/-- The context that function 0 names is the second of the list. -/
theorem sharedNumber_ctxOf : sharedNumber.ctxOf 0 (request sharedNumber 0) = some (contextOne 0 1) := by decide +kernel

theorem sharedNumber_alone (g : Nat) (other : g ≠ 0) : sharedNumber.mailPending g = false := by
  have fresh : sharedNumber.fn g = Fn.reset := by
    rw [sharedNumber, fn_upFn, if_neg other]
    exact fn_of_fresh rfl g
  rw [State.mailPending, fresh]
  rfl

theorem sharedNumber_served : Served sharedNumber 0 0x31 :=
  ⟨by decide +kernel, by decide +kernel, sharedNumber_alone, by decide +kernel, by decide +kernel, by decide +kernel,
    by decide +kernel⟩

/-- The end of context 1 leaves the byte in the extent of tenant 1. -/
theorem sharedNumber_keeps_byte :
    ∃ t, exec (.ctxEnd 0 (some 1)) sharedNumber = .next t ∧ memGet t.mem.cells 0 = 7 := ⟨_, rfl, by decide +kernel⟩

/-- Refutes O51: where an earlier context of another tenant has the same number, CTX_END ends that one, and the extents
of the tenant that asked are not zeroed. -/
theorem not_contextCommands : ¬ Obligations.ContextCommands := by
  unfold Obligations.ContextCommands
  intro h
  obtain ⟨-, commands⟩ := h 0 0 0 (some 1) sharedNumber (contextOne 0 1)
  obtain ⟨-, onContext⟩ := commands sharedNumber_tenant
  obtain ⟨ctxEnd, -⟩ := onContext sharedNumber_ctxOf
  obtain ⟨t, ends, -, -, -, -, zeroed⟩ := ctxEnd sharedNumber_served (by decide +kernel)
  obtain ⟨u, ends', kept⟩ := sharedNumber_keeps_byte
  obtain rfl : t = u := Host.Outcome.next.inj (ends.symm.trans ends')
  have zero : memGet t.mem.cells 0 = 0 := zeroed (0, ⟨1, 0⟩) (by decide +kernel) (by decide) 0 (by decide)
  rw [kept] at zero
  exact absurd zero (by decide)

end Sys2Proof.Machine
end

section
/-! What the check of a handle changes (04 R85), and what an instruction between two regions does on a strand that holds
nothing back (08 R171; 20 R409): the rules of the strand instructions. -/

namespace Sys2Proof.Machine

/-! ### The check of a handle -/

/-- `t` is `s` after a handle or an address was looked up with success: a translation cached, a parameter record asked
for and received, the handle's record cached, and nothing else of the machine. -/
def LooksUp (s t : State) : Prop :=
  ∃ cache links hcache remote kept, t = { s with
    xl := { s.xl with cache := cache }
    links := links
    core := { s.core with hcache := hcache, remote := remote, kept := kept } }

theorem LooksUp.refl (s : State) : LooksUp s s := ⟨_, _, _, _, _, rfl⟩

theorem LooksUp.trans {s t u : State} (first : LooksUp s t) (next : LooksUp t u) : LooksUp s u := by
  obtain ⟨_, _, _, _, _, rfl⟩ := first
  obtain ⟨_, _, _, _, _, rfl⟩ := next
  exact ⟨_, _, _, _, _, rfl⟩

/-- Translation caches are all that a look-up of a page changes (R299). -/
theorem find_caches (s : State) (cl t ta kind : Nat) :
    ∃ cache, (s.find cl t ta kind).2 = { s.xl with cache := cache } := by
  unfold State.find
  dsimp only
  repeat' split
  all_goals exact ⟨_, rfl⟩

theorem translate_looksUp {s t : State} {ten ta kind a : Nat} {need : PageNeed} {info : Word}
    (ok : s.translate ten ta kind need info = .ok (a, t)) : LooksUp s t := by
  obtain ⟨cache, found⟩ := find_caches s (clusterOf s.coreId) ten ta kind
  unfold State.translate at ok
  split at ok
  · next hit =>
    rw [hit] at found
    dsimp only at found
    subst found
    split at ok
    · cases ok
    · split at ok <;> cases ok
      exact ⟨_, _, _, _, _, rfl⟩
  · cases ok

theorem viewPlace_looksUp {s t : State} {v : View} {off a : Nat} {need : PageNeed} {info : Word}
    (ok : s.viewPlace v off need info = .ok (a, t)) : LooksUp s t := by
  unfold State.viewPlace at ok
  split at ok
  · split at ok <;> cases ok
    exact .refl s
  · exact translate_looksUp ok

/-- A response that came with status OK leaves the requests. -/
theorem remoteGet_looksUp {s t : State} {op : HoopOp} {rank addr len : Nat} {bytes bs : List Byte} {info : Word}
    {scalar : Bool} (ok : s.remoteGet op rank addr bytes len info scalar = .ok (bs, t)) : LooksUp s t := by
  unfold State.remoteGet at ok
  split at ok
  · dsimp only at ok
    repeat' split at ok
    all_goals cases ok
  · dsimp only at ok
    repeat' split at ok
    all_goals cases ok
    exact ⟨_, _, _, _, _, rfl⟩

/-- A record found is live, and names no parameter record, or one that was read here or received from another package. -/
theorem fill_looksUp {s t : State} {entry off h opw : Nat} {query : Bool} {c : HCached}
    (ok : s.fill entry off h opw query = .ok (c, t)) : LooksUp s t := by
  unfold State.fill at ok
  dsimp only at ok
  repeat' split at ok
  all_goals cases ok
  · exact .refl s
  · next read =>
    split at read
    · split at read
      · cases read
      · next placed =>
        split at read <;> cases read
        exact translate_looksUp placed
    · exact remoteGet_looksUp read

theorem cacheHandle_looksUp (s : State) (c : HCached) : LooksUp s (s.cacheHandle c) := ⟨_, _, _, _, _, rfl⟩

theorem checkHandle_looksUp {s t : State} {h off opw : Nat} {query : Bool} {v : View}
    (ok : s.checkHandle h off opw query = .ok (v, t)) : LooksUp s t := by
  unfold State.checkHandle at ok
  dsimp only at ok
  split at ok
  · cases ok
    exact .refl s
  · split at ok
    · cases ok
    · cases ok
      exact .refl s
    · cases ok
    · split at ok
      · cases ok
      · next c u got =>
        have cached : LooksUp s u := by
          split at got
          · cases got
            exact .refl s
          · exact fill_looksUp got
        split at ok <;> cases ok
        exact cached.trans (cacheHandle_looksUp u c)

theorem openHandle_looksUp {s t : State} {h off opw : Nat} {need : Right} {v : View}
    (ok : s.openHandle h off need opw = .ok (v, t)) : LooksUp s t ∧ v.off = off := by
  unfold State.openHandle at ok
  split at ok
  · cases ok
  · next checked =>
    split at ok <;> cases ok
    exact ⟨checkHandle_looksUp checked, rfl⟩

/-- The view of an access stores its offset (R85). -/
theorem readHandle_looksUp {s t : State} {h off len opw : Nat} {need : Right} {v : View}
    (ok : s.readHandle h off len need opw = .ok (v, t)) : LooksUp s t ∧ v.off = off := by
  unfold State.readHandle at ok
  split at ok
  · split at ok <;> cases ok
    · next checked => exact ⟨checkHandle_looksUp checked, rfl⟩
    · exact ⟨.refl s, rfl⟩
  · split at ok
    · cases ok
    · next opened =>
      split at ok <;> cases ok
      exact openHandle_looksUp opened

/-! ### What a look-up leaves -/

theorem LooksUp.settled {s t : State} (looks : LooksUp s t) (h : s.settled) : t.settled := by
  obtain ⟨_, _, _, _, _, rfl⟩ := looks
  exact h

theorem LooksUp.core_eq {s t : State} (looks : LooksUp s t) :
    t.core = { s.core with hcache := t.core.hcache, remote := t.core.remote, kept := t.core.kept } := by
  obtain ⟨_, _, _, _, _, rfl⟩ := looks
  rfl

theorem LooksUp.job {s t : State} (looks : LooksUp s t) : t.core.job = s.core.job := by rw [looks.core_eq]

theorem LooksUp.queued {s t : State} (looks : LooksUp s t) : t.core.queued = s.core.queued := by
  rw [looks.core_eq]
  rfl

theorem LooksUp.goodAt {s t : State} {a n : Nat} (looks : LooksUp s t) (h : s.goodAt a n) : t.goodAt a n := by
  obtain ⟨_, _, _, _, _, rfl⟩ := looks
  exact h

/-! ### Between two regions -/

/-- The state in which an instruction between two regions acts, of a strand without buffered stores (R171). -/
abbrev State.leftRegion (s : State) : State := s.upCore (fun c => c.emptied.shut)

theorem LooksUp.leftRegion {s t : State} (looks : LooksUp s t) : LooksUp s.leftRegion t.leftRegion := by
  obtain ⟨_, _, _, _, _, rfl⟩ := looks
  exact ⟨_, _, _, _, _, rfl⟩

/-- The end of a region keeps what a strand translates through: its tenant and its core. -/
theorem translate_leftRegion {s t : State} {ten ta kind a : Nat} {need : PageNeed} {info : Word}
    (ok : s.translate ten ta kind need info = .ok (a, t)) :
    s.leftRegion.translate ten ta kind need info = .ok (a, t.leftRegion) := by
  have same : s.leftRegion.find (clusterOf s.leftRegion.coreId) ten ta kind =
    s.find (clusterOf s.coreId) ten ta kind := rfl
  unfold State.translate at ok ⊢
  rw [same]
  split at ok
  · split at ok
    · cases ok
    · next unlocked =>
      rw [if_neg (show ¬(s.leftRegion.servesRemote && _) = true from unlocked)]
      split at ok <;> cases ok
      next granted =>
        simp only [State.upCore_xl, granted]
        rfl
  · cases ok

theorem viewPlace_leftRegion {s t : State} {v : View} {off a : Nat} {need : PageNeed} {info : Word}
    (ok : s.viewPlace v off need info = .ok (a, t)) :
    s.leftRegion.viewPlace v off need info = .ok (a, t.leftRegion) := by
  unfold State.viewPlace at ok ⊢
  split at ok
  · next shared =>
    rw [if_pos shared]
    split at ok <;> cases ok
    next joined => exact if_neg joined
  · next shared =>
    rw [if_neg shared]
    exact translate_leftRegion ok

/-- A region starts at `t`, of the number after that of `s`. -/
theorem nextRegion_openRegion {s t : State} (number : t.core.rseq = s.core.rseq) (drained : t.core.sbuf = []) :
    NextRegion s (t.upCore Core.openRegion) :=
  ⟨congrArg (· + 1) number, rfl, rfl, rfl, rfl, drained⟩

theorem nextRegion_reopen {s t : State} (again : Bool) (number : t.core.rseq = s.core.rseq) (drained : t.core.sbuf = []) :
    NextRegion s (t.upCore (fun c => c.reopen again)) :=
  ⟨congrArg (· + 1) number, rfl, rfl, rfl, rfl, drained⟩

/-- An instruction between two regions completes where it acts with success, and the next region starts after it. -/
theorem gives_between {i : Instr} {s u t : State} {act : State → Res State} {p : State → Prop}
    (arm : exec i s = retire (u.between act)) (held : u.settled) (acts : act u.leftRegion = .ok t)
    (hp : p (t.upCore (fun c => c.reopen u.core.closed))) : Gives i s p := by
  refine ⟨_, ?_, hp⟩
  rw [arm, between_nil u act held.1, acts]
  rfl

/-- No command of the engines is outstanding (R171). -/
theorem waitOwn_ok {s : State} (idle : s.core.queued = []) : s.waitOwn = .ok s := by
  rw [State.waitOwn, Core.drained, idle]
  rfl

/-- A strand that is not stop pending passes its stop points (R460). -/
theorem atStopPoint_passes {s : State} (going : s.core.stopPending = false) (r : Res State) :
    s.atStopPoint r = retire r := by
  rw [State.atStopPoint, State.stopsBefore, going]
  rfl

end Sys2Proof.Machine
end

section
/-! SUSPEND and WATCH (06 R115, R116, R119; 08 R171 to R173): the strand leaves its core, its record in the pool. -/

namespace Sys2Proof.Machine

/-! ### Leaving the core -/

/-- A strand that left its core may end a pre-emption of its gang; of the machine, launches alone change (R114). -/
theorem gangLeft_launches (s : State) (l : Nat) :
    ∃ launches, s.gangLeft l = { s with work := { s.work with launches := launches } } := by
  unfold State.gangLeft State.gangSaved
  repeat' split
  all_goals exact ⟨_, rfl⟩

/-- Shares zeroed keep the watch lists. -/
theorem wipes_watchers (shares : List Share) (m : Mem) :
    (shares.foldl (fun m h => m.wipe (lmPlace h.core h.off) h.len) m).watchers = m.watchers := by
  induction shares generalizing m with
  | nil => rfl
  | cons h l ih => exact ih _

/-- A parked strand: its record is last in the pool, its core is idle, and the watch lists stay (R116). -/
theorem park_keeps (s : State) (j : Job) (r : Rec) :
    (s.park j r).work.pool = s.work.pool ++ [r] ∧ (s.park j r).core = s.core.idle ∧
      (s.park j r).mem.watchers = s.mem.watchers := by
  unfold State.park
  dsimp only
  obtain ⟨launches, left⟩ := gangLeft_launches
    (({ s with work := { s.work with pool := s.work.pool ++ [r] } } : State).upCore Core.idle) j.launch
  rw [left]
  split
  · exact ⟨rfl, rfl, rfl⟩
  · exact ⟨rfl, rfl, wipes_watchers _ _⟩

/-- SUSPEND of a strand that holds nothing back and has nothing outstanding (R172). -/
theorem suspend_parks {s : State} {j : Job} (held : s.settled) (idle : s.core.queued = []) (job : s.core.job = some j)
    (sc : Nat) (y : Bool) :
    s.suspend sc y = .ok (s.leftRegion.park j (s.record j (s.core.pc + 4) sc y .ready)) := by
  simp only [State.suspend, job, waitOwn_ok idle, closing_nil s _ held.1,
    impliedRelease_settled _ (emptied_shut_settled s held)]
  rfl

/-- Whether a strand joins the watch list (R119): the word is as expected, and its bank has a place that no watcher
still unhit takes. -/
theorem joins_iff (s : State) (a : Nat) (e : Word) :
    s.joins a e = true ↔ leNat (memRead s.mem.cells a 8) = e.toNat ∧
      (s.mem.watchers.filter (fun w => (w.word - bmBase) / 2 ^ 23 == (a - bmBase) / 2 ^ 23 && !w.hit)).length < 64 := by
  rw [State.joins, Bool.and_eq_true, beq_iff_eq, decide_eq_true_eq]
  rfl

/-- The state after a strand parked as a watcher. -/
def State.parkWatching (s : State) (j : Job) (r : Rec) (w : Watcher) : State :=
  { s.park j r with mem := { (s.park j r).mem with watchers := (s.park j r).mem.watchers ++ [w] } }

/-- WATCH between its regions, its word placed and good (R173). -/
theorem watchAct_found {s x : State} {j : Job} {v : View} {a off : Nat} {info : Word} (held : s.settled)
    (offset : v.off = off) (placed : s.viewPlace v off 1 info = .ok (a, x)) (good : x.goodAt a 8)
    (e : Word) (sc len : Nat) :
    s.watchAct j v e sc len info = .ok (if x.joins a e
      then x.parkWatching j (x.record j (x.core.pc + BitVec.ofNat 48 (4 * len)) sc false .watching)
        ⟨a, j.strand, v.entry.getD 0, false⟩
      else (x.passStop.advance len).upCore Core.openRegion) := by
  obtain ⟨lines, still⟩ := good
  simp only [State.watchAct, impliedRelease_settled s held, offset, placed, ordRead_good still lines]
  split <;> rfl

/-- WATCH of a word of this package's BM that its handle admits acts between two regions (R173). -/
theorem watch_found {s u : State} {o : OpA} {j : Job} {v : View} {r : Res State} {sc : Nat}
    (viewed : s.readHandle o.d.toNat (s.opB o).toNat 8 .rd 0 = .ok (v, u)) (here : v.local_ = true) (bank : v.kind = 2)
    (aligned : (s.opB o).toNat % 8 = 0) (held : u.settled) (idle : u.core.queued = []) (job : u.core.job = some j)
    (acts : u.leftRegion.watchAct j v (u.opA o) sc o.len (accessInfo (s.opB o).toNat 0 o.d.toNat) = r) :
    s.watch sc o = r := by
  have bm : ¬(v.kind ≠ 2 ∨ v.local_ = false) := by simp [bank, here]
  simp only [State.watch, viewed, if_neg bm, if_neg (not_not_intro aligned), job, waitOwn_ok idle, closing_nil u _ held.1]
  exact acts

/-! ### The two instructions -/

/-- WATCH of a word of this package's BM that is good and aligned (R173): the strand parks as a watcher, or passes. -/
theorem exec_watch {sc : BitVec 2} {o : OpA} {s u x : State} {j : Job} {v : View} {a : Nat} (held : s.settled)
    (idle : s.core.queued = []) (going : s.core.stopPending = false) (job : s.core.job = some j)
    (found : s.finds o.d.toNat (s.opB o).toNat 8 .rd v a u x) (bank : v.kind = 2) (aligned : (s.opB o).toNat % 8 = 0)
    (good : s.goodAt a 8) :
    exec (.watch sc o) s = .next (if s.joins a (s.opA o)
      then x.leftRegion.parkWatching j
        (s.record j (s.core.pc + BitVec.ofNat 48 (4 * o.len)) sc.toNat false .watching)
        ⟨a, j.strand, v.entry.getD 0, false⟩
      else (x.leftRegion.passStop.advance o.len).upCore Core.openRegion) := by
  obtain ⟨viewed, here, placed⟩ := found
  obtain ⟨looks, offset⟩ := readHandle_looksUp viewed
  have walks := viewPlace_looksUp placed
  have acts := watchAct_found (j := j) (emptied_shut_settled u (looks.settled held)) offset
    (viewPlace_leftRegion placed) ((looks.trans walks).leftRegion.goodAt good) (u.opA o) sc.toNat o.len
  have watched := watch_found viewed here bank aligned (looks.settled held) (looks.queued.trans idle)
    (looks.job.trans job) acts
  refine (atStopPoint_passes going _).trans ((congrArg retire watched).trans ?_)
  obtain ⟨_, _, _, _, _, rfl⟩ := looks
  obtain ⟨_, _, _, _, _, rfl⟩ := walks
  rfl

/-- Settles O32: SUSPEND, and WATCH while the strand joins the watch list, park the strand's record; WATCH otherwise starts
the next region. What a look-up changes is nothing that the record, the pool or the watch list is made of. -/
theorem suspendResults : Obligations.SuspendResults := by
  unfold Obligations.SuspendResults
  intro sc o s u x j v a held idle going job off rec_
  have recorded (n : Nat) (y : Bool) (st : RecState) :
      rec_ (s.record j (s.core.pc + BitVec.ofNat 48 (4 * n)) sc.toNat y st) n y st :=
    ⟨rfl, rfl, rfl, rfl, rfl, rfl, rfl, rfl, rfl, rfl, rfl, rfl, rfl, rfl, rfl, rfl⟩
  have suspends (y : Bool) : ∃ t, s.atStopPoint (s.suspend sc.toNat y) = .next t ∧
      (∃ r, t.work.pool = s.work.pool ++ [r] ∧ rec_ r 1 y .ready) ∧ t.core.job = none ∧ t.core.live = Regs.reset := by
    obtain ⟨pool, core, -⟩ := park_keeps s.leftRegion j (s.record j (s.core.pc + 4) sc.toNat y .ready)
    exact ⟨_, (atStopPoint_passes going _).trans (congrArg retire (suspend_parks held idle job sc.toNat y)),
      ⟨_, pool, recorded 1 y .ready⟩, congrArg Core.job core, congrArg Core.live core⟩
  refine ⟨?_, fun found bank aligned good => ?_⟩
  · simp only [List.forall_mem_cons, List.not_mem_nil, false_implies, implies_true, and_true]
    exact ⟨suspends false, suspends true⟩
  · have watch := exec_watch (sc := sc) held idle going job found bank aligned good
    have joins := joins_iff s a (s.opA o)
    obtain ⟨viewed, -, placed⟩ := found
    obtain ⟨_, _, _, _, _, rfl⟩ := (readHandle_looksUp viewed).1.trans (viewPlace_looksUp placed)
    refine ⟨fun same => ⟨_, watch, ?_⟩, fun differs => ⟨_, watch, ?_⟩⟩
    · rw [if_pos (joins.mpr same)]
      obtain ⟨pool, core, watchers⟩ := park_keeps _ j
        (s.record j (s.core.pc + BitVec.ofNat 48 (4 * o.len)) sc.toNat false .watching)
      exact ⟨⟨_, pool, recorded o.len false .watching⟩, congrArg Core.job core, congrArg (· ++ _) watchers⟩
    · rw [if_neg (mt joins.mp differs)]
      exact ⟨rfl, rfl, rfl, nextRegion_openRegion rfl rfl⟩

end Sys2Proof.Machine
end

section
/-! SPAWN, LAUNCH, SPLITCHK and SSTEP (06 R121, R123, R125; 08 R174 to R177). -/

namespace Sys2Proof.Machine

/-! ### SPAWN -/

/-- A register written by an instruction between two regions of `s`. -/
theorem regSet_setS {s t : State} (core : t.core = s.core.emptied.shut) (d : Nat) (v : Word) :
    RegSet s (t.setS d v) d v := by
  unfold RegSet State.setS
  split
  · next zero =>
    rw [core]
    exact ⟨fun p => (if_neg fun named => named.1 zero).symm, rfl⟩
  · next named =>
    simp only [State.upRegs_core, core, getD_upd]
    exact ⟨fun p => ite_congr (propext (and_iff_right named).symm) (fun _ => rfl) fun _ => rfl, rfl⟩

/-- `t` is `s` after a call of `n` words that gave `v` in register `d`: the next region starts after it, and no other
register changed. -/
def Returned (s t : State) (d : Nat) (v : Word) (n : Nat) : Prop :=
  (t.core.pc = s.core.pc + BitVec.ofNat 48 (4 * n) ∧ NextRegion s t) ∧ RegSet s t d v

theorem returned_setS {s t : State} (core : t.core = s.core.emptied.shut) (d : Nat) (v : Word) (n : Nat) (again : Bool) :
    Returned s (((t.setS d v).advance n).upCore (fun c => c.reopen again)) d v n := by
  have pc : (t.setS d v).core.pc = s.core.pc := by rw [State.setS_core_pc, core]; rfl
  have number : (t.setS d v).core.rseq = s.core.rseq := by rw [State.setS_core_rseq, core]; rfl
  have drained : (t.setS d v).core.sbuf = [] := by rw [State.setS_core_sbuf, core]; rfl
  exact ⟨⟨congrArg (· + _) pc, nextRegion_reopen again number drained⟩, regSet_setS core d v⟩

/-- What a call looked up before it acted is none of what it says it changed. -/
theorem LooksUp.returned {s u t : State} {d n : Nat} {v : Word} (looks : LooksUp s u) (h : Returned u t d v n) :
    Returned s t d v n := by
  obtain ⟨_, _, _, _, _, rfl⟩ := looks
  exact h

theorem LooksUp.work {s t : State} (looks : LooksUp s t) : t.work = s.work := by
  obtain ⟨_, _, _, _, _, rfl⟩ := looks
  rfl

/-- Unprivileged, a target that is none of the launch's code fails R164. -/
theorem launchTarget_bad {s : State} {n : Nat} (user : s.core.priv = false) (short : s.codeLength ≤ 2 ^ 48)
    (bad : ¬TargetGood s n) : targetOk s.launchCodeLength n = false := by
  have code : s.codeLength = s.launchCodeLength := by simp [State.codeLength, user]
  rw [← code, Bool.eq_false_iff]
  intro ok
  simp only [targetOk, Bool.and_eq_true, beq_iff_eq, decide_eq_true_eq] at ok
  exact bad ⟨by omega, by omega, by omega, by omega⟩

theorem launchTarget_ok {s : State} {j : Job} {n : Nat} (job : s.core.job = some j)
    (good : TargetIn j.code.length n) : targetOk s.launchCodeLength n = true := by
  obtain ⟨-, word, inside, -⟩ := good
  simp only [targetOk, State.launchCodeLength, job, Bool.and_eq_true, beq_iff_eq, decide_eq_true_eq]
  omega

/-- SPAWN at an entry that is none of the launch's code (R129, R174). -/
theorem spawn_refusesTarget (o : OpA) (s : State) : RefusesTarget s (.spawn o) (s.opB o).toNat := by
  intro short bad vec ready
  refine gives_fault (c := 2) ready ?_
  show execSpawn o s = _
  rw [execSpawn, launchTarget_bad ready.1 short bad]
  rfl

/-- SPAWN at an entry of the launch's code gives in register `d` what it gives between two regions (R174). -/
theorem gives_spawn {o : OpA} {s t : State} {j : Job} {w : Word} (held : s.settled) (job : s.core.job = some j)
    (good : TargetIn j.code.length (s.opB o).toNat)
    (acts : s.leftRegion.spawnAct j (s.opB o).toNat o.a.toNat o.d.toNat = .ok (t.setS o.d.toNat w))
    (core : t.core = s.core.emptied.shut) :
    Gives (.spawn o) s (fun x => Returned s x o.d.toNat w o.len ∧ x.work = t.work) := by
  refine gives_between (u := s) (t := (t.setS o.d.toNat w).advance o.len) (act := ?act) ?arm held ?acts
    ⟨returned_setS core o.d.toNat w o.len s.core.closed, State.setS_work _ _ _⟩
  case arm =>
    show execSpawn o s = _
    rw [execSpawn, launchTarget_ok job good]
    rfl
  case acts =>
    have same : s.leftRegion.core.job = some j := job
    simp only [same, acts]

/-- The state after a spawned strand entered the pool and was counted by its launch (R121). -/
def State.spawnedInto (s : State) (j : Job) (r : Rec) : State :=
  ({ s with work := { s.work with pool := s.work.pool ++ [r], nextStrand := s.work.nextStrand + 1 } } : State).upLaunch
    j.launch (fun l => { l with
      live := l.live + 1, groupLeft := countUp l.groupLeft j.group, spawned := l.spawned ++ [r.strand] })

/-- The end of a region changes neither which cores run a strand nor the pool. -/
theorem spawnRoom_leftRegion (s : State) : s.leftRegion.spawnRoom = s.spawnRoom := by
  have runs (n : Nat) : (s.leftRegion.coreAt n).job = (s.coreAt n).job := by
    unfold State.coreAt
    by_cases acting : n = s.coreId
    · rw [if_pos acting, if_pos (show n = s.leftRegion.coreId from acting)]
      rfl
    · rw [if_neg acting, if_neg (show ¬n = s.leftRegion.coreId from acting)]
      rfl
  simp only [State.spawnRoom, State.runningIn, runs]
  rfl

theorem spawnAct_room {s : State} (held : s.settled) (room : s.spawnRoom = true) (j : Job) (entry a d : Nat) :
    s.spawnAct j entry a d = .ok ((s.spawnedInto j (s.spawned j entry a)).setS d 1) := by
  simp only [State.spawnAct, impliedRelease_settled s held, room, if_true]
  rfl

theorem spawnAct_crowded {s : State} (held : s.settled) (crowded : s.spawnRoom = false) (j : Job) (entry a d : Nat) :
    s.spawnAct j entry a d = .ok (s.setS d 0) := by
  simp only [State.spawnAct, impliedRelease_settled s held, crowded, Bool.false_eq_true, if_false]

/-! ### LAUNCH -/

theorem marked_keeps (s : State) (line : Option Nat) : (s.marked line).core = s.core ∧ (s.marked line).work = s.work := by
  cases line <;> exact ⟨rfl, rfl⟩

/-- The header's CTL byte read, only memory's marks and the error log may change (R104, R313, R444). -/
theorem readPrio_keeps (s : State) (place : Option (Ctx × Nat × Nat)) :
    (s.readPrio place).2.core = s.core ∧ (s.readPrio place).2.work = s.work := by
  unfold State.readPrio
  split
  · exact ⟨rfl, rfl⟩
  · split
    · exact ⟨rfl, rfl⟩
    · exact marked_keeps s _
    · dsimp only
      split <;> exact ⟨rfl, rfl⟩

/-- The entries of a function's queue (R101). -/
def State.queueOf (s : State) (fn : Nat) : List Queued := (lookup s.work.queues fn).getD []

theorem queueOf_congr {s t : State} (work : t.work = s.work) (fn : Nat) : t.queueOf fn = s.queueOf fn := by
  rw [State.queueOf, State.queueOf, work]

/-- A full queue refuses a device-side launch with QUEUE_FULL (R102). -/
theorem enqueueDevice_full {s : State} {j : Job} (full : 64 ≤ (s.queueOf j.fn).length) (v : View) :
    s.enqueueDevice j v = (0x47, s) := if_pos full

/-- With room, a device-side launch is its function's last entry (R102, R175). -/
theorem enqueueDevice_room {s : State} {j : Job} (room : (s.queueOf j.fn).length < 64) (v : View) :
    ∃ q t, s.enqueueDevice j v = (0, t) ∧ t.core = s.core ∧ t.queueOf j.fn = s.queueOf j.fn ++ [q] ∧
      q.ctx = j.ctx ∧ q.device = true ∧ q.hentry = v.entry.getD 0 ∧ q.hoff = v.off := by
  unfold State.enqueueDevice
  dsimp only
  rw [if_neg (show ¬queueSize ≤ ((lookup s.work.queues j.fn).getD []).length from Nat.not_le.mpr room)]
  have keeps := readPrio_keeps s
    (if v.local_ ∧ 2 ≤ v.kind then (s.ctx? j.ctx).map (fun c => (c, v.kind, v.base + v.off)) else none)
  exact ⟨_, _, rfl, keeps.1, congrArg (Option.getD · []) (lookup_insertKey_self _ _ _), rfl, rfl, rfl, rfl⟩

/-- LAUNCH of a header it may view, its commands complete, gives in register `d` what the queue answers (R175). -/
theorem gives_launch {o : OpA} {s u t : State} {j : Job} {v : View} {w : Word}
    (viewed : s.readHandle o.a.toNat (s.opB o).toNat 256 .rd 0 = .ok (v, u)) (held : s.settled)
    (idle : s.core.queued = []) (job : s.core.job = some j) (enters : u.leftRegion.enqueueDevice j v = (w, t))
    (core : t.core = u.core.emptied.shut) :
    Gives (.launch o) s (fun x => Returned s x o.d.toNat w o.len ∧ x.work = t.work) := by
  obtain ⟨looks, -⟩ := readHandle_looksUp viewed
  have settled := looks.settled held
  refine gives_between (u := u) (t := (t.setS o.d.toNat w).advance o.len) (act := ?act) ?arm settled ?acts
    ⟨looks.returned (returned_setS core o.d.toNat w o.len u.core.closed), State.setS_work _ _ _⟩
  case arm =>
    show execLaunch o s = _
    simp only [execLaunch, viewed, waitOwn_ok (looks.queued.trans idle)]
    rfl
  case acts =>
    have same : u.leftRegion.core.job = some j := looks.job.trans job
    simp only [same, State.launchAct, impliedRelease_settled _ (emptied_shut_settled u settled), enters]

/-! ### SPLITCHK -/

theorem splitAct_left {s : State} (owner : s.core.thief = false) (left : s.core.live.rnglo < s.core.live.rnghi)
    (unasked : s.core.heldSteals = []) (j : Job) : s.splitAct j = .ok s := by
  simp only [State.splitAct, owner, Bool.false_eq_true, if_false, if_neg (BitVec.not_le.mpr left), unasked]

theorem splitAct_granted {s : State} {lo hi : Word} (thief : s.core.thief = true)
    (back : s.core.stealReturned = true) (grant : s.core.grant = some (lo, hi)) (j : Job) :
    s.splitAct j = .ok (s.thiefBack.upRegs (fun g => { g with rnglo := lo, rnghi := hi })) := by
  simp only [State.splitAct, thief, back, if_true, grant]

/-- SPLITCHK acts between two regions: nothing outside a ranged launch, SplitChk in one (R123, R176). -/
theorem gives_splitchk {o : OpA} {s t : State} {j : Job} {p : State → Prop} (held : s.settled)
    (job : s.core.job = some j)
    (acts : j.mode ≠ 2 ∧ t = s.leftRegion ∨ j.mode = 2 ∧ s.leftRegion.splitAct j = .ok t)
    (hp : p ((t.advance 1).upCore (fun c => c.reopen s.core.closed))) : Gives (.splitchk o) s p := by
  refine gives_between (u := s) (t := t.advance 1) (act := ?act) ?arm held ?acts hp
  case arm => exact rfl
  case acts =>
    have same : s.leftRegion.core.job = some j := job
    obtain ⟨unranged, rfl⟩ | ⟨ranged, ok⟩ := acts
    · simp only [same, if_pos unranged]
    · simp only [same, if_neg (not_not_intro ranged), ok, thenNext]

/-! ### SSTEP -/

/-- At a barrier that has opened, SSTEP leaves it (R125). -/
theorem stepAct_opened {s : State} {j : Job} (held : s.settled) (arrived : s.core.atBarrier = true)
    (opened : ∀ l, s.launch? j.launch = some l → j.strand ∉ l.arrived) :
    s.stepAct j = .ok (s.upCore (fun c => { c with atBarrier := false })) := by
  obtain ⟨-, lines, -, -⟩ := held
  simp only [State.stepAct, arrived, if_true, dropLines_nil s _ 0 lines]
  cases found : s.launch? j.launch with
  | none => rfl
  | some l => simp only [List.contains_eq_mem, opened l found, decide_false, Bool.false_eq_true, if_false]

/-- SSTEP acts between two regions (R125, R177). -/
theorem gives_sstep {o : OpA} {s t : State} {j : Job} {p : State → Prop} (held : s.settled)
    (idle : s.core.queued = []) (going : s.core.stopPending = false) (job : s.core.job = some j)
    (acts : j.mode ≠ 1 ∧ t = s.leftRegion ∨ j.mode = 1 ∧ s.leftRegion.stepAct j = .ok t)
    (hp : p ((t.passStop.advance 1).upCore (fun c => c.reopen s.core.closed))) : Gives (.sstep o) s p := by
  refine gives_between (u := s) (t := t.passStop.advance 1) (act := ?act) ?arm held ?acts hp
  case arm =>
    refine (atStopPoint_passes going _).trans ?_
    rw [State.superstep, waitOwn_ok idle]
  case acts =>
    have same : s.leftRegion.core.job = some j := job
    obtain ⟨unstepped, rfl⟩ | ⟨stepped, ok⟩ := acts
    · simp only [same, if_neg unstepped, impliedRelease_settled _ (emptied_shut_settled s held)]
    · simp only [same, if_pos stepped, ok]

/-- Settles O33: each call is what it does between two regions, and then the next region. -/
theorem strandCalls : Obligations.StrandCalls := by
  unfold Obligations.StrandCalls
  intro o s u j v held job next queue
  have left := emptied_shut_settled s held
  refine ⟨spawn_refusesTarget o s, fun good => ⟨fun room => ?_, fun crowded => ?_⟩, fun idle viewed => ?_,
    fun owner => ?_, fun lo hi ranged thief back grant => ?_, fun idle going through => ?_⟩
  · obtain ⟨t, ok, ⟨starts, gives⟩, work⟩ :=
      gives_spawn held job good (spawnAct_room left ((spawnRoom_leftRegion s).trans room) j _ _ _) rfl
    exact ⟨t, ok, starts, gives, _, congrArg Work.pool work, rfl, rfl, rfl, rfl, rfl, rfl, rfl, rfl, rfl⟩
  · obtain ⟨t, ok, ⟨starts, gives⟩, work⟩ :=
      gives_spawn held job good (spawnAct_crowded left ((spawnRoom_leftRegion s).trans crowded) j _ _ _) rfl
    exact ⟨t, ok, starts, gives, work⟩
  · obtain ⟨looks, offset⟩ := readHandle_looksUp viewed
    have same : u.leftRegion.queueOf j.fn = s.queueOf j.fn := queueOf_congr looks.work j.fn
    refine ⟨fun room => ?_, fun full => ?_⟩
    · obtain ⟨q, t', enters, core, queued, ctx, device, hentry, hoff⟩ :=
        enqueueDevice_room (s := u.leftRegion) (j := j) (by rw [same]; exact room) v
      obtain ⟨t, ok, ⟨starts, gives⟩, work⟩ := gives_launch viewed held idle job enters core
      have last : t.queueOf j.fn = s.queueOf j.fn ++ [q] := by rw [queueOf_congr work, queued, same]
      exact ⟨t, ok, starts, gives, q, last, ctx, device, hentry, hoff.trans offset⟩
    · have enters := enqueueDevice_full (s := u.leftRegion) (j := j) (by rw [same]; exact full) v
      obtain ⟨t, ok, ⟨starts, gives⟩, work⟩ := gives_launch viewed held idle job enters rfl
      exact ⟨t, ok, starts, gives, (queueOf_congr work j.fn).trans same⟩
  · refine gives_splitchk (t := s.leftRegion) held job ?_ ⟨rfl, rfl, nextRegion_reopen _ rfl rfl⟩
    by_cases ranged : j.mode = 2
    · obtain ⟨own, some_, unasked⟩ := owner.resolve_left (not_not_intro ranged)
      exact .inr ⟨ranged, splitAct_left (s := s.leftRegion) own some_ unasked j⟩
    · exact .inl ⟨ranged, rfl⟩
  · exact gives_splitchk held job (.inr ⟨ranged, splitAct_granted (s := s.leftRegion) thief back grant j⟩)
      ⟨rfl, rfl, rfl, nextRegion_reopen _ rfl rfl⟩
  · by_cases stepped : j.mode = 1
    · obtain ⟨arrived, opened⟩ := through.resolve_left (not_not_intro stepped)
      exact gives_sstep held idle going job (.inr ⟨stepped, stepAct_opened left arrived opened⟩)
        ⟨rfl, rfl, nextRegion_reopen _ rfl rfl⟩
    · exact gives_sstep held idle going job (.inl ⟨stepped, rfl⟩) ⟨rfl, rfl, nextRegion_reopen _ rfl rfl⟩

end Sys2Proof.Machine
end

section
/-! Every well-formed instruction word read back from its encoding (07 R137 to R146; 10 R239; 11 R274; 13 R333; 15
R381): one lemma for each format says that the words put together are read as they were, and each instruction is a row
of its format. -/

namespace Sys2Proof

open Machine

/-! ### The decode order -/

/-- Steps 1 to 4 of the decode order give the instruction and its length from its own words (R146). -/
def ReadsBack (i : Instr) : Prop := readWords (encode i) = .ok i (encode i).length

/-- Steps 5 to 8 let a well-formed instruction through (R146). -/
theorem decode_of_readsBack {lim : Limits} {i : Instr} (wf : i.wfAt lim = true) (h : ReadsBack i) :
    decode lim (encode i) = .ok i (encode i).length := by
  rw [ReadsBack] at h
  simp only [decode, h, firstFailure_none _ wf]

theorem Checks.all_iff (k : Checks) : k.all = true ↔ k.reservedOk = true ∧ k.fieldOk = true ∧ k.literalOk = true ∧
    k.registerOk = true ∧ k.litCanon = true := by
  simp only [Checks.all, Bool.and_eq_true, and_assoc]

theorem Checks.all_and {k l : Checks} (h : (k.and l).all = true) : k.all = true ∧ l.all = true := by
  simp only [Checks.all_iff, Checks.and, Bool.and_eq_true] at h ⊢
  obtain ⟨⟨res, res'⟩, ⟨field, field'⟩, ⟨lit, lit'⟩, ⟨reg, reg'⟩, canon, canon'⟩ := h
  exact ⟨⟨res, field, lit, reg, canon⟩, res', field', lit', reg', canon'⟩

/-! ### Format A -/

/-- Of a well-formed format A instruction, what its checks say of its function code and of its literal (R138, R139). -/
theorem ckA_all {lim : Limits} {o : OpA} {kd ka kb : AField} {f : Bool} (wf : (ckA lim o kd ka kb f).all = true) :
    f = true ∧ (if kb.litCapable then litCanon o.b o.lit else o.lit == 0) = true := by
  obtain ⟨-, wf⟩ := Checks.all_and wf
  obtain ⟨-, wf⟩ := Checks.all_and wf
  obtain ⟨-, wf⟩ := Checks.all_and wf
  obtain ⟨-, field, -, -, canon⟩ := (Checks.all_iff _).mp wf
  exact ⟨field, canon⟩

theorem ckA_fieldOk {lim : Limits} {o : OpA} {kd ka kb : AField} {f : Bool} (wf : (ckA lim o kd ka kb f).all = true) :
    f = true := by
  obtain ⟨field, -⟩ := ckA_all wf
  exact field

theorem readWords_a {maj : BitVec 6} (form : majorForm maj.toNat = .a) (fn : BitVec 8) (o : OpA) (ws : List W32) :
    readWords ((maj ++ o.d ++ o.a ++ o.b ++ fn) :: ws) = readA (maj ++ o.d ++ o.a ++ o.b ++ fn) ws := by
  simp only [readWords, major_a, form]

/-- A format A instruction whose field b takes a literal; `j` is what its first word alone names. -/
theorem readsBack_lit {lim : Limits} {kd ka kb : AField} {f : Bool} {maj : BitVec 6} {fn : BitVec 8} {o : OpA}
    {i j : Instr} (wf : (ckA lim o kd ka kb f).all = true) (capable : kb.litCapable = true)
    (code : encode i = mkAL maj fn o) (form : majorForm maj.toNat = .a) (named : mkInstrA maj.toNat fn o = some i)
    (bare : mkInstrA maj.toNat fn ⟨o.d, o.a, o.b, 0⟩ = some j) (lit : litA j = true) : ReadsBack i := by
  obtain ⟨-, canon⟩ := ckA_all wf
  rw [if_pos capable] at canon
  rw [ReadsBack, code, mkAL, readWords_a form, readA_mk maj fn o j i bare lit named canon, List.length_cons,
    Nat.add_comm]

/-- A format A instruction without a literal. -/
theorem readsBack_plain {lim : Limits} {kd ka kb : AField} {f : Bool} {maj : BitVec 6} {fn : BitVec 8} {o : OpA}
    {i : Instr} (wf : (ckA lim o kd ka kb f).all = true) (capable : kb.litCapable = false)
    (code : encode i = mkA maj fn o) (form : majorForm maj.toNat = .a) (named : mkInstrA maj.toNat fn o = some i)
    (lit : litA i = false) : ReadsBack i := by
  obtain ⟨-, canon⟩ := ckA_all wf
  rw [if_neg (Bool.eq_false_iff.mp capable), beq_iff_eq] at canon
  have bare : mkInstrA maj.toNat fn ⟨o.d, o.a, o.b, 0⟩ = some i := by rw [← canon]; exact named
  rw [ReadsBack, code, mkA, readWords_a form, readA_plain maj fn o i bare lit]
  rfl

/-! Function codes that hold an operand -/

/-- The floating instructions hold their mode above their code (R161). -/
theorem mkInstrA_float {maj : Nat} (float : maj = 8 ∨ maj = 9) (m : BitVec 3) (f : BitVec 5) (o : OpA) :
    mkInstrA maj (m ++ f) o = codeF maj f.toNat m o := by
  have code : (m ++ f : BitVec 8).extractLsb' 0 5 = f := by
    rw [extract_low m f 0 5 (by decide), extract_all f 0 rfl]
  have mode : (m ++ f : BitVec 8).extractLsb' 5 3 = m := by
    rw [extract_high m f 5 3 (by decide), extract_all m _ rfl]
  rw [mkInstrA, if_pos float, code, mode]

theorem threeBits_cases (x : BitVec 3) : x = 0 ∨ x = 1 ∨ x = 2 ∨ x = 3 ∨ x = 4 ∨ x = 5 ∨ x = 6 ∨ x = 7 := by
  revert x; decide

theorem twoBits_cases (x : BitVec 2) : x = 0 ∨ x = 1 ∨ x = 2 ∨ x = 3 := by
  revert x; decide

theorem mkInstrA_sel (q : BitVec 3) (o : OpA) : mkInstrA 0xD (1#5 ++ q) o = some (.sel q o) := by
  rcases threeBits_cases q with rfl | rfl | rfl | rfl | rfl | rfl | rfl | rfl <;> rfl

theorem mkInstrA_guard (sc : BitVec 3) (o : OpA) :
    mkInstrA 0x1E (0#5 ++ sc) o = some (.acq sc o) ∧ mkInstrA 0x1E (2#5 ++ sc) o = some (.rel sc o) ∧
    mkInstrA 0x1E (4#5 ++ sc) o = some (.relK sc o) ∧ mkInstrA 0x1E (6#5 ++ sc) o = some (.fence sc o) := by
  rcases threeBits_cases sc with rfl | rfl | rfl | rfl | rfl | rfl | rfl | rfl <;> exact ⟨rfl, rfl, rfl, rfl⟩

theorem mkInstrA_suspend {sc : BitVec 2} (scope : (sc != 3) = true) (o : OpA) :
    mkInstrA 0x13 (0#6 ++ sc) o = some (.suspend sc o) ∧ mkInstrA 0x13 (1#6 ++ sc) o = some (.suspendYield sc o) ∧
    mkInstrA 0x13 (2#6 ++ sc) o = some (.watch sc o) := by
  rcases twoBits_cases sc with rfl | rfl | rfl | rfl
  · exact ⟨rfl, rfl, rfl⟩
  · exact ⟨rfl, rfl, rfl⟩
  · exact ⟨rfl, rfl, rfl⟩
  · exact absurd scope (by decide)

theorem mkInstrA_table (e : BitVec 2) (o : OpA) :
    mkInstrA 0x3D (0#6 ++ e) o = some (.tblstart e o) ∧ mkInstrA 0x3D (4#6 ++ e) o = some (.tblstop e o) ∧
    mkInstrA 0x3D (8#6 ++ e) o = some (.tblbase e o) := by
  rcases twoBits_cases e with rfl | rfl | rfl | rfl <;> exact ⟨rfl, rfl, rfl⟩

/-! ### Formats I and B -/

theorem readsBack_i {mk : OpI → Instr} {maj : BitVec 6} {o : OpI}
    (code : encode (mk o) = [maj ++ o.d ++ o.a ++ o.imm]) (form : majorForm maj.toNat = .i)
    (named : ∀ w, mkInstrI maj.toNat w = some (mk (fieldsI w))) : ReadsBack (mk o) := by
  have fields : fieldsI (maj ++ o.d ++ o.a ++ o.imm) = o := by simp only [fieldsI, d_i, a_i, n_i]
  rw [ReadsBack, code]
  simp only [readWords, major_i, form, named, fields, List.length_singleton]

theorem readsBack_j {mk : OpJ → Instr} {maj : BitVec 6} {sel : BitVec 2} {o : OpJ}
    (code : encode (mk o) = [maj ++ o.d ++ o.a ++ sel ++ o.n]) (form : majorForm maj.toNat = .i)
    (named : ∀ w : W32, w.extractLsb' 12 2 = sel → mkInstrI maj.toNat w = some (mk (fieldsJ w))) :
    ReadsBack (mk o) := by
  have fields : fieldsJ (maj ++ o.d ++ o.a ++ sel ++ o.n) = o := by simp only [fieldsJ, d_j, a_j, n_j]
  rw [ReadsBack, code]
  simp only [readWords, major_j, form, named _ (k_j _ _ _ _ _), fields, List.length_singleton]

theorem readsBack_branch {mk : OpB → Instr} {maj : BitVec 6} {cond : BitVec 4} {o : OpB}
    (code : encode (mk o) = [maj ++ cond ++ o.a ++ o.disp]) (form : majorForm maj.toNat = .b)
    (named : ∀ w : W32, w.extractLsb' 22 4 = cond → mkInstrB maj.toNat w = some (mk (fieldsB w))) :
    ReadsBack (mk o) := by
  have fields : fieldsB (maj ++ cond ++ o.a ++ o.disp) = o := by simp only [fieldsB, a_br, x_br]
  rw [ReadsBack, code]
  simp only [readWords, major_br, form, named _ (c_br _ _ _ _), fields, List.length_singleton]

theorem readsBack_loop {mk : BitVec 2 → OpB → Instr} {maj : BitVec 6} {fn n : BitVec 2} {o : OpB}
    (code : encode (mk n o) = [maj ++ fn ++ n ++ o.a ++ o.disp]) (form : majorForm maj.toNat = .b)
    (named : ∀ w : W32, w.extractLsb' 24 2 = fn → mkInstrB maj.toNat w = some (mk (w.extractLsb' 22 2) (fieldsB w))) :
    ReadsBack (mk n o) := by
  have fields : fieldsB (maj ++ fn ++ n ++ o.a ++ o.disp) = o := by simp only [fieldsB, a_lp, x_lp]
  rw [ReadsBack, code]
  simp only [readWords, major_lp, form, named _ (f_lp _ _ _ _ _), n_lp, fields, List.length_singleton]

/-! ### Format M -/

theorem ckM_litCanon {o : OpM} {f : Bool} (wf : (ckM o f).all = true) : litCanon o.x o.lit = true := by
  obtain ⟨-, -, -, -, canon⟩ := (Checks.all_iff _).mp wf
  exact canon

/-- LD and ST. -/
theorem readsBack_m {maj : BitVec 6} {o : OpM} {i : Instr} {f : Bool} (wf : (ckM o f).all = true)
    (code : encode i = mkM maj o []) (form : majorForm maj.toNat = .m)
    (named : (if maj.toNat = 0x18 then .ld o else .st o) = i) : ReadsBack i := by
  rw [ReadsBack, code]
  simp only [mkM, readWords, major_m, form, List.nil_append, readM_mk maj o (ckM_litCanon wf), named,
    List.length_cons, Nat.add_comm]

/-- The fields of a format M word put together, with any literal. -/
theorem fieldsM_mk (maj : BitVec 6) (o : OpM) (l : Word) :
    fieldsM (maj ++ o.t ++ o.h ++ o.x ++ o.size ++ o.order ++ o.scope ++ o.scale) l = { o with lit := l } := by
  simp only [fieldsM, t_m, h_m, x_m, sz_m, od_m, sc_m, sl_m]

/-- ATOM and ATOM2; `j` is what the words without the literal name. -/
theorem readsBack_atom {maj : BitVec 6} {op : BitVec 5} {o : OpM} {v w : BitVec 6} {two cas f : Bool} {i j : Instr}
    (wf : (ckAtom o v w two cas f).all = true) (code : encode i = mkM maj o [op ++ v ++ w ++ 0#15])
    (form : majorForm maj.toNat = .m2) (named : mkInstrAtom maj.toNat op.toNat o v w = some i)
    (bare : mkInstrAtom maj.toNat op.toNat { o with lit := 0 } v w = some j) : ReadsBack i := by
  obtain ⟨wf, -⟩ := Checks.all_and wf
  rw [ReadsBack, code]
  simp only [mkM, readWords, major_m, form, List.singleton_append, readAtom, op_p, v_p, w_p, z_p, x_m, fieldsM_mk, bare,
    take_litWords _ _ (ckM_litCanon wf), named, List.length_cons]
  rw [if_neg (show ¬0#15 ≠ 0 by decide), Nat.add_comm]

/-! ### Format V -/

/-- A vector instruction; `j` is what its first word alone names. -/
theorem readsBack_v {maj fn : BitVec 6} {o : OpV} {i j : Instr} (code : encode i = mkV maj fn o)
    (form : majorForm maj.toNat = .v) (named : mkInstrV maj.toNat fn.toNat o = some i)
    (bare : mkInstrV maj.toNat fn.toNat (fieldsV (maj ++ o.d ++ o.a ++ o.b ++ o.w ++ fn) 0) = some j) :
    ReadsBack i := by
  rw [ReadsBack, code]
  simp only [mkV, readWords, major_v, form, readV_mk maj fn o j i bare named, List.length_cons, List.length_nil]

/-! ### Format E -/

theorem readE_ok {maj op : Nat} {w w1 : W32} {rest : List W32} {n k : Nat} {l : Word} {i : Instr}
    (majorOf : (major w).toNat = maj) (opOf : (w.extractLsb' 20 6).toNat = op) (words : operandWords maj op = some n)
    (enough : n ≤ (w1 :: rest).length)
    (taken : (if commandLit maj op w1 then takeLit (w1.extractLsb' 22 6) ((w1 :: rest).drop n) else some (0, 0)) =
      some (l, k))
    (named : mkInstrE maj op (fieldsE w w1 (if 2 ≤ n then rest.headD 0 else 0)
      (if 3 ≤ n then rest.tail.headD 0 else 0) l) = some i) : readE w (w1 :: rest) = .ok i (1 + n + k) := by
  subst majorOf opOf
  simp only [readE, words, if_neg (Nat.not_lt.mpr enough), taken, named]

/-- Of a well-formed engine command, what its checks say of its words and of what the command adds (R144). -/
theorem ckE_all {lim : Limits} {o : OpE} {r1 r2 r3 : Nat} {regs : List Nat} {f res : Bool}
    (wf : (ckE lim o r1 r2 r3 regs f res).all = true) :
    o.w2.toNat &&& r2 = 0 ∧ o.w3.toNat &&& r3 = 0 ∧ f = true ∧ res = true ∧
      (if r1 &&& 0xFC00000 == 0 then litCanon o.x o.lit else o.lit == 0) = true := by
  obtain ⟨reserved, field, -, -, canon⟩ := (Checks.all_iff _).mp wf
  simp only [ckE, Bool.and_eq_true, beq_iff_eq] at reserved field
  obtain ⟨⟨⟨-, z2⟩, z3⟩, hres⟩ := reserved
  exact ⟨z2, z3, field, hres, canon⟩

theorem ckE_field {lim : Limits} {o : OpE} {r1 r2 r3 : Nat} {regs : List Nat} {f res : Bool}
    (wf : (ckE lim o r1 r2 r3 regs f res).all = true) : f = true := by
  obtain ⟨-, -, field, -⟩ := ckE_all wf
  exact field

theorem ckE_res {lim : Limits} {o : OpE} {r1 r2 r3 : Nat} {regs : List Nat} {f res : Bool}
    (wf : (ckE lim o r1 r2 r3 regs f res).all = true) : res = true := by
  obtain ⟨-, -, -, res, -⟩ := ckE_all wf
  exact res

theorem ckE_canon {lim : Limits} {o : OpE} {r1 r2 r3 : Nat} {regs : List Nat} {f res : Bool}
    (wf : (ckE lim o r1 r2 r3 regs f res).all = true) :
    (if r1 &&& 0xFC00000 == 0 then litCanon o.x o.lit else o.lit == 0) = true := by
  obtain ⟨-, -, -, -, canon⟩ := ckE_all wf
  exact canon

/-- A word whose bits are all reserved is zero. -/
theorem eq_zero_of_reserved {w : W32} (h : w.toNat &&& 0xFFFFFFFF = 0) : w = 0 := by
  apply BitVec.eq_of_toNat_eq
  rw [show (0xFFFFFFFF : Nat) = 2 ^ 32 - 1 from rfl, Nat.and_two_pow_sub_one_eq_mod, Nat.mod_eq_of_lt w.isLt] at h
  exact h

theorem operandWords_count {maj op n : Nat} (h : operandWords maj op = some n) : n = 1 ∨ n = 2 ∨ n = 3 := by
  unfold operandWords at h
  repeat' split at h
  all_goals cases h <;> decide

/-- An engine command of `n` operand words: a word it does not have is reserved, and so is a literal it does not
announce. -/
theorem readsBack_e {lim : Limits} {r1 r2 r3 n : Nat} {regs : List Nat} {f res lit : Bool} {maj op : BitVec 6} {o : OpE}
    {i : Instr} (wf : (ckE lim o r1 r2 r3 regs f res).all = true) (code : encode i = mkE maj op n lit o)
    (form : majorForm maj.toNat = .e) (words : operandWords maj.toNat op.toNat = some n)
    (no2 : n < 2 → r2 = 0xFFFFFFFF) (no3 : n < 3 → r3 = 0xFFFFFFFF)
    (announced : commandLit maj.toNat op.toNat o.w1 = lit)
    (canon : (if lit then litCanon o.x o.lit else o.lit == 0) = true)
    (named : mkInstrE maj.toNat op.toNat o = some i) : ReadsBack i := by
  have taken : (if commandLit maj.toNat op.toNat o.w1 then
      takeLit (o.w1.extractLsb' 22 6) (if lit then litWords o.x o.lit else []) else some (0, 0)) =
      some (o.lit, (if lit then litWords o.x o.lit else []).length) := by
    rw [announced]
    cases lit
    · rw [beq_iff_eq.mp canon]; rfl
    · exact take_litWords o.x o.lit canon
  have count := operandWords_count words
  obtain ⟨reserved2, reserved3, -⟩ := ckE_all wf
  have zero2 (h : n < 2) : o.w2 = 0 := eq_zero_of_reserved (no2 h ▸ reserved2)
  have zero3 (h : n < 3) : o.w3 = 0 := eq_zero_of_reserved (no3 h ▸ reserved3)
  rw [ReadsBack, code, mkE]
  generalize (if lit then litWords o.x o.lit else []) = ls at taken ⊢
  have named' : ∀ w2 w3, w2 = o.w2 → w3 = o.w3 → mkInstrE maj.toNat op.toNat
      (fieldsE (maj ++ op ++ o.kd ++ o.ka ++ o.kb ++ o.kc) o.w1 w2 w3 o.lit) = some i := by
    rintro _ _ rfl rfl
    simp only [fieldsE, kd_e, ka_e, kb_e, kc_e, named]
  have majorOf := congrArg BitVec.toNat (major_e maj op o.kd o.ka o.kb o.kc)
  have opOf := congrArg BitVec.toNat (op_e maj op o.kd o.ka o.kb o.kc)
  have read : readE (maj ++ op ++ o.kd ++ o.ka ++ o.kb ++ o.kc) ([o.w1, o.w2, o.w3].take n ++ ls) =
      .ok i (1 + n + ls.length) := by
    rcases count with rfl | rfl | rfl
    · exact readE_ok majorOf opOf words (by simp) taken (named' _ _ (zero2 (by decide)).symm (zero3 (by decide)).symm)
    · exact readE_ok majorOf opOf words (by simp) taken (named' _ _ rfl (zero3 (by decide)).symm)
    · exact readE_ok majorOf opOf words (by simp) taken (named' _ _ rfl rfl)
  have length : ([o.w1, o.w2, o.w3].take n).length = n := by
    rw [List.length_take, List.length_cons, List.length_cons, List.length_cons, List.length_nil]; omega
  simp only [readWords, major_e, form, read, List.length_cons, List.length_append, length]
  congr 1
  omega

/-! Sub-operation fields (R239, R274, R333) -/

theorem extract_of_bits {w : W32} {k : Nat} {lo n : Nat} (h : bits w.toNat (lo + n - 1) lo = k) (some_ : n ≠ 0) :
    (w.extractLsb' lo n).toNat = k := by
  rw [BitVec.extractLsb'_toNat, ← h, bits, show lo + n - 1 + 1 - lo = n by omega]

theorem extract_eq_one {w : W32} {k : Nat} : w.extractLsb' k 1 = 1 ↔ bit w.toNat k = true := by
  rw [← BitVec.toNat_inj, BitVec.extractLsb'_toNat, bit, Nat.testBit_eq_decide_div_mod_eq, Nat.shiftRight_eq_div_pow,
    decide_eq_true_iff]
  rfl

theorem extract_eq_zero {w : W32} {k : Nat} : w.extractLsb' k 1 = 0 ↔ bit w.toNat k = false := by
  rw [← Bool.not_eq_true, ← extract_eq_one]
  generalize w.extractLsb' k 1 = b
  revert b
  decide

/-! ### Every instruction word -/

/-- Each instruction word is a row of its format; a micro-order is none, and an act has no words. -/
theorem readsBack_of_wfAt {lim : Limits} {i : Instr} (wf : i.wfAt lim = true) (coded : encode i ≠ [])
    (word : microOrder i = false) : ReadsBack i := by
  cases i with
  | add o | sub o | mul o | mulhs o | mulhu o | divs o | divu o | rems o | remu o | and o | or o | xor o | andn o
  | shl o | shrl o | shra o | rotl o | min o | max o | minu o | maxu o | cmpeq o | cmplt o | cmpltu o | bext o | bins o | jmp o
  | call o | syscall o | spawn o | launch o | hload o | binit o | barrive o | bwait o | btest o | waitg o | icinv o
  | codepatch o => exact readsBack_lit wf rfl rfl rfl rfl rfl rfl
  | clz o | ctz o | popc o | qset o | qand o | qor o | qnot o | ret o | nop o | exit o | brk o | trapf o | rgn o
  | splitchk o | sstep o | hquery o | hdrop o | kwait o | kwaitAll o | ktest o | kstat o | kstatClr o | commit o
  | waitgAll o | eret o | halt o | dbgstop o => exact readsBack_plain wf rfl rfl rfl rfl rfl
  | sel q o => exact readsBack_lit wf rfl rfl rfl (mkInstrA_sel q _) (mkInstrA_sel q _) rfl
  | fadd m o | fsub m o | fmul m o | ffma m o | fdiv m o | fmin m o | fmax m o | fcmp m o =>
    exact readsBack_lit wf rfl rfl rfl (mkInstrA_float (.inl rfl) m _ _) (mkInstrA_float (.inl rfl) m _ _) rfl
  | faddFp64 m o | fsubFp64 m o | fmulFp64 m o | ffmaFp64 m o | fdivFp64 m o | fminFp64 m o | fmaxFp64 m o
  | fcmpFp64 m o =>
    exact readsBack_lit wf rfl rfl rfl (mkInstrA_float (.inr rfl) m _ _) (mkInstrA_float (.inr rfl) m _ _) rfl
  | fsqrt m o | fcvt m o => exact readsBack_plain wf rfl rfl rfl (mkInstrA_float (.inl rfl) m _ _) rfl
  | fsqrtFp64 m o | fcvtFp64 m o => exact readsBack_plain wf rfl rfl rfl (mkInstrA_float (.inr rfl) m _ _) rfl
  | suspend sc o =>
    obtain ⟨named, -, -⟩ := mkInstrA_suspend (ckA_fieldOk wf) o
    exact readsBack_plain wf rfl rfl rfl named rfl
  | suspendYield sc o =>
    obtain ⟨-, named, -⟩ := mkInstrA_suspend (ckA_fieldOk wf) o
    exact readsBack_plain wf rfl rfl rfl named rfl
  | watch sc o =>
    obtain ⟨-, -, named⟩ := mkInstrA_suspend (ckA_fieldOk wf) o
    obtain ⟨-, -, bare⟩ := mkInstrA_suspend (ckA_fieldOk wf) ⟨o.d, o.a, o.b, 0⟩
    exact readsBack_lit wf rfl rfl rfl named bare rfl
  | acq sc o =>
    obtain ⟨named, -⟩ := mkInstrA_guard sc o
    exact readsBack_plain wf rfl rfl rfl named rfl
  | rel sc o =>
    obtain ⟨-, named, -⟩ := mkInstrA_guard sc o
    exact readsBack_plain wf rfl rfl rfl named rfl
  | relK sc o =>
    obtain ⟨-, -, named, -⟩ := mkInstrA_guard sc o
    exact readsBack_plain wf rfl rfl rfl named rfl
  | fence sc o =>
    obtain ⟨-, -, -, named⟩ := mkInstrA_guard sc o
    exact readsBack_plain wf rfl rfl rfl named rfl
  | tblstart e o =>
    obtain ⟨named, -⟩ := mkInstrA_table e o
    obtain ⟨bare, -⟩ := mkInstrA_table e ⟨o.d, o.a, o.b, 0⟩
    exact readsBack_lit wf rfl rfl rfl named bare rfl
  | tblstop e o =>
    obtain ⟨-, named, -⟩ := mkInstrA_table e o
    exact readsBack_plain wf rfl rfl rfl named rfl
  | tblbase e o =>
    obtain ⟨-, -, named⟩ := mkInstrA_table e o
    obtain ⟨-, -, bare⟩ := mkInstrA_table e ⟨o.d, o.a, o.b, 0⟩
    exact readsBack_lit wf rfl rfl rfl named bare rfl
  | addi o | andi o | ori o | xori o | cmpeqi o | cmplti o => exact readsBack_i rfl rfl fun _ => rfl
  | shli o | shrli o | shrai o | csrrd o | csrwr o | csrset o | csrclr o =>
    exact readsBack_j rfl rfl fun _ sel => by simp only [mkInstrI, sel]; rfl
  | br o | brEqz o | brNez o | brLtz o | brGez o | brGtz o | brLez o | brQ o | brNq o =>
    exact readsBack_branch rfl rfl fun _ cond => by simp only [mkInstrB, cond]; rfl
  | loopInit n o | loop n o | loopspInit n o | loopsp n o =>
    exact readsBack_loop rfl rfl fun _ fn => by simp only [mkInstrB, fn]; rfl
  | ld o | st o => exact readsBack_m wf rfl rfl rfl
  | atomAdd o v w | atomAnd o v w | atomOr o v w | atomXor o v w | atomMin o v w | atomMax o v w | atomMinu o v w
  | atomMaxu o v w | atomSwap o v w | atomCas o v w | atomFadd o v w | atom2Swap o v w | atom2Cas o v w =>
    exact readsBack_atom wf rfl rfl rfl rfl
  | vld o | vst o | vlds o | vsts o | vgath o | vscat o | vmov o | vbcast o | vextr o | vins o | vadd o | vsub o
  | vmul o | vfma o | vfms o | vmin o | vmax o | vabs o | vneg o | vand o | vor o | vxor o | vnot o | vshl o | vshr o | vshrA o
  | vcmpEq o | vcmpNe o | vcmpLt o | vcmpLe o | vcmpGt o | vcmpGe o | vsel o | vcvt o | vcvtBs o | vscale o | vreds o
  | vredmMax o | vredmMin o | vscan o | vperm o | vslideUp o | vslideDn o | vzip o | vunzip o | viota o | vexp2 o
  | vlog2 o | vrcp o | vrsq o | vsin o | vcos o | vtanh o | vsig o | mand o | mor o | mnot o | mpop o | vchain o =>
    exact readsBack_v rfl rfl rfl rfl
  | mldw o | mmul o | mmulc o | mlda o | plload o | plqr o | plsolve o | plrot o | plvec o | cpy o | cpym o | cpg o
  | cps o | cpdec o | cpfill o | mswap o | mzero o | plclr o | plswap o =>
    exact readsBack_e wf rfl rfl rfl (by decide) (by decide) rfl (ckE_canon wf) rfl
  | mcfg o =>
    obtain ⟨wf, plain⟩ := Checks.all_and wf
    obtain ⟨-, -, -, -, plain⟩ := (Checks.all_iff _).mp plain
    exact readsBack_e wf rfl rfl rfl (by decide) (by decide) rfl plain rfl
  | mret o =>
    have unset := extract_eq_zero.mpr (Bool.not_eq_true' _ ▸ ckE_res wf)
    exact readsBack_e wf rfl rfl rfl (by decide) (by decide) (by simp [commandLit, unset]) (ckE_canon wf)
      (by simp [mkInstrE, unset])
  | mretFree o =>
    have set_ := extract_eq_one.mpr (ckE_res wf)
    exact readsBack_e wf rfl rfl rfl (by decide) (by decide) (by simp [commandLit, set_]) (ckE_canon wf)
      (by simp [mkInstrE, set_])
  | pldrain o | plapply o =>
    have unset := extract_eq_zero.mpr (Bool.not_eq_true' _ ▸ ckE_res wf)
    exact readsBack_e wf rfl rfl rfl (by decide) (by decide) rfl (ckE_canon wf) (by simp [mkInstrE, unset])
  | pldrainLm o | plapplySw o =>
    have set_ := extract_eq_one.mpr (ckE_res wf)
    exact readsBack_e wf rfl rfl rfl (by decide) (by decide) rfl (ckE_canon wf) (by simp [mkInstrE, set_])
  | cpredAdd o | cpredMin o | cpredMax o | cpremPut o | cpagentCas128 o | cpagentCas256 o | cpagentEnq o
  | cpagentChase o | bmupdAdd o | bmupdMul o | bmupdMin o | bmupdMax o | bmupdFma o | bmupdSet o =>
    have sub := extract_of_bits (lo := 12) (n := 3) (beq_iff_eq.mp (ckE_field wf)) (by decide)
    exact readsBack_e wf rfl rfl rfl (by decide) (by decide) rfl (ckE_canon wf) (by simp [mkInstrE, sub])
  | cpremGet o =>
    obtain ⟨get, -⟩ := Bool.and_eq_true_iff.mp (ckE_field wf)
    have sub := extract_of_bits (lo := 12) (n := 3) (beq_iff_eq.mp get) (by decide)
    exact readsBack_e wf rfl rfl rfl (by decide) (by decide) rfl (ckE_canon wf) (by simp [mkInstrE, sub])
  | tableEnd _ _ | tableSeta _ _ | tableAdda _ _ | wrow _ | arow _ | tableSwap _ | ztile _ | tableSetl _ _
  | tableBack _ _ | prow _ | papp _ | seth _ | move _ | dect _ => exact absurd word Bool.noConfusion
  | _ => exact absurd rfl coded

/-- Settles O43: every instruction word is read back, by its format, and its own checks let it through. -/
theorem roundTrip : Obligations.RoundTrip := by
  unfold Obligations.RoundTrip
  intro lim i wf coded word
  exact decode_of_readsBack wf (readsBack_of_wfAt wf coded word)

/-- Settles O44: each is a closed word, on which the decoder runs. -/
theorem decodesSpecWords : Obligations.DecodesSpecWords := by
  unfold Obligations.DecodesSpecWords
  decide

end Sys2Proof
end

section
/-! The privileged instructions and control registers issued unprivileged (07 R134, R136; 20 R420, R422, R424): each is
stopped by the check of its privilege, before it has any effect. -/

namespace Sys2Proof.Machine

/-- Where a strand may not carry out an operation, PRIV stops it (R134). -/
theorem privOnly_strand {s : State} (strand : s.core.priv = false) (w : W32) (csr : Nat) (r : Res State) :
    s.privOnly w csr r = retire (.error (.trap 0x11 (privInfo w csr), s)) := by
  rw [State.privOnly, if_neg (Bool.eq_false_iff.mp strand)]

/-- Where a strand may not name a control register, PRIV stops the instruction (R136). -/
theorem csrOp_strand {s : State} (strand : s.core.priv = false) (i : Instr) {o : OpJ} (privileged : 0x800 ≤ o.n.toNat)
    (write : Option (Word → Word)) :
    s.csrOp i o write = retire (.error (.trap 0x11 (privInfo (firstWord i) o.n.toNat), s)) := by
  simp only [State.csrOp, if_pos (And.intro privileged strand)]

/-- TRAPINFO of PRIV: the word of the instruction, and the number of the register it names (R422). -/
theorem privInfo_eq (w : W32) {n : Nat} (h : n < 2 ^ 12) : privInfo w n = w ++ BitVec.ofNat 32 n := by
  rw [privInfo, Nat.mod_eq_of_lt (show n < 4096 from h)]

/-! ### The meanings of the control-register instructions (R181) -/

theorem exec_csrrd (o : OpJ) (s : State) : exec (.csrrd o) s = s.csrOp (.csrrd o) o none := rfl

theorem exec_csrwr (o : OpJ) (s : State) :
    exec (.csrwr o) s = s.csrOp (.csrwr o) o (some fun _ => s.getS o.a.toNat) := rfl

theorem exec_csrset (o : OpJ) (s : State) :
    exec (.csrset o) s = s.csrOp (.csrset o) o (s.csrMask o fun x m => x ||| m) := rfl

theorem exec_csrclr (o : OpJ) (s : State) :
    exec (.csrclr o) s = s.csrOp (.csrclr o) o (s.csrMask o fun x m => x &&& ~~~m) := rfl

/-! ### PRIV -/

/-- An instruction that is stopped with PRIV, by a strand that is ready for a trap (R422). -/
theorem gives_priv {s : State} {vec : Word} (ready : s.trapReady vec) {i : Instr} {n : Nat} (number : n < 2 ^ 12)
    (stopped : exec i s = retire (.error (.trap 0x11 (privInfo (firstWord i) n), s))) :
    Gives i s (fun t => TrapTaken s t 0x11 ((encode i).headD 0 ++ BitVec.ofNat 32 n) s.core.pc vec) := by
  rw [privInfo_eq _ number] at stopped
  exact gives_fault ready stopped

/-- Settles O16: a strand that is ready for a trap is unprivileged, and the check of its privilege stops each
instruction. -/
theorem privilegeTraps : Obligations.PrivilegeTraps := by
  unfold Obligations.PrivilegeTraps
  intro o c s vec ready info
  have strand : s.core.priv = false := by
    obtain ⟨strand, -⟩ := ready
    exact strand
  constructor
  · have stopped {i : Instr} {r : Res State} (arm : exec i s = s.privOnly (firstWord i) 0 r) :=
      gives_priv ready (by decide) (arm.trans (privOnly_strand strand _ _ r))
    simp only [List.forall_mem_cons, List.not_mem_nil, false_implies, implies_true, and_true]
    exact ⟨stopped rfl, stopped rfl, stopped rfl, stopped rfl, stopped rfl⟩
  · intro privileged
    have stopped {i : Instr} {write : Option (Word → Word)} (arm : exec i s = s.csrOp i c write) :=
      gives_priv ready c.n.isLt (arm.trans (csrOp_strand strand i privileged write))
    simp only [List.forall_mem_cons, List.not_mem_nil, false_implies, implies_true, and_true]
    exact ⟨stopped (exec_csrrd c s), stopped (exec_csrwr c s), stopped (exec_csrset c s), stopped (exec_csrclr c s)⟩

end Sys2Proof.Machine
end

section
/-! What CSRRD gives (07 R135, R136; 08 R181; 20 R414; 21 R439, R447; 23 R469): the registers that hold more than a
field of the state, each as the spec lays it out, and then the read. -/

namespace Sys2Proof.Machine

/-! ### The control registers put together from several fields -/

/-- MARK: zero while no retirement runs (R439). -/
theorem markWord_eq (s : State) : s.markWord = BitVec.ofNat 64
    (if s.sweep.phaseNum.toNat % 2 = 1 then s.sweep.win % 512 * 2 ^ 32 + s.sweep.gran % 2 ^ 28 else 0) := by
  rcases Nat.mod_two_eq_zero_or_one s.sweep.phaseNum.toNat with even | odd
  · rw [State.markWord, if_pos even, if_neg (by omega)]
    rfl
  · rw [State.markWord, if_neg (by omega), if_pos odd]

/-- KEYMARK: that of the tenant's rotation, zero while none runs (R447). -/
theorem keymarkWord_eq (s : State) (t : Nat) : s.keymarkWord t = BitVec.ofNat 64
    (if (s.rotation t).act then 2 ^ 63 + (s.rotation t).ext % 2 ^ 16 * 2 ^ 32 + (s.rotation t).line % 2 ^ 19
      else 0) := by
  cases kept : lookup s.sweep.rot t with
  | none => simp [State.keymarkWord, State.rotation, kept]
  | some r =>
    simp only [State.keymarkWord, State.rotation, kept, Option.getD_some]
    split <;> rfl

/-- RGNCTL (R414). -/
theorem rgnctl_eq (c : Core) (live : Bool) (lines : Nat) : c.rgnctl live lines = BitVec.ofNat 64
    ((if live then 2 ^ 63 else 0) + (if c.reexec then 2 ^ 62 else 0) + c.lastCause.toNat * 2 ^ 60 + lines * 2 ^ 48 +
      c.rseq.toNat) := by
  simp only [Core.rgnctl, b2n_mul]

/-- A field of the strand the core runs. -/
theorem jobWord_eq {s : State} {j : Job} (job : s.core.job = some j) (f : Job → Word) : s.jobWord f = f j := by
  simp only [State.jobWord, job]

theorem tenant_eq {s : State} {j : Job} (job : s.core.job = some j) : s.tenant = j.tenant := by
  simp only [State.tenant, job]

/-! ### CSRRD -/

/-- Of a register the strand may name, d takes the old value once the new one is written, if one is (R136, R181). -/
theorem csrOp_allowed {s : State} {o : OpJ} (may : o.n.toNat < 0x800 ∨ s.core.priv = true) (i : Instr) :
    s.csrOp i o none = .next ((s.setS o.d.toNat (s.csr o.n.toNat)).advance 1) ∧
    ∀ f, s.csrOp i o (some f) =
      .next (((s.setCsr o.n.toNat (f (s.csr o.n.toNat))).setS o.d.toNat (s.csr o.n.toNat)).advance 1) := by
  have unstopped : ¬(0x800 ≤ o.n.toNat ∧ s.core.priv = false) := by
    rintro ⟨high, strand⟩
    rcases may with low | privileged
    · omega
    · rw [strand] at privileged; exact absurd privileged (by decide)
  constructor
  · simp only [State.csrOp, if_neg unstopped]
  · intro f
    simp only [State.csrOp, if_neg unstopped]

/-- Settles O20: CSRRD gives what the register holds, row by row of the table. -/
theorem controlRead : Obligations.ControlRead := by
  unfold Obligations.ControlRead
  intro o s j job may w g r sel trapvec mark keymark rgnctl count table
  have trapVec : s.trapVec = trapvec := by
    cases ctx : s.ctx? j.ctx <;> simp only [State.trapVec, job, ctx, trapvec]
  have keymark : s.keymarkWord s.tenant = w keymark := by rw [tenant_eq job]; exact keymarkWord_eq s j.tenant
  have rows : ∀ p ∈ table, s.csr p.1 = p.2 := by
    simp only [table, List.forall_mem_cons, List.not_mem_nil, false_implies, implies_true, and_true]
    exact ⟨rfl, trapVec, rfl, markWord_eq s, keymark, rgnctl_eq _ _ _, rfl,
      jobWord_eq job _, rfl, rfl, rfl, jobWord_eq job _, jobWord_eq job _, rfl, rfl, rfl, rfl, rfl, rfl, rfl, rfl, rfl,
      rfl, rfl⟩
  refine ⟨s.csr o.n.toNat, fun p hp number => number ▸ rows p hp, _, ?_, scalar_ok s _ _ 1⟩
  rw [exec_csrrd]
  obtain ⟨read, -⟩ := csrOp_allowed may (.csrrd o)
  exact read

end Sys2Proof.Machine
end

section
/-! What CSRWR, CSRSET and CSRCLR write (07 R136; 08 R181; 20 R414, R418; 23 R469). -/

namespace Sys2Proof.Machine

/-- A control register written where `w` holds, and nothing otherwise. -/
def State.csrWritten (s : State) (n : Nat) (w : Bool) (v : Word) : State := if w then s.setCsr n v else s

/-! ### What a write changes -/

/-- A core after a write of control register `n`, where `w` holds: the register named takes the value with its reserved
bits dropped; RGNCTL takes a 0 written to LAST, and STALLSEL clears the counters where CLR is written (R136, R414,
R469). -/
def Core.csrWritten (c : Core) (n : Nat) (w : Bool) (v : Word) : Core := { c with
  live := { c.live with
    flags := if n = 0x010 ∧ w = true then v &&& 0x1F else c.live.flags
    flagen := if n = 0x011 ∧ w = true then v &&& 0x1F else c.live.flagen
    rnglo := if n = 0x012 ∧ w = true then v else c.live.rnglo
    rnghi := if n = 0x013 ∧ w = true then v else c.live.rnghi }
  trapCause := if n = 0x801 ∧ w = true then v &&& 0x3FF else c.trapCause
  trapInfo := if n = 0x802 ∧ w = true then v else c.trapInfo
  epc := if n = 0x803 ∧ w = true then v else c.epc
  trapScr := if n = 0x804 ∧ w = true then v else c.trapScr
  lastCause := if (n = 0x820 ∧ w = true) ∧ v.extractLsb' 60 2 = 0 then 0 else c.lastCause
  stallSel := if n = 0x830 ∧ w = true then v &&& 0xFF else c.stallSel
  stallCnt := if (n = 0x830 ∧ w = true) ∧ v.getLsbD 63 = true then [] else c.stallCnt }

theorem setCsr_core (s : State) (n : Nat) (v : Word) : (s.setCsr n v).core = s.core.csrWritten n true v := by
  unfold State.setCsr
  split
  case h_5 => -- TRAPVEC
    unfold State.setTrapVec
    split <;> simp [Core.csrWritten]
  case h_10 => -- RGNCTL
    split <;> simp_all [Core.csrWritten]
  case h_12 => simp_all [Core.csrWritten]
  all_goals simp [Core.csrWritten, flagMask]

/-- `t` is `s` but for the acting core and the work. -/
def State.machineKept (s t : State) : Prop := t = { s with core := t.core, work := t.work }

theorem machineKept_trans {s t u : State} (h : s.machineKept t) (k : t.machineKept u) : s.machineKept u := by
  unfold State.machineKept at *
  rw [k, h]

/-- A write reaches the core and, for TRAPVEC, the strand's context, and nothing else of the machine. -/
theorem setCsr_machineKept (s : State) (n : Nat) (v : Word) : s.machineKept (s.setCsr n v) := by
  unfold State.setCsr
  split
  case h_5 => unfold State.setTrapVec; split <;> rfl
  case h_10 => split <;> rfl
  all_goals rfl

/-- No other register is held in the work. -/
theorem setCsr_work (s : State) {n : Nat} (other : n ≠ 0x800) (v : Word) : (s.setCsr n v).work = s.work := by
  unfold State.setCsr
  split
  case h_5 => exact absurd rfl other
  case h_10 => split <;> rfl
  all_goals rfl

/-- TRAPVEC is written for the strand's context alone (R418). -/
theorem setCsr_ctx {s : State} {j : Job} (job : s.core.job = some j) (n : Nat) (v : Word) {m : Nat} {c : Ctx}
    (ctx : s.ctx? m = some c) :
    (s.setCsr n v).ctx? m = some (if m = j.ctx ∧ n = 0x800 then { c with trapvec := v } else c) := by
  by_cases vector : n = 0x800
  · subst vector
    have number : c.num = m := by
      simpa using List.find?_some (show s.work.ctxs.find? (fun c => c.num == m) = some c from ctx)
    have keeps : ((fun c : Ctx => c.num == m) ∘ fun c : Ctx => if c.num = j.ctx then { c with trapvec := v } else c) =
        fun c : Ctx => c.num == m := by
      funext c
      simp only [Function.comp]
      split <;> rfl
    simp only [State.ctx?] at ctx
    simp only [State.setCsr, State.setTrapVec, job, State.ctx?, List.find?_map, keeps, ctx, Option.map_some, number,
      and_true]
  · rw [if_neg (fun both => vector both.2), State.ctx?, setCsr_work s vector]
    exact ctx

/-! ### An instruction that writes -/

theorem csrWritten_core (s : State) (n : Nat) (w : Bool) (v : Word) :
    (s.csrWritten n w v).core = s.core.csrWritten n w v := by
  cases w
  · simp [State.csrWritten, Core.csrWritten]
  · exact setCsr_core s n v

theorem csrWritten_ctx {s : State} {j : Job} (job : s.core.job = some j) (n : Nat) (w : Bool) (v : Word) {m : Nat}
    {c : Ctx} (ctx : s.ctx? m = some c) : (s.csrWritten n w v).ctx? m =
      some (if m = j.ctx ∧ n = 0x800 ∧ w = true then { c with trapvec := v } else c) := by
  cases w
  · simpa [State.csrWritten] using ctx
  · simpa [State.csrWritten] using setCsr_ctx job n v ctx

/-- What a control-register instruction leaves: the register written where `w` holds, then `old` in d. -/
def State.csrDone (s : State) (o : OpJ) (w : Bool) (v old : Word) : State :=
  ((s.csrWritten o.n.toNat w v).setS o.d.toNat old).advance 1

/-- Nothing but the core and the work changes, and in the core the register d besides what the write changes. -/
theorem csrDone_machineKept (s : State) (o : OpJ) (w : Bool) (v old : Word) : s.machineKept (s.csrDone o w v old) := by
  have written : s.machineKept (s.csrWritten o.n.toNat w v) := by
    cases w
    · rfl
    · exact setCsr_machineKept s _ v
  refine machineKept_trans written (machineKept_trans ?_ rfl)
  unfold State.setS
  split <;> rfl

/-- What the read-only registers are read from: the strand, and the machine without its cores and its work (R135). -/
theorem csr_readOnly {s t : State} (job : t.core.job = s.core.job) (rest : s.machineKept t) :
    ∀ n ∈ readOnlyCsrs, t.csr n = s.csr n := by
  have word (f : Job → Word) : t.jobWord f = s.jobWord f := by simp only [State.jobWord, job]
  have tenant : t.tenant = s.tenant := by simp only [State.tenant, job]
  have id : t.coreId = s.coreId := (congrArg State.coreId rest).trans rfl
  have stepNo : t.stepNo = s.stepNo := (congrArg State.stepNo rest).trans rfl
  have resetStep : t.resetStep = s.resetStep := (congrArg State.resetStep rest).trans rfl
  have xl : t.xl = s.xl := (congrArg State.xl rest).trans rfl
  have sweep : t.sweep = s.sweep := (congrArg State.sweep rest).trans rfl
  simp only [readOnlyCsrs, List.forall_mem_cons, List.not_mem_nil, false_implies, implies_true, and_true]
  simp only [State.csr, word, tenant, id, xl, State.cycle, stepNo, resetStep, State.phaseWord, State.markWord,
    State.keymarkWord, sweep, and_self]

/-- The field of LAST in a written RGNCTL (R414). -/
theorem bits_last (v : Word) : bits v.toNat 61 60 = 0 ↔ v.extractLsb' 60 2 = 0 := by
  rw [← BitVec.toNat_inj, BitVec.extractLsb'_toNat]
  rfl

/-- CSRWR, CSRSET and CSRCLR of a register the strand may name: the instruction, whether it writes, and the new value
of the old one. -/
theorem csr_writes {o : OpJ} {s : State} (may : o.n.toNat < 0x800 ∨ s.core.priv = true) :
    ∀ p ∈ [(Instr.csrwr o, true, fun _ : Word => s.getS o.a.toNat),
        (.csrset o, decide (o.a ≠ 0), fun x => x ||| s.getS o.a.toNat),
        (.csrclr o, decide (o.a ≠ 0), fun x => x &&& ~~~s.getS o.a.toNat)],
      exec p.1 s = .next (s.csrDone o p.2.1 (p.2.2 (s.csr o.n.toNat)) (s.csr o.n.toNat)) := by
  have write (i : Instr) (f : Word → Word) : s.csrOp i o (some f) =
      .next (s.csrDone o true (f (s.csr o.n.toNat)) (s.csr o.n.toNat)) := by
    obtain ⟨-, write⟩ := csrOp_allowed may i
    exact write f
  have masked (i : Instr) (f : Word → Word → Word) : s.csrOp i o (s.csrMask o f) =
      .next (s.csrDone o (decide (o.a ≠ 0)) (f (s.csr o.n.toNat) (s.getS o.a.toNat)) (s.csr o.n.toNat)) := by
    by_cases none_ : o.a = 0
    · obtain ⟨read, -⟩ := csrOp_allowed may i
      rw [State.csrMask, if_pos none_, read, decide_eq_false (not_not_intro none_)]
      rfl
    · rw [State.csrMask, if_neg none_, write, decide_eq_true none_]
  simp only [List.forall_mem_cons, List.not_mem_nil, false_implies, implies_true, and_true]
  exact ⟨(exec_csrwr o s).trans (write _ _), (exec_csrset o s).trans (masked _ _), (exec_csrclr o s).trans (masked _ _)⟩

/-- Settles O21: the register named is written as `csrWritten_core` and `csrWritten_ctx` say, then d. -/
theorem controlWrite : Obligations.ControlWrite := by
  unfold Obligations.ControlWrite
  intro o s may a p hp old new to_
  have arm : exec p.1 s = .next (s.csrDone o p.2.1 new old) := csr_writes may p hp
  have kept := csrDone_machineKept s o p.2.1 new old
  have core := csrWritten_core s o.n.toNat p.2.1 new
  have ctx {j : Job} (job : s.core.job = some j) {m : Nat} {c : Ctx} (at_ : s.ctx? m = some c) :=
    csrWritten_ctx job o.n.toNat p.2.1 new at_
  rw [State.csrDone] at arm kept
  generalize s.csrWritten o.n.toNat p.2.1 new = u at core ctx arm kept
  have plain {k : Nat} {x : Word} (mask : Word) (read : s.csr k = x) :
      (if o.n.toNat = k ∧ p.2.1 = true then new &&& mask else x) =
        if o.n.toNat = k ∧ p.2.1 = true then p.2.2 x &&& mask else x := by
    subst read
    split
    next named => rw [← named.1]
    next => rfl
  have whole {k : Nat} {x : Word} (read : s.csr k = x) : (if o.n.toNat = k ∧ p.2.1 = true then new else x) =
      if o.n.toNat = k ∧ p.2.1 = true then p.2.2 x &&& BitVec.allOnes 64 else x := by
    rw [← plain _ read, BitVec.and_allOnes]
  have rows : ∀ r ∈ plainCsrs, s.csr r.1 = r.2.2 s := by
    simp only [plainCsrs, List.forall_mem_cons, List.not_mem_nil, false_implies, implies_true, and_true]
    exact ⟨rfl, rfl, rfl, rfl, rfl, rfl, rfl, rfl⟩
  have lastCause : ((u.setS o.d.toNat old).advance 1).core.lastCause = _ :=
    (State.setS_core_lastCause u _ _).trans (congrArg Core.lastCause core)
  have stallSel : ((u.setS o.d.toNat old).advance 1).core.stallSel = _ :=
    (State.setS_core_stallSel u _ _).trans (congrArg Core.stallSel core)
  have stallCnt : ((u.setS o.d.toNat old).advance 1).core.stallCnt = _ :=
    (State.setS_core_stallCnt u _ _).trans (congrArg Core.stallCnt core)
  refine ⟨rows, _, arm, ?_, ?_, ?_, ?_, ?_, ?_, ?_, ?_, ?_, ?_, ?_, ?_⟩
  · simp only [plainCsrs, List.forall_mem_cons, List.not_mem_nil, false_implies, implies_true, and_true]
    simp only [State.advance_core, State.setS_live_flags, State.setS_live_flagen, State.setS_live_rnglo,
      State.setS_live_rnghi, State.setS_core_trapCause, State.setS_core_trapInfo, State.setS_core_epc,
      State.setS_core_trapScr, core, Core.csrWritten]
    exact ⟨plain _ rfl, plain _ rfl, whole rfl, whole rfl, plain _ rfl, whole rfl, whole rfl, whole rfl⟩
  · intro j job m c at_
    rw [State.ctx?, State.advance_work, State.setS_work]
    exact ctx job at_
  · rintro ⟨named, zero⟩
    exact lastCause.trans (if_pos ⟨named, (bits_last new).mp zero⟩)
  · intro other
    exact lastCause.trans (if_neg fun both => other ⟨both.1, (bits_last new).mpr both.2⟩)
  · intro named
    refine ⟨stallSel.trans (if_pos named), stallCnt.trans ?_⟩
    simp only [Core.csrWritten, show o.n.toNat = 0x830 ∧ p.2.1 = true from named, and_self, true_and]
  · intro other
    exact ⟨stallSel.trans (if_neg other), stallCnt.trans (if_neg fun both => other both.1)⟩
  · exact csr_readOnly (by simp [core, Core.csrWritten]) kept
  · obtain ⟨scalars, -⟩ := scalar_ok u o.d.toNat old 1
    intro k
    rw [scalars k, core]
    simp only [ne_eq, toNat_eq_zero_iff]
    rfl
  · simp [core, Core.csrWritten]
  · simp [core, Core.csrWritten]
  · simp [core, Core.csrWritten]
  · exact (congrArg State.mem kept).trans rfl

end Sys2Proof.Machine
end

section
/-! The step of a strand that waits for nothing (07 R129 to R131, R146; 20 R418; 23 R469 to R472): the clk pass,
whose turn it is, the fetch of words that the instruction cache holds, and what is counted afterwards. -/

namespace Sys2Proof.Machine

/-! ### The clk pass -/

/-- `t` is `s` but for profiling counters and clk used of functions. -/
def State.countsTo (s t : State) : Prop :=
  t = { s with fns := t.fns } ∧ ∀ f, t.fn f = { s.fn f with pmcnt := (t.fn f).pmcnt, used := (t.fn f).used }

theorem countsTo_refl (s : State) : s.countsTo s := ⟨rfl, fun _ => rfl⟩

theorem countsTo_trans {s t u : State} (h : s.countsTo t) (k : t.countsTo u) : s.countsTo u := by
  obtain ⟨rest, fns⟩ := h
  obtain ⟨rest', fns'⟩ := k
  refine ⟨?_, fun f => ?_⟩
  · rw [rest', rest]
  · rw [fns' f, fns f]

/-- A function's registers changed in these two fields alone. -/
theorem countsTo_upFn (s : State) (n : Nat) (g : Fn → Fn)
    (counts : ∀ x, g x = { x with pmcnt := (g x).pmcnt, used := (g x).used }) : s.countsTo (s.upFn n g) := by
  refine ⟨rfl, fun f => ?_⟩
  rw [fn_upFn]
  split
  next named => rw [named]; exact counts _
  next => rfl

theorem heldFor_countsTo (s : State) (c : Core) (n : Nat) : s.countsTo (s.heldFor c n) := by
  unfold State.heldFor
  split
  · exact countsTo_refl s
  · refine countsTo_upFn s _ _ fun x => ?_
    dsimp only
    split <;> rfl

theorem foldl_heldFor_countsTo (n : Nat) (cores : List Core) (s : State) :
    s.countsTo (cores.foldl (fun s c => s.heldFor c n) s) := by
  induction cores generalizing s with
  | nil => exact countsTo_refl s
  | cons c cores ih => exact countsTo_trans (heldFor_countsTo s c n) (ih _)

/-- Of a core the clk pass changes the stall counters (R469). -/
theorem tick_core (c : Core) (held : List Nat) (n : Nat) :
    c.tick held n = { c with stallCnt := (c.tick held n).stallCnt } := by
  unfold Core.tick
  split <;> rfl

theorem unticked_tick (c : Core) (held : List Nat) (n : Nat) : (c.tick held n).unticked = c.unticked := by
  rw [tick_core]
  rfl

/-- The state after a clk pass, from the counters it leaves. -/
def State.ticked (s : State) (cnt : List (Nat × Word)) (parked : List (Nat × Core)) (fns : List Fn) : State :=
  { s with
    stepNo := s.stepNo + 1
    core := { s.core with stallCnt := cnt }
    parked := parked
    fns := fns }

/-- The clk pass changes CYCLE, stall counters, and counters of functions alone (R469 to R472). -/
theorem tick_ticked (s : State) : ∃ cnt parked fns, s.tick = s.ticked cnt parked fns ∧
    parked.map (fun p => (p.1, p.2.unticked)) = s.parked.map (fun p => (p.1, p.2.unticked)) ∧
    ∀ f, (s.ticked cnt parked fns).fn f = { s.fn f with
      pmcnt := ((s.ticked cnt parked fns).fn f).pmcnt, used := ((s.ticked cnt parked fns).fn f).used } := by
  have passes : State.countsTo { s with
      stepNo := s.stepNo + 1
      core := s.core.tick (s.heldProds s.coreId) (Config.clk s.stepNo)
      parked := s.parked.map fun p => (p.1, p.2.tick (s.heldProds p.1) (Config.clk s.stepNo)) } s.tick :=
    foldl_heldFor_countsTo _ _ _
  obtain ⟨rest, counts⟩ := passes
  refine ⟨(s.core.tick (s.heldProds s.coreId) (Config.clk s.stepNo)).stallCnt,
    s.parked.map fun p => (p.1, p.2.tick (s.heldProds p.1) (Config.clk s.stepNo)), s.tick.fns, ?_, ?_, counts⟩
  · rw [State.ticked, ← tick_core]
    exact rest
  · simp only [List.map_map, Function.comp_def, unticked_tick]

/-! ### Whose turn it is -/

/-- With nothing owed, it is the acting core's turn. -/
theorem ownTurn_core {s : State} (arrivals : s.links.arrivals = []) (adds : s.links.adds = [])
    (watchers : ∀ w ∈ s.mem.watchers, w.hit = false) : s.ownTurn = s.coreTurn := by
  have none_ : s.mem.watchers.find? (fun w => w.hit) = none :=
    List.find?_eq_none.mpr fun w hw => by simp [watchers w hw]
  simp [State.ownTurn, arrivals, adds, none_]

/-- The acting core fetches where its strand waits for nothing (R13, R182). -/
theorem coreTurn_fetch {s : State} {j : Job} (job : s.core.job = some j) (stopped : s.core.stopped = false)
    (ready : s.core.preemptReady = false) (stops : s.core.arrayStops = false) (halting : s.core.halting = none)
    (stall : s.core.stall = .none) : s.coreTurn = s.fetchTurn := by
  simp [State.coreTurn, State.preemptNow, job, stopped, ready, stops, halting, stall]

/-! ### The fetch -/

/-- A cached word is fetched, and nothing changes (R130, R131). -/
theorem fetchWord_cached {s : State} {j : Job} {c : Code} {k : Nat} {w : W32} (job : s.core.job = some j)
    (cached : CachedWord s j c k w) : s.fetchWord c k = .ok (w, s) := by
  obtain ⟨within, l, hit, rfl⟩ := cached
  rw [Nat.add_assoc c.base] at hit
  simp only [State.fetchWord, if_neg (Nat.not_lt.mpr within), State.codeLine, job, hit, Nat.add_assoc c.base]

/-- Words that are cached are fetched one after another, until they decode (R146). -/
theorem readInstr_cached {s : State} {j : Job} {c : Code} {ws : List W32} {i : Instr} (job : s.core.job = some j)
    (cached : ∀ k, k < ws.length → CachedWord s j c k (ws.getD k 0))
    (short : ∀ k, k < ws.length → decode j.lim (ws.take k) = .short) (whole : decode j.lim ws = .ok i ws.length)
    (n k : Nat) (upTo : k ≤ ws.length) (enough : ws.length ≤ k + n) :
    State.readInstr c n s (ws.take k) = .ok (.ok i ws.length, ws, s) := by
  have lim : s.core.lim = j.lim := by simp only [Core.lim, job]
  induction n generalizing k with
  | zero =>
    rw [List.take_of_length_le (show ws.length ≤ k from enough), State.readInstr, lim, whole]
  | succ n ih =>
    rcases Nat.lt_or_eq_of_le upTo with more | rfl
    · have next : ws.take k ++ [ws.getD k 0] = ws.take (k + 1) := by
        rw [List.getD_eq_getElem?_getD, List.getElem?_eq_getElem more, Option.getD_some, List.take_append_getElem more]
      have length : (ws.take k).length = k := List.length_take_of_le upTo
      simp only [State.readInstr, lim, short k more, length, fetchWord_cached job (cached k more), next]
      exact ih (k + 1) more (by omega)
    · simp only [State.readInstr, List.take_length, lim, whole]

theorem fetch_cached {s : State} {j : Job} {c : Code} {ws : List W32} {i : Instr} (job : s.core.job = some j)
    (code : s.code? = some c) (few : ws.length ≤ 6) (cached : ∀ k, k < ws.length → CachedWord s j c k (ws.getD k 0))
    (short : ∀ k, k < ws.length → decode j.lim (ws.take k) = .short) (whole : decode j.lim ws = .ok i ws.length) :
    s.fetch = .ok (i, s) := by
  have read := readInstr_cached job cached short whole 6 0 (Nat.zero_le _) (by omega)
  rw [List.take_zero] at read
  simp only [State.fetch, code, read]

/-- The turn of a strand that waits for no scalar result is its cached instruction (R182). -/
theorem fetchTurn_cached {s : State} {i : Instr} (stall : s.core.stall = .none) (entering : s.core.entering = false)
    (results : ∀ x ∈ s.core.vq, x.scalarResult = false) (fetched : s.fetch = .ok (i, s)) : s.fetchTurn = .run i s := by
  have none_ : s.core.vq.any Cmd.scalarResult = false :=
    List.any_eq_false.mpr fun x hx => by simp [results x hx]
  have same : s.upCore (fun c => { c with stall := .none }) = s := upCore_id s _ (by rw [← stall])
  simp [State.fetchTurn, State.interlocked, none_, same, fetched, entering]

/-! ### What is counted -/

/-- A profiling event counted changes profiling counters alone (R471). -/
theorem countFor_counts (s : State) (j : Option Job) (id n : Nat) :
    s.countFor j id n = { s with fns := (s.countFor j id n).fns } ∧
    ∀ f, (s.countFor j id n).fn f = { s.fn f with pmcnt := ((s.countFor j id n).fn f).pmcnt } := by
  unfold State.countFor
  split
  next j =>
    refine ⟨rfl, fun f => ?_⟩
    rw [fn_upFn]
    split
    next named => rw [named]; rfl
    next => rfl
  next => exact ⟨rfl, fun _ => rfl⟩

/-- An instruction that ended is counted, where it retired, in profiling counters alone (R472); one that waits for the
memory leaves the state before it, which waits (R363). -/
theorem counted_next (s t : State) : ∃ r : State, counted s (.next t) = .next (s.orStalls r) ∧
    r = { t with fns := r.fns } ∧ ∀ f, r.fn f = { t.fn f with pmcnt := (r.fn f).pmcnt } := by
  refine ⟨_, rfl, ?_⟩
  split
  · exact countFor_counts t s.core.job 2 1
  · exact ⟨rfl, fun _ => rfl⟩

/-- Settles O45: the clk pass, then the cached instruction, since it is the core's turn to fetch it, then the count. -/
theorem stepRunsDecoded : Obligations.StepRunsDecoded := by
  unfold Obligations.StepRunsDecoded
  intro s j c ws i powered inputs arrivals adds watchers job code stopped ready stops halting entering stall results few
    cached short whole
  obtain ⟨cnt, parked, fns, ticked, cores, counts⟩ := tick_ticked s
  refine ⟨s.ticked cnt parked fns, rfl, cores, counts, fun t ran => ?_⟩
  have fetched : (s.ticked cnt parked fns).fetch = .ok (i, s.ticked cnt parked fns) :=
    fetch_cached job code few cached short whole
  have turn : s.turn = .run i (s.ticked cnt parked fns) := by
    simp only [State.turn, inputs, powered, if_true, ticked]
    calc (s.ticked cnt parked fns).ownTurn
      _ = (s.ticked cnt parked fns).coreTurn := ownTurn_core arrivals adds watchers
      _ = (s.ticked cnt parked fns).fetchTurn := coreTurn_fetch job stopped ready stops halting stall
      _ = .run i (s.ticked cnt parked fns) := fetchTurn_cached stall entering results fetched
  have stepped : step s = counted (s.ticked cnt parked fns) (.next t) := by
    simp only [step, turn, ran]
  obtain ⟨r, counted, rest, fn⟩ := counted_next (s.ticked cnt parked fns) t
  have core : r.core = t.core := (congrArg State.core rest).trans rfl
  rw [stepped, counted, State.orStalls, core]
  refine ⟨fun held => ?_, fun done => ⟨r, ?_, rest, fn⟩⟩
  · rw [if_pos held]
  · rw [if_neg (Bool.eq_false_iff.mp done)]

end Sys2Proof.Machine
end

section
/-! The scalar integer instructions (08 R156 to R159): each word operation of the model as the number its rule names. -/

namespace Sys2Proof.Machine

/-! ### Words as numbers -/

theorem mul_eq_ofNat (a b : Word) : a * b = BitVec.ofNat 64 (a.toNat * b.toNat) :=
  BitVec.eq_of_toNat_eq (by rw [BitVec.toNat_mul, BitVec.toNat_ofNat])

/-- The high half of the unsigned product (R156). -/
theorem mulHigh_unsigned (a b : Word) :
    (a.zeroExtend 128 * b.zeroExtend 128).extractLsb' 64 64 = BitVec.ofNat 64 (a.toNat * b.toNat / 2 ^ 64) := by
  have small : a.toNat * b.toNat < 2 ^ 64 * 2 ^ 64 := Nat.mul_lt_mul'' a.isLt b.isLt
  have product : (a.zeroExtend 128 * b.zeroExtend 128).toNat = a.toNat * b.toNat := by
    rw [BitVec.toNat_mul, BitVec.toNat_setWidth_of_le (by decide), BitVec.toNat_setWidth_of_le (by decide),
      Nat.mod_eq_of_lt (by omega)]
  rw [BitVec.extractLsb', product, Nat.shiftRight_eq_div_pow]

/-- The high half of the signed product (R156). -/
theorem mulHigh_signed (a b : Word) :
    (a.signExtend 128 * b.signExtend 128).extractLsb' 64 64 = BitVec.ofInt 64 (a.toInt * b.toInt / 2 ^ 64) := by
  have product : a.signExtend 128 * b.signExtend 128 = BitVec.ofInt 128 (a.toInt * b.toInt) :=
    (BitVec.ofInt_mul _ _).symm
  refine BitVec.eq_of_toNat_eq ?_
  rw [product, BitVec.extractLsb'_toNat, Nat.shiftRight_eq_div_pow, BitVec.toNat_ofInt, BitVec.toNat_ofInt]
  generalize a.toInt * b.toInt = p
  omega

theorem and_eq_ofNat (a b : Word) : a &&& b = BitVec.ofNat 64 (a.toNat &&& b.toNat) := by
  rw [← BitVec.toNat_and, BitVec.ofNat_toNat, BitVec.setWidth_eq]

theorem or_eq_ofNat (a b : Word) : a ||| b = BitVec.ofNat 64 (a.toNat ||| b.toNat) := by
  rw [← BitVec.toNat_or, BitVec.ofNat_toNat, BitVec.setWidth_eq]

theorem xor_eq_ofNat (a b : Word) : a ^^^ b = BitVec.ofNat 64 (a.toNat ^^^ b.toNat) := by
  rw [← BitVec.toNat_xor, BitVec.ofNat_toNat, BitVec.setWidth_eq]

theorem shiftLeft_eq_ofNat (a : Word) (k : Nat) : a <<< k = BitVec.ofNat 64 (a.toNat * 2 ^ k) :=
  BitVec.eq_of_toNat_eq (by rw [BitVec.toNat_shiftLeft, Nat.shiftLeft_eq, BitVec.toNat_ofNat])

theorem shiftRight_eq_ofNat (a : Word) (k : Nat) : a >>> k = BitVec.ofNat 64 (a.toNat / 2 ^ k) := by
  rw [← Nat.shiftRight_eq_div_pow, ← BitVec.toNat_ushiftRight, BitVec.ofNat_toNat, BitVec.setWidth_eq]

theorem sshiftRight_eq_ofInt (a : Word) (k : Nat) : a.sshiftRight k = BitVec.ofInt 64 (a.toInt / 2 ^ k) := by
  rw [BitVec.sshiftRight, Int.shiftRight_eq_div_pow]
  rfl

/-- The two parts of a rotated word share no bit, so their sum is the word (R156). -/
theorem rotateLeft_eq_ofNat (a : Word) {k : Nat} (h : k < 64) :
    a.rotateLeft k = BitVec.ofNat 64 (a.toNat * 2 ^ k + a.toNat / 2 ^ (64 - k)) := by
  have apart : a <<< k &&& a >>> (64 - k) = 0#64 := by
    refine BitVec.eq_of_getLsbD_eq fun i hi => ?_
    have past : ¬i < k → a.getLsbD (64 - k + i) = false := fun high => BitVec.getLsbD_of_ge a _ (by omega)
    by_cases low : i < k
    · simp [low]
    · simp [past low]
  calc a.rotateLeft k
    _ = a <<< k ||| a >>> (64 - k) := by rw [BitVec.rotateLeft_def, Nat.mod_eq_of_lt h]
    _ = a <<< k + a >>> (64 - k) := (BitVec.add_eq_or_of_and_eq_zero _ _ apart).symm
    _ = _ := by rw [shiftLeft_eq_ofNat, shiftRight_eq_ofNat, BitVec.ofNat_add]

theorem shiftOf_lt (b : Word) : shiftOf b < 64 := Nat.mod_lt _ (by decide)

/-! ### Comparisons -/

theorem b2w_eq_of_iff {c : Bool} {P : Prop} [Decidable P] (h : c = true ↔ P) : b2w c = if P then 1 else 0 := by
  rw [b2w]
  exact ite_congr (propext h) (fun _ => rfl) fun _ => rfl

/-- The choice by a strict order is that by the order, where equal operands leave no choice. -/
theorem ite_slt {a b x y : Word} (tie : a = b → x = y) :
    (if a.slt b then x else y) = if a.toInt ≤ b.toInt then x else y := by
  simp only [BitVec.slt_iff_toInt_lt]
  rcases Int.lt_trichotomy a.toInt b.toInt with less | equal | more
  · rw [if_pos less, if_pos (Int.le_of_lt less)]
  · rw [if_neg (by omega), if_pos (by omega), tie (BitVec.eq_of_toInt_eq equal)]
  · rw [if_neg (by omega), if_neg (by omega)]

theorem ite_ult {a b x y : Word} (tie : a = b → x = y) :
    (if a.ult b then x else y) = BitVec.ofNat 64 (if a.toNat ≤ b.toNat then x.toNat else y.toNat) := by
  rw [apply_ite (BitVec.ofNat 64), BitVec.ofNat_toNat, BitVec.ofNat_toNat, BitVec.setWidth_eq, BitVec.setWidth_eq]
  simp only [BitVec.ult_iff_toNat_lt]
  rcases Nat.lt_trichotomy a.toNat b.toNat with less | equal | more
  · rw [if_pos less, if_pos (Nat.le_of_lt less)]
  · rw [if_neg (by omega), if_pos (by omega), tie (BitVec.eq_of_toNat_eq equal)]
  · rw [if_neg (by omega), if_neg (by omega)]

/-- Settles O1: each result is the number that its rule names. -/
theorem integerResults : Obligations.IntegerResults := by
  unfold Obligations.IntegerResults
  intro o s a b u
  have gives {i : Instr} {v w : Word} (arm : exec i s = s.alu o v) (value : v = w) := gives_alu i s o v w arm value
  have count := shiftOf_lt b
  simp only [List.forall_mem_cons, List.not_mem_nil, false_implies, implies_true, and_true]
  exact ⟨gives rfl (BitVec.add_def a b), gives rfl (by rw [BitVec.sub_def, Nat.add_comm]), gives rfl (mul_eq_ofNat a b),
    gives rfl (mulHigh_signed a b), gives rfl (mulHigh_unsigned a b), gives rfl (and_eq_ofNat a b),
    gives rfl (or_eq_ofNat a b), gives rfl (xor_eq_ofNat a b), gives rfl (by rw [and_eq_ofNat, BitVec.toNat_not]),
    gives rfl (shiftLeft_eq_ofNat a _), gives rfl (shiftRight_eq_ofNat a _), gives rfl (sshiftRight_eq_ofInt a _),
    gives rfl (rotateLeft_eq_ofNat a count), gives rfl (ite_slt id), gives rfl (ite_slt Eq.symm),
    gives rfl (by rw [ite_ult id, ← Nat.min_def]), gives rfl (by rw [ite_ult Eq.symm, ← Nat.max_def]),
    gives rfl (b2w_eq_of_iff beq_iff_eq), gives rfl (b2w_eq_of_iff BitVec.slt_iff_toInt_lt),
    gives rfl (b2w_eq_of_iff BitVec.ult_iff_toNat_lt)⟩

/-! ### Counts of bits -/

theorem log2_toNat_lt {a : Word} (ha : a ≠ 0) : a.toNat ≠ 0 ∧ Nat.log2 a.toNat < 64 := by
  have nonzero : a.toNat ≠ 0 := fun zero => ha (BitVec.eq_of_toNat_eq zero)
  exact ⟨nonzero, (Nat.log2_lt nonzero).mpr a.isLt⟩

theorem clz64_le (a : Word) : clz64 a ≤ 64 := by
  rw [clz64]
  split <;> omega

/-- Every bit that CLZ counts is clear. -/
theorem getLsbD_of_clz64 {a : Word} {i : Nat} (counted : 64 - clz64 a ≤ i) : a.getLsbD i = false := by
  rw [clz64] at counted
  split at counted
  next zero => rw [zero, BitVec.ofNat_eq_ofNat, BitVec.getLsbD_zero]
  next ha =>
    obtain ⟨-, top⟩ := log2_toNat_lt ha
    rw [← BitVec.testBit_toNat]
    exact Nat.testBit_lt_two_pow (Nat.lt_of_lt_of_le Nat.lt_log2_self (Nat.pow_le_pow_right (by decide) (by omega)))

/-- The bit below those that CLZ counts is set. -/
theorem getLsbD_clz64 {a : Word} (found : clz64 a < 64) : a.getLsbD (63 - clz64 a) = true := by
  rw [clz64] at found ⊢
  split at found
  next => omega
  next ha =>
    obtain ⟨nonzero, top⟩ := log2_toNat_lt ha
    rw [if_neg ha, show 63 - (63 - Nat.log2 a.toNat) = Nat.log2 a.toNat by omega, ← BitVec.testBit_toNat]
    exact Nat.testBit_log2 nonzero

/-- The bit that is looked for lies in its range, and is the first one set there if ha is. -/
theorem lowBit_first (a : Word) (n i : Nat) : i ≤ lowBit a n i ∧ lowBit a n i ≤ i + n ∧
    (∀ k, i ≤ k → k < lowBit a n i → a.getLsbD k = false) ∧
    (lowBit a n i < i + n → a.getLsbD (lowBit a n i) = true) := by
  induction n generalizing i with
  | zero =>
    rw [lowBit]
    exact ⟨Nat.le_refl i, Nat.le_refl i, fun k past before => by omega, fun found => by omega⟩
  | succ n ih =>
    rw [lowBit]
    by_cases set : a.getLsbD i = true
    · rw [if_pos set]
      exact ⟨Nat.le_refl i, by omega, fun k past before => by omega, fun _ => set⟩
    · rw [if_neg set]
      obtain ⟨low, high, clear, first⟩ := ih (i + 1)
      refine ⟨by omega, by omega, fun k past before => ?_, fun found => first (by omega)⟩
      rcases Nat.eq_or_lt_of_le past with rfl | later
      · exact Bool.eq_false_iff.mpr set
      · exact clear k later before

theorem popTo_eq_length (a : Word) (n : Nat) : popTo a n = ((List.range n).filter (fun i => a.getLsbD i)).length := by
  induction n with
  | zero => rfl
  | succ n ih =>
    rw [popTo, ih, List.range_succ, List.filter_append, List.length_append]
    cases bit : a.getLsbD n <;> simp [bit, b2n]

/-- Settles O2: the bounds of each count, and the choice of SEL as the model makes it. -/
theorem bitCountResults : Obligations.BitCountResults := by
  unfold Obligations.BitCountResults
  intro o q s a
  have gives {i : Instr} {v w : Word} (arm : exec i s = s.alu o v) (value : v = w) := gives_alu i s o v w arm value
  obtain ⟨-, most, clear, first⟩ := lowBit_first a 64 0
  rw [Nat.zero_add] at most first
  exact ⟨⟨clz64 a, clz64_le a, fun i _ counted => getLsbD_of_clz64 counted, getLsbD_clz64, gives rfl rfl⟩,
    ⟨ctz64 a, most, fun i => clear i i.zero_le, first, gives rfl rfl⟩,
    gives rfl (by rw [popTo_eq_length]), gives rfl rfl⟩

/-! ### Division -/

/-- The signed quotient wraps in the one case that no word holds (R157). -/
theorem ofInt_tdiv (x y : Word) : BitVec.ofInt 64 (x.toInt.tdiv y.toInt) =
    if x.toInt = -(2 ^ 63) ∧ y.toInt = -1 then BitVec.ofInt 64 (-(2 ^ 63)) else BitVec.ofInt 64 (x.toInt.tdiv y.toInt) := by
  split
  next wraps =>
    rw [wraps.1, wraps.2]
    rfl
  next => rfl

/-- The remainder is what the quotient leaves, which is nothing where that wraps (R157). -/
theorem ofInt_tmod (x y : Word) : BitVec.ofInt 64 (x.toInt.tmod y.toInt) =
    if x.toInt = -(2 ^ 63) ∧ y.toInt = -1 then 0 else BitVec.ofInt 64 (x.toInt - x.toInt.tdiv y.toInt * y.toInt) := by
  split
  next wraps =>
    rw [wraps.1, wraps.2]
    rfl
  next => rw [Int.tmod_def, Int.mul_comm]

theorem divRem_eq (x y : Word) (signed : Bool) : divRem x y signed =
    (if y = 0 then BitVec.allOnes 64
        else if signed then BitVec.ofInt 64 (x.toInt.tdiv y.toInt) else BitVec.ofNat 64 (x.toNat / y.toNat),
      if y = 0 then x
        else if signed then BitVec.ofInt 64 (x.toInt.tmod y.toInt) else BitVec.ofNat 64 (x.toNat % y.toNat),
      if y = 0 then (if x = 0 then fINV else fDZ) else 0) := by
  rw [divRem]
  split
  next => rfl
  next => cases signed <;> rfl

/-- Settles O3: the quotient and the remainder of `divRem`, and its flags, which are the same for either sign. -/
theorem divisionResults : Obligations.DivisionResults := by
  unfold Obligations.DivisionResults
  intro o s x y ones flag wraps
  have gives {i : Instr} {signed : Bool} {v w : Word} (arm : exec i s = s.aluFlags o v (divRem x y signed).2.2)
      (value : v = w) : Gives i s (fun t => ScalarResult s t o.d.toNat w flag o.len) :=
    gives_aluF i s o v w _ flag arm value (congrArg (·.2.2) (divRem_eq x y signed))
  have quotient (signed : Bool) := congrArg (·.1) (divRem_eq x y signed)
  have remainder (signed : Bool) := congrArg (·.2.1) (divRem_eq x y signed)
  simp only [List.forall_mem_cons, List.not_mem_nil, false_implies, implies_true, and_true]
  exact ⟨gives (signed := false) rfl (quotient false),
    gives (signed := false) rfl ((remainder false).trans
      (ite_congr rfl (fun _ => rfl) fun _ => congrArg (BitVec.ofNat 64) Nat.mod_eq_sub_div_mul)),
    gives (signed := true) rfl ((quotient true).trans (ite_congr rfl (fun _ => rfl) fun _ => ofInt_tdiv x y)),
    gives (signed := true) rfl ((remainder true).trans (ite_congr rfl (fun _ => rfl) fun _ => ofInt_tmod x y))⟩

/-! ### Bit fields -/

/-- The low six bits of a number: a position, or a count (R158, R159). -/
theorem count_eq_mod (n : Nat) : bits n 5 0 = n % 64 := congrArg (· % 64) Nat.shiftRight_zero

/-- Position and corrected length of a field control (R158). -/
theorem fieldControl_eq (b : Word) : fieldControl b = (b.toNat % 64,
    if b.toNat / 256 % 128 = 0 ∨ 64 < b.toNat / 256 % 128 then 0
    else if 64 < b.toNat % 64 + b.toNat / 256 % 128 then 64 - b.toNat % 64 else b.toNat / 256 % 128) := by
  have length : bits b.toNat 14 8 = b.toNat / 256 % 128 := congrArg (· % 128) (Nat.shiftRight_eq_div_pow b.toNat 8)
  rw [fieldControl, length, count_eq_mod]

theorem getLsbD_bitExtract {a b : Word} {p n : Nat} (field : fieldControl b = (p, n)) {i : Nat} (hi : i < 64) :
    (bitExtract a b).getLsbD i = (decide (i < n) && a.getLsbD (p + i)) := by
  simp only [bitExtract, field, BitVec.getLsbD_and, BitVec.getLsbD_ushiftRight, BitVec.getLsbD_ofNat, hi,
    Nat.testBit_two_pow_sub_one, decide_true, Bool.true_and, Bool.and_comm]

theorem getLsbD_bitInsert {d a b : Word} {p n : Nat} (field : fieldControl b = (p, n)) {i : Nat} (hi : i < 64) :
    (bitInsert d a b).getLsbD i = if p ≤ i ∧ i < p + n then a.getLsbD (i - p) else d.getLsbD i := by
  simp only [bitInsert, field, BitVec.getLsbD_or, BitVec.getLsbD_and, BitVec.getLsbD_not, BitVec.getLsbD_shiftLeft,
    BitVec.getLsbD_ofNat, Nat.testBit_two_pow_sub_one, hi, decide_true, Bool.true_and]
  have inside : (!decide (i < p) && (decide (i - p < 64) && decide (i - p < n))) = decide (p ≤ i ∧ i < p + n) := by
    rw [← decide_not, ← Bool.decide_and, ← Bool.decide_and, decide_eq_decide]
    omega
  rw [inside]
  by_cases within : p ≤ i ∧ i < p + n
  · simp [within, show ¬i < p by omega]
  · simp [within]

/-- Settles O4: bit by bit, as the field control says. -/
theorem bitFieldResults : Obligations.BitFieldResults := by
  unfold Obligations.BitFieldResults
  intro o s c p n0 n
  have field : fieldControl (s.opB o) = (p, n) := fieldControl_eq _
  have gives {i : Instr} {v w : Word} (arm : exec i s = s.alu o v) (value : v = w) := gives_alu i s o v w arm value
  exact ⟨⟨_, fun i hi => getLsbD_bitExtract field hi, gives rfl rfl⟩,
    ⟨_, fun i hi => getLsbD_bitInsert field hi, gives rfl rfl⟩⟩

/-! ### Immediate operands -/

/-- An instruction whose meaning is `State.aluI` completes with its value. -/
theorem gives_aluI {i : Instr} {s : State} {d : BitVec 6} {v w : Word} (arm : exec i s = s.aluI d v) (value : v = w) :
    Gives i s (fun t => ScalarResult s t d.toNat w 0 1) :=
  value ▸ ⟨_, arm, scalar_ok s d.toNat v 1⟩

theorem toInt_value (o : OpI) : o.value.toInt = o.imm.toInt := BitVec.toInt_signExtend_of_le (by decide)

/-- Settles O5: the operations of the register forms, on the extended immediate and on the count. -/
theorem immediateResults : Obligations.ImmediateResults := by
  unfold Obligations.ImmediateResults
  intro o h s a i b k
  have below : a.slt o.value = true ↔ a.toInt < o.imm.toInt := by rw [BitVec.slt_iff_toInt_lt, toInt_value]
  have count : bits h.n.toNat 5 0 = k := count_eq_mod _
  simp only [List.forall_mem_cons, List.not_mem_nil, false_implies, implies_true, and_true]
  exact ⟨⟨gives_aluI rfl (BitVec.add_def a i), gives_aluI rfl (and_eq_ofNat a i), gives_aluI rfl (or_eq_ofNat a i),
      gives_aluI rfl (xor_eq_ofNat a i), gives_aluI rfl (b2w_eq_of_iff beq_iff_eq), gives_aluI rfl (b2w_eq_of_iff below)⟩,
    gives_aluI rfl (count ▸ shiftLeft_eq_ofNat b k), gives_aluI rfl (count ▸ shiftRight_eq_ofNat b k),
    gives_aluI rfl (count ▸ sshiftRight_eq_ofInt b k)⟩

end Sys2Proof.Machine
end

section
/-! The scalar floating-point instructions (08 R160 to R162): the exact result of each, rounded and written by one operation
of the model. -/

namespace Sys2Proof.Machine

/-! ### The result of a rounding -/

theorem setS_orFlags (s : State) (f : BitVec 5) (r : Nat) (v : Word) :
    (s.orFlags f).setS r v = (s.setS r v).orFlags f := by
  unfold State.setS
  split <;> rfl

/-- A result, flags and substream 0 as a rounding gave them (R65, R70, R160). -/
theorem scalarResult_rounded (s : State) (d n : Nat) (x : Nat × Rnd) :
    ScalarResult { s with core := { s.core with sub := upd 0 s.core.sub 0 x.2.st } }
      ((((s.upCore fun c => { c with sub := upd 0 c.sub 0 x.2.st }).orFlags x.2.fl).setS d (BitVec.ofNat 64 x.1)).advance n)
      d (BitVec.ofNat 64 x.1) x.2.fl n := by
  rw [setS_orFlags]
  exact scalarF_ok _ _ _ _ _

/-- What `State.fpWrite` writes is the one rounding of its value. -/
theorem gives_fpWrite {i : Instr} {s : State} {o : OpA} {f : Fmt} {m : Nat} {r : Val × BitVec 5}
    (arm : exec i s = s.fpWrite f m r o) : Gives i s (fun t => FloatResult s t o f m r) :=
  ⟨_, arm, scalarResult_rounded s o.d.toNat o.len _⟩

/-- Settles O6: each instruction is one rounding of its exact result, in either format. -/
theorem floatResults : Obligations.FloatResults := by
  unfold Obligations.FloatResults
  intro o m s dbl
  cases dbl
  all_goals
    intro f of x z y pick
    simp only [List.forall_mem_cons, List.not_mem_nil, false_implies, implies_true, and_true]
    exact ⟨gives_fpWrite rfl, gives_fpWrite rfl, gives_fpWrite rfl, gives_fpWrite rfl, gives_fpWrite rfl,
      gives_fpWrite rfl, gives_fpWrite rfl, gives_fpWrite rfl⟩

/-! ### Comparisons -/

theorem isSig_of_not_isNaN {x : Val} (number : x.isNaN = false) : x.isSig = false := by
  cases x with
  | nan b => cases number
  | inf _ | fin _ _ _ => rfl

/-- INV of a comparison: for any NaN under the conditions of order, for a signalling one under the others (R161). -/
theorem fcmpFlags_eq (m : BitVec 3) (x y : Val) : fcmpFlags m.toNat x y = if !(x.isNaN || y.isNaN) then 0 else
    if m = 1 ∨ m = 2 ∨ x.isSig = true ∨ y.isSig = true then fINV else 0 := by
  have order : m.toNat = 1 ∨ m.toNat = 2 ↔ m = 1 ∨ m = 2 := by
    rw [← BitVec.toNat_inj, ← BitVec.toNat_inj]
    rfl
  have quiet : (x.isNaN || y.isNaN) = false → x.isSig = false ∧ y.isSig = false := fun numbers =>
    (Bool.or_eq_false_iff.mp numbers).imp isSig_of_not_isNaN isSig_of_not_isNaN
  simp only [fcmpFlags, order]
  by_cases ordered : m = 1 ∨ m = 2
  · rw [if_pos ordered, if_pos (or_assoc.mp (.inl ordered))]
    cases x.isNaN || y.isNaN <;> rfl
  · simp only [← or_assoc, ordered, false_or, nanFlags, List.any_cons, List.any_nil, Bool.or_false,
      Bool.or_eq_true]
    cases nan : x.isNaN || y.isNaN
    · simp [quiet nan]
    · rfl

/-- R161: the comparison and its flags, for either format. -/
theorem floatCompares : FloatCompares := by
  intro o m s cond dbl of x y i nan v fl
  have arm : exec i s = s.aluFlags o (b2w (fcmpHolds m.toNat x y)) (fcmpFlags m.toNat x y) := by
    cases dbl <;> rfl
  refine gives_aluF i s o _ v _ fl arm ?_ (fcmpFlags_eq m x y)
  unfold fcmpHolds
  by_cases unordered : nan = true
  · rw [if_pos unordered, show v = _ from if_pos unordered]
    exact b2w_eq_of_iff (beq_iff_eq.trans (BitVec.toNat_inj (y := 3#3)))
  · rw [if_neg unordered, show v = _ from if_neg unordered]
    match m.toNat with
    | 0 => exact b2w_eq_of_iff beq_iff_eq
    | 1 | 2 => exact b2w_eq_of_iff decide_eq_true_iff
    | _ + 3 => rfl

/-! ### Conversions -/

/-- What each code of FCVT rounds, and into what format (R162). -/
theorem fpConvert_of_code (s : State) (dbl : Bool) (m : Nat) (o : OpA) :
    (o.b.toNat = 0 → s.fpConvert dbl m o = s.fpWrite (fpOf dbl) m (fpVal (!dbl) (s.opA o), 0) o) ∧
    (o.b.toNat = 1 → s.fpConvert dbl m o = s.fpWrite (fpOf dbl) m (Val.ofInt (s.opA o).toInt, 0) o) ∧
    (o.b.toNat = 2 → s.fpConvert dbl m o = s.fpWrite (fpOf dbl) m (Val.ofInt (s.opA o).toNat, 0) o) ∧
    (o.b.toNat = 3 → s.fpConvert dbl m o = s.fpWrite (.int 64) m (s.fpA dbl o, 0) o) ∧
    (o.b.toNat = 4 → s.fpConvert dbl m o = s.fpWrite (.uint 64) m (s.fpA dbl o, 0) o) := by
  refine ⟨?_, ?_, ?_, ?_, ?_⟩
  all_goals
    intro code
    simp only [State.fpConvert, code]

/-- R162: each conversion rounds its operand once. -/
theorem floatConverts : FloatConverts := by
  intro o m s a f32 f64 int nat
  have gives {i : Instr} {dbl : Bool} {k : Nat} {f : Fmt} {x : Val} (arm : exec i s = s.fpConvert dbl m.toNat o)
      (writes : o.b.toNat = k → s.fpConvert dbl m.toNat o = s.fpWrite f m.toNat (x, 0) o) (code : o.b.toNat = k) :=
    gives_fpWrite (arm.trans (writes code))
  obtain ⟨single0, single1, single2, single3, single4⟩ := fpConvert_of_code s false m.toNat o
  obtain ⟨double0, double1, double2, double3, double4⟩ := fpConvert_of_code s true m.toNat o
  simp only [List.forall_mem_cons, List.not_mem_nil, false_implies, implies_true, and_true]
  exact ⟨⟨gives rfl single0, gives rfl single1, gives rfl single2, gives rfl single3, gives rfl single4⟩,
    gives rfl double0, gives rfl double1, gives rfl double2, gives rfl double3, gives rfl double4⟩

/-- Settles O7: FCMP by its condition and its operands, FCVT by its code. -/
theorem floatComparesAndConverts : Obligations.FloatComparesAndConverts := ⟨floatCompares, floatConverts⟩

end Sys2Proof.Machine
end

section
/-! Stage predicates, branches and calls (08 R163 to R166): what a transfer does with a target that R164 admits and with one
that it does not. -/

namespace Sys2Proof.Machine

/-- Settles O8: each instruction is `State.predicate` of its value. -/
theorem predicateResults : Obligations.PredicateResults := by
  unfold Obligations.PredicateResults
  intro o s number q
  have gives {i : Instr} {b c : Bool} (arm : exec i s = s.predicate o b) (value : b = c) :
      Gives i s (fun t => PredicateResult s t o.d.toNat c) := value ▸ ⟨_, arm, setQ_ok s o.d.toNat number b⟩
  simp only [List.forall_mem_cons, List.not_mem_nil, false_implies, implies_true, and_true]
  exact ⟨gives rfl (Bool.eq_iff_iff.mpr (bne_iff_ne.trans decide_eq_true_iff.symm)), gives rfl rfl, gives rfl rfl, gives rfl rfl⟩

/-! ### Transfers to bad targets (R164, R422) -/

theorem targetGood_of_targetOk {s : State} {n : Nat} (short : s.codeLength ≤ 2 ^ 48)
    (ok : targetOk s.codeLength n = true) : TargetGood s n := by
  simp only [targetOk, Bool.and_eq_true, beq_iff_eq, decide_eq_true_eq] at ok
  exact ⟨by omega, by omega, by omega, by omega⟩

/-- The target of a branch as R164 checks it, modulo 2^64, is the target itself, unless it lies beyond all code (R141). -/
theorem target_of_lt {s : State} {o : OpB} (small : s.target o < 2 ^ 48) :
    (s.target o : Int) = (s.core.pc.toNat : Int) + 4 * o.disp.toInt := by
  have pc := s.core.pc.isLt
  have high := BitVec.toInt_lt (x := o.disp)
  have low := BitVec.le_toInt o.disp
  have modulus : ((2 ^ 64 : Nat) : Int) = 18446744073709551616 := rfl
  simp only [State.target, targetNat, wrapTo, branchTarget, modulus] at small ⊢
  omega

/-- A transfer to a bad target ends without its effect. -/
theorem goto_bad {s : State} {n : Nat} (bad : targetOk s.codeLength n = false) (f : State → State) :
    s.goto n f = .error (.trap 2 0, s) := by
  rw [State.goto, bad]
  rfl

/-- An instruction that ends as its transfer does, traps where the transfer's target is bad. -/
theorem refusesTarget_of_goto {s : State} {i : Instr} {n : Nat} {target : Int}
    (reads : n < 2 ^ 48 → (n : Int) = target)
    (arm : ∀ r, (∀ f, s.goto n f = .error r) → exec i s = retire (.error r)) : RefusesTarget s i target := by
  intro short bad vec ready
  have refused : targetOk s.codeLength n = false := Bool.eq_false_iff.mpr fun ok => by
    have good := targetGood_of_targetOk short ok
    have inside : n < 2 ^ 48 := by
      obtain ⟨-, -, -, inside⟩ := good
      omega
    exact bad (reads inside ▸ good)
  exact gives_fault (c := 2) ready (arm _ (goto_bad refused))

/-! ### Branches and calls -/

/-- The three outcomes of a branch: taken to a good target, taken to a bad one, not taken (R164, R165). -/
theorem branch_outcomes {i : Instr} {s : State} {o : OpB} {c : Bool} {P : Prop} (arm : exec i s = s.branch c o)
    (holds : c = true ↔ P) :
    let target := (s.core.pc.toNat : Int) + 4 * o.disp.toInt
    (P → TargetGood s target → Gives i s (fun t => PcOnly s t (BitVec.ofInt 48 target))) ∧
    (P → RefusesTarget s i target) ∧ (¬P → Gives i s (fun t => PcOnly s t (s.core.pc + 4))) := by
  intro target
  obtain ⟨taken, fallsThrough⟩ := branch_ok i s o c P arm holds
  refine ⟨taken, fun condition => refusesTarget_of_goto target_of_lt fun r refused => ?_, fallsThrough⟩
  rw [arm, State.branch, if_pos (holds.mpr condition), refused]

/-- Settles O9: each branch is `State.branch` under its condition. -/
theorem branchResults : Obligations.BranchResults := by
  unfold Obligations.BranchResults
  intro o s
  have zero (a : Word) : a = 0 ↔ a.toInt = 0 := (BitVec.toInt_inj (y := 0)).symm
  have number : bits o.a.toNat 2 0 = o.a.toNat % 8 := congrArg (· % 8) Nat.shiftRight_zero
  simp only [branches, List.forall_mem_cons, List.not_mem_nil, false_implies, implies_true, and_true]
  exact ⟨branch_outcomes rfl (iff_of_true rfl trivial), branch_outcomes rfl (beq_iff_eq.trans (zero _)),
    branch_outcomes rfl (bne_iff_ne.trans (not_congr (zero _))), branch_outcomes rfl decide_eq_true_iff,
    branch_outcomes rfl decide_eq_true_iff, branch_outcomes rfl decide_eq_true_iff,
    branch_outcomes rfl decide_eq_true_iff,
    branch_outcomes rfl (by rw [number]; rfl), branch_outcomes rfl (by rw [number, Bool.not_eq_true']; rfl)⟩

/-- Settles O10: each is a transfer, CALL one that also writes its link. -/
theorem callResults : Obligations.CallResults := by
  unfold Obligations.CallResults
  intro o s go
  have gives {i : Instr} {n : Nat} (arm : exec i s = retire (s.goto n fun s => s)) (good : go n) :
      Gives i s (fun t => PcOnly s t (BitVec.ofNat 48 n)) :=
    ⟨s.jump n, arm.trans (congrArg retire (gotoN s _ n good)), rfl⟩
  have refuses {i : Instr} {n : Nat} {f : State → State} (arm : exec i s = retire (s.goto n f)) : RefusesTarget s i n :=
    refusesTarget_of_goto (fun _ => rfl) fun r refused => arm.trans (congrArg retire (refused f))
  refine ⟨refuses rfl, refuses rfl, refuses rfl, gives rfl, gives rfl,
    fun good => ⟨_, congrArg retire (gotoN s _ _ good), _, scalar_ok s o.d.toNat _ 0, ?_⟩⟩
  simp [PcOnly, State.jump, State.advance, State.upCore]

end Sys2Proof.Machine
end

section
/-! Hardware loops (08 R167, R168; 23 R463, R464): what each form does to the registers, and where it goes. -/

namespace Sys2Proof.Machine

/-- A transfer to a good target sets the program counter to it, beside its effect. -/
theorem goto_target {s : State} {o : OpB} (good : TargetGood s ((s.core.pc.toNat : Int) + 4 * o.disp.toInt))
    (f : State → State) : s.goto (s.target o) f =
      .ok ((f s).upCore fun c => { c with pc := BitVec.ofInt 48 ((s.core.pc.toNat : Int) + 4 * o.disp.toInt) }) := by
  obtain ⟨went, counter⟩ := goto_ok s f _ good
  rw [← counter]
  exact went

/-! ### Loops that start -/

/-- What a loop instruction leaves, from what it does to the registers. -/
theorem loopResult_upRegs {s : State} {n : Nat} {lc itc : W32} {pc : BitVec 48} {f h : Regs → Regs}
    (regs : h s.core.live = f { s.core.live with
      lc := upd 0 s.core.live.lc n lc, itc := upd 0 s.core.live.itc n itc }) :
    LoopResult s ((s.upRegs h).upCore fun c => { c with pc := pc }) n lc itc pc f := by
  rw [LoopResult, ← regs]
  rfl

theorem toNat_of_toInt_pos {c : Word} (above : 0 < c.toInt) : (c.toNat : Int) = c.toInt := by
  have top := c.isLt
  rw [BitVec.toInt_eq_toNat_cond] at above ⊢
  split <;> omega

theorem loopCount_small {c : Word} (above : 0 < c.toInt) (small : c.toInt < 2 ^ 32) :
    loopCount c = (BitVec.ofInt 32 c.toInt, 0) := by
  have number := toNat_of_toInt_pos above
  rw [loopCount, if_neg (by omega), if_pos (by omega), ← number, BitVec.ofInt_natCast, BitVec.ofNat_toNat]

theorem loopCount_large {c : Word} (large : 2 ^ 32 ≤ c.toInt) : loopCount c = (0xFFFFFFFF, fOVF) := by
  have number := toNat_of_toInt_pos (c := c) (by omega)
  rw [loopCount, if_neg (by omega), if_neg (by omega)]

/-- The registers of a loop skipped by a count at or below zero: its counter and its iteration count 0 (R167, R168). -/
def Regs.loopSkipped (g : Regs) (n : Nat) (pipe : Bool) : Regs := { g with
  lc := upd 0 g.lc n 0
  itc := upd 0 g.itc n 0
  lsp := upd false g.lsp n pipe
  q := if pipe then 0 else g.q }

theorem loopStart_skips {s : State} {o : OpB} (spent : (s.getS o.a.toNat).toInt ≤ 0) (n : Nat) (pipe : Bool) :
    s.loopStart n o pipe = retire (s.goto (s.target o) fun s => s.upRegs fun g => g.loopSkipped n pipe) := by
  refine (if_pos spent).trans ?_
  cases pipe <;> rfl

/-- The registers of a loop started with its counter at `lc` (R167, R168). -/
def Regs.loopStarted (g : Regs) (n : Nat) (pipe : Bool) (lc : W32) (f : BitVec 5) : Regs :=
  let t : Regs := { g with
    lc := upd 0 g.lc n lc
    itc := upd 0 g.itc n 0
    lsp := upd false g.lsp n pipe
    flags := g.flags ||| BitVec.zeroExtend 64 f }
  if pipe then { t with q := 1, rbs := 0, rbv := 0, rbk := 0 } else t

theorem loopStart_starts {s : State} {o : OpB} {lc : W32} {f : BitVec 5} (above : 0 < (s.getS o.a.toNat).toInt)
    (count : loopCount (s.getS o.a.toNat) = (lc, f)) (n : Nat) (pipe : Bool) :
    s.loopStart n o pipe = .next ((s.upRegs fun g => g.loopStarted n pipe lc f).advance 1) := by
  rw [State.loopStart, count]
  refine (if_neg (by omega)).trans ?_
  cases pipe <;> rfl

theorem or_noFlag (w : Word) : w ||| BitVec.zeroExtend 64 (0 : BitVec 5) = w := by simp

/-- Settles O11: by the count, the loop is skipped or starts, its counter as the count says. -/
theorem loopInit : Obligations.LoopInit := by
  unfold Obligations.LoopInit
  intro n o s c target plain pipe start ovf i j
  have plainArm : exec i s = s.loopStart n.toNat o false := rfl
  have pipeArm : exec j s = s.loopStart n.toNat o true := rfl
  refine ⟨fun spent => ?_, fun spent good => ?_, fun above small => ?_, fun large => ?_⟩
  · have refuses {i : Instr} {b : Bool} (arm : exec i s = s.loopStart n.toNat o b) : RefusesTarget s i target :=
      refusesTarget_of_goto target_of_lt fun r refused =>
        arm.trans ((loopStart_skips spent _ _).trans (congrArg retire (refused _)))
    exact ⟨refuses plainArm, refuses pipeArm⟩
  · have skips {i : Instr} {b : Bool} (arm : exec i s = s.loopStart n.toNat o b) :=
      arm.trans ((loopStart_skips spent _ _).trans (congrArg retire (goto_target good _)))
    exact ⟨⟨_, skips plainArm, loopResult_upRegs rfl⟩, ⟨_, skips pipeArm, loopResult_upRegs rfl⟩⟩
  · have starts := loopStart_starts above (loopCount_small above small) n.toNat
    exact ⟨⟨_, plainArm.trans (starts false), loopResult_upRegs (by rw [Regs.loopStarted, or_noFlag]; rfl)⟩,
      ⟨_, pipeArm.trans (starts true), loopResult_upRegs (by rw [Regs.loopStarted, or_noFlag]; rfl)⟩⟩
  · have above : 0 < c := by omega
    have starts := loopStart_starts above (loopCount_large large) n.toNat
    exact ⟨⟨_, plainArm.trans (starts false), loopResult_upRegs rfl⟩,
      ⟨_, pipeArm.trans (starts true), loopResult_upRegs rfl⟩⟩

/-! ### Back-edges -/

/-- Nothing follows the back-edge of a strand that the debug port does not watch (R460, R464). -/
theorem afterBackEdge_unwatched {s : State} (going : s.core.stopPending = false) (shut : s.trust.debugOpen = false)
    (n : Nat) (pipe : Bool) (pc : BitVec 48) : s.afterBackEdge n pipe pc = s := by
  rw [State.afterBackEdge, trace_shut _ _ _ _ _ _ shut, State.stopPoint, going]
  rfl

/-- A back-edge of loop `n` under a condition, with what it does to the registers (R167, R168). -/
def State.edge (s : State) (o : OpB) (taken : Prop) [Decidable taken] (h : Regs → Regs) (n : Nat) (pipe : Bool) :
    Res State :=
  match (if taken then s.goto (s.target o) fun s => s.upRegs h else .ok ((s.upRegs h).advance 1) : Res State) with
  | .ok t => .ok (t.afterBackEdge n pipe s.core.pc)
  | e => e

theorem edge_taken {s t : State} {o : OpB} {taken : Prop} [Decidable taken] {h : Regs → Regs} (condition : taken)
    (went : (s.goto (s.target o) fun s => s.upRegs h) = .ok t) (going : t.core.stopPending = false)
    (shut : t.trust.debugOpen = false) (n : Nat) (pipe : Bool) : s.edge o taken h n pipe = .ok t := by
  rw [State.edge, if_pos condition, went]
  exact congrArg Except.ok (afterBackEdge_unwatched going shut n pipe _)

theorem edge_falls {s t : State} {o : OpB} {taken : Prop} [Decidable taken] {h : Regs → Regs} (condition : ¬taken)
    (went : (s.upRegs h).advance 1 = t) (going : t.core.stopPending = false)
    (shut : t.trust.debugOpen = false) (n : Nat) (pipe : Bool) : s.edge o taken h n pipe = .ok t := by
  rw [State.edge, if_neg condition, went]
  exact congrArg Except.ok (afterBackEdge_unwatched going shut n pipe _)

/-- The three outcomes of a back-edge: taken to a good target, taken to a bad one, not taken. -/
theorem edge_outcomes {i : Instr} {s : State} {o : OpB} {taken : Prop} [Decidable taken] {f h : Regs → Regs} {n : Nat}
    {lc itc : W32} {pipe : Bool} (arm : exec i s = retire (s.edge o taken h n pipe)) (going : s.core.stopPending = false)
    (shut : s.trust.debugOpen = false) (regs : h s.core.live = f { s.core.live with
      lc := upd 0 s.core.live.lc n lc, itc := upd 0 s.core.live.itc n itc }) :
    let target := (s.core.pc.toNat : Int) + 4 * o.disp.toInt
    (taken → RefusesTarget s i target) ∧
    (taken → TargetGood s target → Gives i s (fun t => LoopResult s t n lc itc (BitVec.ofInt 48 target) f)) ∧
    (¬taken → Gives i s (fun t => LoopResult s t n lc itc (s.core.pc + 4) f)) := by
  intro target
  refine ⟨fun condition => refusesTarget_of_goto target_of_lt fun r refused => ?_, fun condition good => ?_,
    fun condition => ?_⟩
  · rw [arm, State.edge, if_pos condition, refused]
  · exact ⟨_, arm.trans (congrArg retire (edge_taken condition (goto_target good _) going shut n pipe)),
      loopResult_upRegs regs⟩
  · exact ⟨_, arm.trans (congrArg retire (edge_falls condition rfl going shut n pipe)), loopResult_upRegs regs⟩

theorem exec_loop (n : BitVec 2) (o : OpB) (s : State) : exec (.loop n o) s =
    retire (s.edge o (decLc (s.getLc n.toNat) ≠ 0) (fun g => { g with
      lc := upd 0 g.lc n.toNat (decLc (s.getLc n.toNat))
      itc := upd 0 g.itc n.toNat (s.core.live.itc.getD n.toNat 0 + 1) }) n.toNat false) := rfl

/-- R167: the back-edge of a plain loop, taken while its counter is not zero. -/
theorem backEdge : BackEdge := by
  intro n o s going shut lc new itc target
  obtain ⟨refuses, taken, falls⟩ := edge_outcomes (f := id) (lc := new) (itc := itc) (exec_loop n o s) going shut rfl
  refine ⟨refuses, taken, fun spent => ?_⟩
  have fell := falls (not_not_intro spent)
  rw [spent] at fell
  exact fell

/-! ### Pipelined loops -/

theorem rotated_eq (rb size : Nat) : rotated rb size = if size = 0 then rb else (((rb : Int) - 1) % size).toNat := by
  rw [rotated]
  split
  next => rfl
  next rotates =>
    have turned : ((rb : Int) - 1) % size = ((rb + size - 1 : Nat) : Int) % size := by
      rw [← Int.add_emod_right, show ((rb + size - 1 : Nat) : Int) = rb - 1 + size by omega]
    rw [turned, ← Int.natCast_emod, Int.toNat_natCast]

/-- One of the low `n` bits is set where the number they make is not zero. -/
theorem mod_two_pow_ne_zero_iff {w : Nat} (x : BitVec w) (n : Nat) :
    x.toNat % 2 ^ n ≠ 0 ↔ ∃ i, i < n ∧ x.getLsbD i = true := by
  constructor
  · intro nonzero
    obtain ⟨i, bit⟩ := Nat.exists_testBit_of_ne_zero nonzero
    rw [Nat.testBit_mod_two_pow, Bool.and_eq_true, decide_eq_true_eq] at bit
    exact ⟨i, bit⟩
  · rintro ⟨i, low, bit⟩ zero
    have clear : (x.toNat % 2 ^ n).testBit i = false := by rw [zero, Nat.zero_testBit]
    rw [Nat.testBit_mod_two_pow, decide_eq_true low, Bool.true_and, BitVec.testBit_toNat, bit] at clear
    cases clear

/-- The stage predicates shifted by one, predicate 0 set while more is to start (R168). -/
def shifted (q : BitVec 8) (more : Prop) [Decidable more] : BitVec 8 := q <<< 1 ||| if more then 1 else 0

theorem getLsbD_shifted (q : BitVec 8) (more : Prop) [Decidable more] {i : Nat} (hi : i < 8) :
    (shifted q more).getLsbD i = if i = 0 then decide more else q.getLsbD (i - 1) := by
  rw [shifted, BitVec.getLsbD_or, BitVec.getLsbD_shiftLeft]
  cases i with
  | zero => by_cases start : more <;> simp [start]
  | succ i => by_cases start : more <;> simp [start, hi]

/-- The stage predicates after a back-edge of loop `n` (R168). -/
def State.nextStages (s : State) (n : Nat) : BitVec 8 := shifted s.core.live.q (decLc (s.getLc n) ≠ 0)

theorem exec_loopsp (n : BitVec 2) (o : OpB) (s : State) : exec (.loopsp n o) s =
    retire (s.edge o ((s.nextStages n.toNat).toNat % 2 ^ (o.a.toNat % 8 + 1) ≠ 0) (fun g => { g with
      lc := upd 0 g.lc n.toNat (decLc (s.getLc n.toNat))
      itc := upd 0 g.itc n.toNat (s.core.live.itc.getD n.toNat 0 + 1)
      q := s.nextStages n.toNat
      rbs := rotated g.rbs s.core.lim.rots
      rbv := rotated g.rbv s.core.lim.rotv
      rbk := rotated g.rbk s.core.lim.rotk }) n.toNat true) := rfl

/-- R168: the back-edge of a pipelined loop, taken while one of its stage predicates is set. -/
theorem pipelinedBack : PipelinedBack := by
  intro n o s going shut lc new itc target stages l rot
  have rotates : rot = rotated := funext fun rb => funext fun size => (rotated_eq rb size).symm
  refine ⟨s.nextStages n.toNat, fun i hi => getLsbD_shifted _ _ hi, ?_⟩
  intro f
  have someStage := mod_two_pow_ne_zero_iff (s.nextStages n.toNat) stages
  obtain ⟨refuses, taken, falls⟩ := edge_outcomes (f := f) (lc := new) (itc := itc) (exec_loopsp n o s) going shut
    (by simp only [f, rotates]; rfl)
  refine ⟨fun stage => refuses (someStage.mpr stage), fun stage => taken (someStage.mpr stage), fun drained => falls ?_⟩
  intro nonzero
  obtain ⟨i, low, bit⟩ := someStage.mp nonzero
  rw [drained i low] at bit
  cases bit

/-- Settles O12: the back-edges of both forms. -/
theorem loopBackEdges : Obligations.LoopBackEdges := ⟨backEdge, pipelinedBack⟩

end Sys2Proof.Machine
end

section
/-! Region boundaries, the instructions that trap, and the end of a strand (08 R178 to R180; 20 R409, R413, R420, R424;
24 R474, R475). -/

namespace Sys2Proof.Machine

/-- Settles O13: RGN closes its region, acts between the two by moving on alone, and opens the next. -/
theorem regionBoundary : Obligations.RegionBoundary := by
  unfold Obligations.RegionBoundary
  intro o s u
  refine ⟨⟨_, rfl, rfl⟩, fun drained => ?_⟩
  have between : s.between (fun s => .ok (s.advance 1)) =
      .ok (((u.upCore fun c => c.emptied.shut).advance 1).upCore fun c => c.reopen s.core.closed) := by
    rw [State.between, State.closeRegion, drained]
    rfl
  exact ⟨_, congrArg retire between, nextRegion_reopen s.core.closed rfl rfl, rfl, rfl, rfl, rfl, rfl, rfl⟩

/-! ### Traps -/

/-- R178: BRK and SYSCALL trap, the one at itself and the other at the next instruction. -/
theorem trapsAlways : TrapsAlways := fun o s vec ready =>
  ⟨⟨_, rfl, trapEntry_ready s vec 0x15 false 0 s.core.pc ready⟩,
    ⟨_, rfl, trapEntry_ready s vec 0x16 false (s.opB o) (s.core.pc + BitVec.ofNat 48 (4 * o.len)) ready⟩⟩

/-- R180: TRAPF traps with the enabled flags where there are any. -/
theorem trapsOnFlags : TrapsOnFlags := by
  intro o s f
  refine ⟨fun clear => ⟨_, if_neg (not_not_intro clear), rfl⟩, fun vec raised ready => ⟨_, if_pos raised, ?_⟩⟩
  exact trapEntry_ready s vec 0x14 false f (s.core.pc + 4) ready

/-- Settles O14: each instruction is trap entry. -/
theorem trapInstructions : Obligations.TrapInstructions := ⟨trapsAlways, trapsOnFlags⟩

/-! ### The end of a strand -/

theorem mem_insertNum (l : List Nat) (n : Nat) : n ∈ insertNum l n := by
  induction l with
  | nil => exact List.mem_singleton_self n
  | cons k l ih =>
    rw [insertNum]
    split
    next => exact List.mem_cons_self
    next =>
      split
      next same => exact same ▸ List.mem_cons_self
      next => exact List.mem_cons_of_mem k ih

theorem num_of_launch? {s : State} {n : Nat} {l : Launch} (found : s.launch? n = some l) : l.num = n := by
  unfold State.launch? at found
  simpa using List.find?_some found

/-- A launch is found by its number after launches of a number were changed. -/
theorem launch?_upLaunch (s : State) (k n : Nat) {f : Launch → Launch} (number : ∀ l, (f l).num = l.num) :
    (s.upLaunch k f).launch? n = (s.launch? n).map fun l => if l.num = k then f l else l := by
  have same : (fun l : Launch => l.num == n) ∘ (fun l => if l.num = k then f l else l) = fun l => l.num == n := by
    funext l
    rw [Function.comp_apply, apply_ite Launch.num, number, ite_self]
  show List.find? _ (List.map _ _) = _
  rw [List.find?_map, same]
  rfl

theorem launch?_upLaunch_self {s : State} {n : Nat} {l : Launch} {f : Launch → Launch} (found : s.launch? n = some l)
    (number : ∀ l, (f l).num = l.num) : (s.upLaunch n f).launch? n = some (f l) := by
  rw [launch?_upLaunch s n n number, found, Option.map_some, if_pos (num_of_launch? found)]

/-- The core stays, and every launch counts its strands, their ends and their statuses as before. -/
def State.countsKept (s t : State) : Prop :=
  t.core = s.core ∧ ∀ n l, s.launch? n = some l → ∃ m, t.launch? n = some m ∧
    m.live = l.live ∧ m.exited = l.exited ∧ m.bad = l.bad ∧ m.exits = l.exits

theorem countsKept_refl (s : State) : s.countsKept s := ⟨rfl, fun _ l found => ⟨l, found, rfl, rfl, rfl, rfl⟩⟩

theorem countsKept_trans {s t u : State} (h : s.countsKept t) (k : t.countsKept u) : s.countsKept u := by
  obtain ⟨core, counts⟩ := h
  obtain ⟨core', counts'⟩ := k
  refine ⟨core'.trans core, fun n l found => ?_⟩
  obtain ⟨m, found, live, exited, bad, exits⟩ := counts n l found
  obtain ⟨m', found', live', exited', bad', exits'⟩ := counts' n m found
  exact ⟨m', found', live'.trans live, exited'.trans exited, bad'.trans bad, exits'.trans exits⟩

theorem countsKept_upLaunch (s : State) (k : Nat) {f : Launch → Launch} (number : ∀ l, (f l).num = l.num)
    (counts : ∀ l, (f l).live = l.live ∧ (f l).exited = l.exited ∧ (f l).bad = l.bad ∧ (f l).exits = l.exits) :
    s.countsKept (s.upLaunch k f) := by
  refine ⟨rfl, fun n l found => ⟨if l.num = k then f l else l, ?_, ?_⟩⟩
  · rw [launch?_upLaunch s k n number, found]
    rfl
  · split
    next => exact counts l
    next => exact ⟨rfl, rfl, rfl, rfl⟩

/-- Shares freed are no launches. -/
theorem countsKept_freeShares (s : State) (p : Share → Bool) : s.countsKept (s.freeShares p) := countsKept_refl s

theorem countsKept_freeCps (s : State) (p : CpShare → Bool) : s.countsKept (s.freeCps p) := countsKept_refl s

theorem countsKept_ite {s t u : State} {c : Prop} [Decidable c] (pos : c → s.countsKept t) (neg : ¬c → s.countsKept u) :
    s.countsKept (if c then t else u) := by
  split
  next h => exact pos h
  next h => exact neg h

/-- What a strand's end does for its gang leaves the counts (R114). -/
theorem countsKept_gangLeft (s : State) (n : Nat) : s.countsKept (s.gangLeft n) := by
  have saved : s.countsKept (s.gangSaved n) := by
    unfold State.gangSaved
    split
    next => exact countsKept_refl s
    next => exact countsKept_ite (fun _ => countsKept_upLaunch s n (fun _ => rfl) fun _ => ⟨rfl, rfl, rfl, rfl⟩)
              fun _ => countsKept_refl s
  unfold State.gangLeft
  split
  next => exact countsKept_ite (fun _ => saved) fun _ => countsKept_refl s
  next => exact countsKept_refl s

/-- The acting core idle and the end of its strand counted (R474, R475). -/
def State.endCounted (s : State) (j : Job) (status : Nat) : State :=
  (s.upCore Core.idle).upLaunch j.launch fun l => { l.strandEnds j status with arrivedAt := s.cycle.toNat }

/-- The shares of a core group that its last strand frees (R112). -/
def State.coreSharesEnded (s : State) (j : Job) (l : Launch) : State :=
  match j.coreGroup with
  | some g =>
    if (lookup l.coreLeft g).getD 0 = 0 then
      s.freeShares (fun h => h.launch == l.num && h.coreGroup == some g && h.alone.isNone)
    else s
  | none => s

/-- The shares that the end of strand `j` frees: its own, and those of its groups whose last strand it is (R112, R116). -/
def State.sharesEnded (s : State) (j : Job) (l : Launch) : State :=
  if l.hdr.mode = 1 then s
  else
    let t := (s.freeShares (fun h => h.launch == j.launch && h.alone == some j.strand)).coreSharesEnded j l
    if (lookup l.groupLeft j.group).getD 0 = 0 then
      t.freeCps (fun h => h.launch == l.num && h.group == j.group)
    else t

theorem countsKept_coreSharesEnded (s : State) (j : Job) (l : Launch) : s.countsKept (s.coreSharesEnded j l) := by
  unfold State.coreSharesEnded
  split
  next => exact countsKept_ite (fun _ => countsKept_freeShares s _) fun _ => countsKept_refl s
  next => exact countsKept_refl s

theorem countsKept_sharesEnded (s : State) (j : Job) (l : Launch) : s.countsKept (s.sharesEnded j l) := by
  refine countsKept_ite (fun _ => countsKept_refl s) fun _ => ?_
  have own := countsKept_freeShares s fun h => h.launch == j.launch && h.alone == some j.strand
  exact countsKept_trans (countsKept_trans own (countsKept_coreSharesEnded _ j l))
    (countsKept_ite (fun _ => countsKept_freeCps _ _) fun _ => countsKept_refl _)

/-- What follows the count of a strand's end leaves the counts (R112, R114, R116, R475). -/
theorem endStrand_countsKept {s : State} {j : Job} (job : s.core.job = some j) (status : Nat) :
    (s.endCounted j status).countsKept (s.endStrand status) := by
  have ends : s.endStrand status = match (s.endCounted j status).launch? j.launch with
      | none => s.endCounted j status
      | some l =>
        let t := (s.endCounted j status).sharesEnded j l
        if l.finished then t.upLaunch l.num (fun l => { l with state := .ending }) else t.gangLeft l.num := by
    rw [State.endStrand, job]
    rfl
  rw [ends]
  split
  next => exact countsKept_refl _
  next l found =>
    refine countsKept_trans (countsKept_sharesEnded _ j l) (countsKept_ite (fun _ => ?_) fun _ => countsKept_gangLeft _ _)
    exact countsKept_upLaunch _ _ (fun _ => rfl) fun _ => ⟨rfl, rfl, rfl, rfl⟩

/-- In `t` the strand of job `j` has ended with a status: the core is idle, and launch `l` has counted it (R474, R475). -/
def StrandEnded (t : State) (j : Job) (l : Launch) (status : Nat) : Prop :=
  t.core.job = none ∧ t.core.live = Regs.reset ∧
    ∃ l', t.launch? j.launch = some l' ∧ l'.live = l.live - 1 ∧ j.strand ∈ l'.exited ∧
      (status = 0 → l'.bad = l.bad ∧ l'.exits = l.exits) ∧
      (status ≠ 0 → l'.exits = l.exits + 1 ∧ (l.bad = none → l'.bad = some (j.workid.toNat, status)))

theorem strandEnds_counts (l : Launch) (j : Job) (status : Nat) :
    (status = 0 → (l.strandEnds j status).bad = l.bad ∧ (l.strandEnds j status).exits = l.exits) ∧
    (status ≠ 0 → (l.strandEnds j status).exits = l.exits + 1 ∧
      (l.bad = none → (l.strandEnds j status).bad = some (j.workid.toNat, status))) := by
  refine ⟨fun ok => ⟨if_pos ok, if_pos ok⟩, fun failed => ⟨if_neg failed, fun first => ?_⟩⟩
  simp only [Launch.strandEnds, if_neg failed, first]

theorem endStrand_ends {s : State} {j : Job} {l : Launch} (job : s.core.job = some j)
    (found : s.launch? j.launch = some l) (status : Nat) : StrandEnded (s.endStrand status) j l status := by
  obtain ⟨core, counts⟩ := endStrand_countsKept job status
  have counted : (s.endCounted j status).launch? j.launch =
      some { l.strandEnds j status with arrivedAt := s.cycle.toNat } :=
    launch?_upLaunch_self (s := s.upCore Core.idle) found fun _ => rfl
  obtain ⟨m, found, live, exited, bad, exits⟩ := counts _ _ counted
  refine ⟨by rw [core]; rfl, by rw [core]; rfl, m, found, live, ?_, ?_⟩
  · rw [exited]
    exact mem_insertNum l.exited j.strand
  · rw [bad, exits]
    exact strandEnds_counts l j status

/-- EXIT of a strand that holds nothing back and has nothing outstanding (R179). -/
theorem exit_ends {s : State} (held : s.settled) (idle : s.core.queued = []) :
    s.exit = .ok (s.leftRegion.endStrand s.exitStatus) := by
  rw [State.exit, waitOwn_ok idle]
  simp only [closing_nil s _ held.1, impliedRelease_settled _ (emptied_shut_settled s held)]
  rfl

/-- HALT of the same (R424). -/
theorem halt_ends {s : State} (held : s.settled) (idle : s.core.queued = []) :
    s.halt = .ok (s.leftRegion.endStrand (s.core.trapCause.toNat % 256)) := by
  obtain ⟨sbuf, lines, posted, -⟩ := held
  rw [State.halt, waitOwn_ok idle]
  simp only [closing_nil s _ sbuf, State.haltNow, waitOwn_ok (s := s.leftRegion) idle]
  have nonePosted : ¬s.leftRegion.core.posted ≠ [] := not_not_intro posted
  rw [if_neg nonePosted, dropLines_nil s.leftRegion _ 0 lines]
  rfl

/-- Settles O18: each ends the strand of a core whose region has closed. -/
theorem strandEnds : Obligations.StrandEnds := by
  unfold Obligations.StrandEnds
  intro o s j l held idle job found first
  have ended {i : Instr} {status : Nat} (arm : exec i s = retire (.ok (s.leftRegion.endStrand status))) :
      Gives i s (fun t => StrandEnded t j l status) := ⟨_, arm, endStrand_ends (s := s.leftRegion) job found status⟩
  simp only [List.forall_mem_cons, List.not_mem_nil, false_implies, implies_true, and_true]
  refine ⟨fun going => ended ?_, fun privileged => ended ?_⟩
  · exact (atStopPoint_passes going _).trans (congrArg retire (exit_ends held idle))
  · exact (if_pos privileged).trans (congrArg retire (halt_ends held idle))

end Sys2Proof.Machine
end

section
/-! Issue of the vector memory instructions (09 R187, R194, R196, R197, R221): the mask they need, the tags of their
registers and the range of their handle are checked, and then they enter the vector queue. -/

namespace Sys2Proof.Machine

/-! ### The checks of local memory -/

theorem chkLm_ok {s : State} {h off len opw : Nat} {r : Right} (fits : Fits s h off len r opw) :
    chkLm h off len r opw s = .ok s := by
  obtain ⟨v, checked⟩ := fits
  rw [chkLm, checked]

theorem chkOpen_ok {s : State} {h : Nat} {r : Right} (opens : Opens s h r) : chkOpen h r s = .ok s := by
  obtain ⟨v, checked⟩ := opens
  rw [chkOpen, checked]

/-! ### Accesses of the elements of a group (R196) -/

/-- The mask that an instruction names is one that no queued instruction writes; it waits for none without a mask
(R194). -/
def MaskFree (s : State) (o : OpV) : Prop := o.mask = 0 ∨ ∀ c ∈ s.core.vq, writesMask o.mask.toNat c = false

theorem maskFree_not_waits {s : State} {o : OpV} (free : MaskFree s o) :
    ¬(o.mask ≠ 0 ∧ s.core.vq.any (writesMask o.mask.toNat) = true) := by
  rintro ⟨masked, written⟩
  obtain ⟨c, queued, writes⟩ := List.any_eq_true.mp written
  exact Bool.false_ne_true (((free.resolve_left masked) c queued).symm.trans writes)

/-- The offset that an access of elements takes from its register, scaled by its sb field (R196). -/
def State.elemOffset (s : State) (o : OpV) : Nat := (s.getS o.b.toNat <<< o.sb.toNat).toNat

/-- The stride of a strided access, from the register after that of its offset (R196). -/
def State.elemStride (s : State) (o : OpV) : Nat := (s.getS (o.b.toNat + 1)).toNat

/-- The range of the active elements of an access: its first byte and its length (R196). -/
def State.elemRange (s : State) (o : OpV) (tag : Nat) (strided : Bool) : Nat × Nat :=
  activeSpan (s.core.live.active o) (elemSpan tag (s.elemOffset o) (s.elemStride o) strided) (o.g * elemsPerReg tag)

/-- An access of elements whose mask is free and whose range passes its check enters the vector queue. -/
theorem gives_vecMem {i : Instr} {o : OpV} {s : State} {tag : Nat} {strided : Bool} {r : Right} {tags : List (Nat × Nat)}
    (arm : exec i s = s.vecMem i o tag strided r tags) (free : MaskFree s o)
    (fits : Fits s o.a.toNat (s.elemRange o tag strided).1 (s.elemRange o tag strided).2 r 0)
    (room : Room s .vector o.kd) : Gives i s (fun t => Enqueued s t .vector i o.kd 2) := by
  have issues : s.vecMem i o tag strided r tags =
      s.vec [chkLm o.a.toNat (s.elemRange o tag strided).1 (s.elemRange o tag strided).2 r 0] i o.kd
        [BitVec.ofNat 64 (s.elemOffset o), BitVec.ofNat 64 (s.elemStride o)] tags := if_neg (maskFree_not_waits free)
  exact gives_vec (arm.trans issues) (List.forall_mem_singleton.mpr (chkLm_ok fits)) room

/-- A store reads the tag of its group, which all its registers carry; a strided one takes no packed format (R196). -/
theorem vecStore_passes {i : Instr} {o : OpV} {s : State} {strided : Bool}
    (good : TagsGood s (o.d.toNat, o.g, anyTag)) (whole : strided = true → 8 ≤ memBits (s.vtag o.d.toNat)) :
    s.vecStore i o strided = s.vecMem i o (s.vtag o.d.toNat) strided .w [] := by
  have checked : chkTags o.d.toNat o.g anyTag s = .ok s := sourceCheck_ok good
  have unpacked : ¬(strided = true ∧ memBits (s.vtag o.d.toNat) < 8) := fun h => Nat.not_lt.mpr (whole h.1) h.2
  simp only [State.vecStore, checked, if_neg unpacked]

/-- Settles O35: an access of elements is its mask and its range, an indexed one and a chain the checks they list. -/
theorem vectorMemoryIssue : Obligations.VectorMemoryIssue := by
  unfold Obligations.VectorMemoryIssue
  intro o s kd g off st act span free ld stg h ix room
  simp only [List.forall_mem_cons, List.not_mem_nil, false_implies, implies_true, and_true]
  refine ⟨⟨fun free fits => gives_vecMem rfl free fits room, fun free fits => gives_vecMem rfl free fits room⟩,
    ⟨fun good free _ fits => gives_vecMem (vecStore_passes good nofun) free fits room,
      fun good free whole fits => gives_vecMem (vecStore_passes good fun _ => whole trivial) free fits room⟩,
    fun index opens => ?_, fun index source opens => ?_, fun reads writes => ?_⟩
  · exact gives_vec rfl (List.forall_mem_cons.mpr ⟨sourceCheck_ok index, List.forall_mem_singleton.mpr (chkOpen_ok opens)⟩)
      room
  · exact gives_vec rfl (List.forall_mem_cons.mpr ⟨sourceCheck_ok index, List.forall_mem_cons.mpr
      ⟨sourceCheck_ok source, List.forall_mem_singleton.mpr (chkOpen_ok opens)⟩⟩) room
  · exact gives_vec rfl (List.forall_mem_cons.mpr ⟨chkOpen_ok reads, List.forall_mem_singleton.mpr (chkOpen_ok writes)⟩)
      room

end Sys2Proof.Machine
end

section
/-! A fill through a view of local memory that starts in HBM (13 R337; 21 R455, R456). The view that the model gives a
handle of local memory starts in the LM share, but the statement is about every state, and it asks of the destination
that its KIND be LM and that its lines read as good, not where the view starts. A line of HBM that the scrub has yet to
pass reads as good (`State.goodAt`), while a write of it waits for the scrub (`State.writableAt` says more): the fill then
rests in its queue. -/

namespace Sys2Proof.Machine

/-- A view of KIND LM that starts at the first place of HBM. -/
def hbmView : View := { View.empty with kind := 0, base := 0, length := 64 }

/-- Operands of CPFILL, every field zero: a pattern of one byte. -/
def fillOperands : OpE := ⟨0, 0, 0, 0, 0, 0, 0, 0⟩

/-- CPFILL of one row of 64 bytes through that view, started: production 1, pattern 0xA5. -/
def hbmFill : Cmd where
  instr := .cpfill fillOperands
  prod := 1
  rseq := 0
  tok := none
  waits := []
  scal := [0, 0, 1, 64, 0, 64, 0, 0xA5]
  operands := []
  views := [hbmView, hbmView]
  rbv := 0
  rbs := 0
  started := true
  cursor := 0
  fl := 0
  fail := none
  paused := none
  orphan := false
  pieces := []
  tags := []
  snap := []
  wrote := []
  part := 0

/-- A strand after reset, where no extent is scrubbed, whose copy queue holds that fill alone. -/
def hbmFilling : State := State.reset.upCore (fun c => { c with job := some Job.bare, cq := [hbmFill] })

/-- The row of the fill reads as good: its line is unscrubbed, and no check is made of it (R313, R455). -/
theorem hbmFilling_goodAt : ∀ k, k < hbmFill.rows →
    hbmFilling.goodAt (hbmFill.dst.base + hbmFill.x2 + k * hbmFill.y2) hbmFill.len := by
  unfold State.goodAt
  decide +kernel

/-- No byte lies in two rows of the fill. -/
theorem hbmFill_rows_apart : ∀ k, k < hbmFill.rows → ∀ col, col < hbmFill.len →
    rowHits (hbmFill.dst.base + hbmFill.x2) hbmFill.y2 hbmFill.rows hbmFill.len
      (hbmFill.dst.base + hbmFill.x2 + k * hbmFill.y2 + col) ≤ 1 := by decide +kernel

/-- Carried on, the fill asks the sweep for line 0, which has to be scrubbed before it is written (R455), and stays in its
queue. -/
theorem hbmFilling_rests :
    ∃ t, exec (.copyComplete 0 0) hbmFilling = .next t ∧ t.sweep.asked = [0] ∧ t.core.queue .copy = [hbmFill] :=
  ⟨_, rfl, by decide +kernel⟩

/-- Refutes O60: the fill meets every premise of `CopyActs` and does not finish. -/
theorem not_engineActs : ¬ Obligations.EngineActs := by
  unfold Obligations.EngineActs
  rintro ⟨-, -, -, -, -, copies⟩
  obtain ⟨-, completes⟩ := copies 0 fillOperands hbmFill hbmFilling rfl rfl rfl rfl (by decide +kernel) rfl
  obtain ⟨-, writes⟩ := completes rfl rfl
  obtain ⟨-, fills⟩ := writes rfl rfl rfl hbmFilling_goodAt
  obtain ⟨t, ends, ⟨gone, -⟩, -⟩ := fills rfl fun k col inside => hbmFill_rows_apart k inside.1 col inside.2
  obtain ⟨u, ends', -, rests⟩ := hbmFilling_rests
  obtain rfl : t = u := Host.Outcome.next.inj (ends.symm.trans ends')
  exact gone hbmFill (rests ▸ List.mem_singleton.mpr rfl) rfl

end Sys2Proof.Machine
end

section
/-! Issue of the matrix commands (10 R236, R239 to R246): their configuration, their ranges and the plane that will
stand are checked, and then they enter the matrix queue. -/

namespace Sys2Proof.Machine

/-- A matrix command that comes down to its issue enters the matrix queue (R235). -/
theorem gives_issueMatrix {i : Instr} {o : OpE} {s : State} {r : Res State} {n : Nat} {lit : Bool}
    (arm : exec i s = retire r) (issues : ∃ scal, r = s.issueMatrix i o n lit scal) (room : Room s .matrix o.kd.toNat) :
    Gives i s (fun t => Enqueued s t .matrix i o.kd.toNat (cmdLen n lit o)) := by
  obtain ⟨scal, rfl⟩ := issues
  obtain ⟨t, issued, enqueued⟩ := issue_enqueued room i o.cons scal [] (cmdLen n lit o) [] []
  exact ⟨t, arm.trans (congrArg retire issued), enqueued⟩

/-- A range that is checked only where a configuration bit is set, and fits there, passes. -/
theorem chkLm_ok_if {b : Bool} {s : State} {h off len opw : Nat} {r : Right}
    (fits : b = true → Fits s h off len r opw) : (if b then chkLm h off len r opw else .ok) s = .ok s := by
  split
  · next on => exact chkLm_ok (fits on)
  · rfl

theorem bnot_or_of_imp {b c : Bool} (h : b = true → c = true) : (!b || c) = true := by cases b <;> simp_all

/-- MCFG of two formats of R228 that mix, each scaled only where it can be (R229, R240). -/
theorem gives_mcfg {o : OpE} {s : State} (room : Room s .matrix o.kd.toNat)
    (weights : 1 ≤ wbits o.w1 31 28 ∧ wbits o.w1 31 28 ≤ 0xB) (inputs : 1 ≤ wbits o.w1 27 24 ∧ wbits o.w1 27 24 ≤ 0xB)
    (mix : compatible (wbits o.w1 31 28) (wbits o.w1 27 24) = true)
    (wscale : bit o.w1.toNat 20 = true → scalable (wbits o.w1 31 28) = true)
    (iscale : bit o.w1.toNat 19 = true → scalable (wbits o.w1 27 24) = true) :
    Gives (.mcfg o) s (fun t => Enqueued s t .matrix (.mcfg o) o.kd.toNat 2) := by
  refine gives_issueMatrix (n := 1) (lit := false) rfl ⟨[], if_pos ?_⟩ room
  simp only [Arrays.config, matrixTag, mix, bnot_or_of_imp wscale, bnot_or_of_imp iscale, weights, inputs, decide_true,
    Bool.and_self]

/-- MLDW whose rows, and scales where the weights are scaled, lie in the share; complex rows only of formats 1 to 3
(R241). -/
theorem gives_mldw {o : OpE} {s : State} (room : Room s .matrix o.kd.toNat)
    (rows : Fits s (wbits o.w1 31 28) (s.opX o).toNat
      (spanOf (if bit o.w1.toNat 9 then 32 else depthKP s.core.foreseen.wtag)
        (s.strideOf o.w1 (rowBytesW s.core.foreseen.wtag)) (rowBytesW s.core.foreseen.wtag)) .rd 1)
    (scales : s.core.foreseen.wbs = true →
      Fits s (wbits o.w1 31 28) (s.wordS o.w1 15 10).toNat (2 * depthKP s.core.foreseen.wtag) .rd 1)
    (format : bit o.w1.toNat 9 = true → s.core.foreseen.wtag ≤ 3) :
    Gives (.mldw o) s (fun t => Enqueued s t .matrix (.mldw o) o.kd.toNat (2 + litLen o.x)) := by
  have admitted : (!bit o.w1.toNat 9 || decide (s.core.foreseen.wtag ≤ 3)) = true :=
    bnot_or_of_imp fun complex => decide_eq_true (format complex)
  exact gives_issueMatrix (n := 1) (lit := true) rfl ⟨_, by
    rw [checks_ok (List.forall_mem_cons.mpr ⟨chkLm_ok rows, List.forall_mem_cons.mpr ⟨chkLm_ok_if scales,
      List.forall_mem_singleton.mpr (if_pos admitted)⟩⟩)]⟩ room

/-- MMUL and MMULC whose rows, and scales where the activations are scaled, lie in the share, and whose plane suits the
activations (R244), the planes and the configuration being those that will stand then (R236, log 23). -/
theorem gives_mul {i : Instr} {o : OpE} {s : State} {cplx : Bool} (arm : exec i s = retire (s.issueMul i o cplx))
    (room : Room s .matrix o.kd.toNat)
    (rows : Fits s (wbits o.w1 31 28) (s.opX o).toNat (spanOf (wbits o.w2 23 18 + 1)
      (s.strideOf o.w1 (rowBytesA s.foreseenArrays.atag)) (rowBytesA s.foreseenArrays.atag)) .rd 1)
    (scales : s.foreseenArrays.abs_ = true → Fits s (wbits o.w1 31 28) (s.wordS o.w1 15 10).toNat
      ((wbits o.w2 23 18 + 1) * (depthKP s.foreseenArrays.atag / 32)) .rd 1)
    (plane : (if cplx then planeOkC s.foreseenArrays.w0 s.foreseenArrays.atag s.foreseenArrays.abs_
      else planeOk s.foreseenArrays.w0 s.foreseenArrays.atag) = true) :
    Gives i s (fun t => Enqueued s t .matrix i o.kd.toNat (3 + litLen o.x)) :=
  gives_issueMatrix (n := 2) (lit := true) arm ⟨_, by
    rw [State.issueMul, checks_ok (List.forall_mem_cons.mpr ⟨chkLm_ok rows, List.forall_mem_cons.mpr
      ⟨chkLm_ok_if scales, List.forall_mem_singleton.mpr (if_pos plane)⟩⟩)]⟩ room

/-- MLDA whose rows lie in the share (R245). -/
theorem gives_mlda {o : OpE} {s : State} (room : Room s .matrix o.kd.toNat)
    (rows : Fits s (wbits o.w1 31 28) (s.opX o).toNat (spanOf 64 (s.strideOf o.w1 (memBytes (wbits o.w1 15 12) 64))
      (memBytes (wbits o.w1 15 12) 64)) .rd 1) :
    Gives (.mlda o) s (fun t => Enqueued s t .matrix (.mlda o) o.kd.toNat (2 + litLen o.x)) :=
  gives_issueMatrix (n := 1) (lit := true) rfl ⟨_, by rw [chkLm_ok rows]⟩ room

/-- MRET whose rows, and the record after them where it is asked for, lie in the share (R246). -/
theorem gives_mret {o : OpE} {s : State} (room : Room s .matrix o.kd.toNat)
    (rows : Fits s (wbits o.w1 31 28) (s.opX o).toNat
      (max (spanOf 64 (s.strideOf o.w1 (memBytes (wbits o.w1 15 12) 64)) (memBytes (wbits o.w1 15 12) 64))
        (if bit o.w1.toNat 4 then 64 * s.strideOf o.w1 (memBytes (wbits o.w1 15 12) 64) + 8 else 0)) .w 1) :
    Gives (.mret o) s (fun t => Enqueued s t .matrix (.mret o) o.kd.toNat (2 + litLen o.x)) :=
  gives_issueMatrix (n := 1) (lit := true) rfl ⟨_, by rw [chkLm_ok rows]⟩ room

/-- A plane that MMULC takes has activations without scales (R244). -/
theorem unscaled_of_planeOkC {p : Plane} {tag : Nat} {scaled : Bool} (h : planeOkC p tag scaled = true) :
    scaled = false := by
  simp_all [planeOkC]

/-- Settles O36: one lemma above for each command with checks; the others come down to their issue at once. -/
theorem matrixIssue : Obligations.MatrixIssue := by
  unfold Obligations.MatrixIssue
  intro o s kd f a h x z stride n cplx rows64 lit b lda room
  have unchecked {i : Instr} (arm : exec i s = retire (s.issueMatrix i o 1 false [])) :
      Gives i s (fun t => Enqueued s t .matrix i kd 2) := gives_issueMatrix arm ⟨[], rfl⟩ room
  simp only [List.forall_mem_cons, List.not_mem_nil, false_implies, implies_true, and_true]
  refine ⟨fun _ => unchecked rfl, fun _ => unchecked rfl, fun _ => unchecked rfl, ?mcfg, gives_mlda room,
    gives_mret room, ?mldw, ?mmul, ?mmulc⟩
  case mcfg =>
    rintro ⟨weights, inputs, mix, wscale, iscale⟩
    exact gives_mcfg room weights inputs mix wscale iscale
  case mldw =>
    rintro ⟨rows, scales, format⟩
    exact gives_mldw room rows scales format
  case mmul =>
    rintro ⟨rows, scales, plane⟩
    exact gives_mul (cplx := false) rfl room rows scales plane
  case mmulc =>
    rintro ⟨rows, plane⟩
    have unscaled := Bool.eq_false_iff.mp (unscaled_of_planeOkC plane)
    exact gives_mul (cplx := true) rfl room rows (fun scaled => absurd scaled unscaled) plane

end Sys2Proof.Machine
end

section
/-! The end of a command (15 R366), and the table instructions (10 R251). -/

namespace Sys2Proof.Machine

/-! ### The end of a command -/

/-- The commands whose waits were settled stand where they stood (R366). -/
theorem Core.settle_queue (c : Core) (e : Eng) (p : Nat) (st : BitVec 8) :
    (c.settle p st).queue e = (c.queue e).map (fun x => { x with waits := x.waits.map (Wait.settle p st) }) := by
  cases e <;> rfl

/-- Completion takes the command out of its queue and settles the waits of the others (R366). -/
theorem Core.complete_queue (c : Core) (e : Eng) (x : Cmd) (st : BitVec 8) (det : BitVec 40) (fl : BitVec 5) :
    (c.complete e x st det fl).queue e = ((c.queue e).filter (fun y => y.prod != x.prod)).map
      (fun y => { y with waits := y.waits.map (Wait.settle x.prod st) }) := by
  have registers : (c.complete e x st det fl).queue e =
      ((c.setQueue e ((c.queue e).filter (fun y => y.prod != x.prod))).settle x.prod st).queue e := by
    unfold Core.complete
    split
    · rfl
    · exact Core.queue_congr rfl rfl rfl rfl e
  rw [registers, Core.settle_queue, Core.queue_setQueue]

theorem Core.complete_pc (c : Core) (e : Eng) (x : Cmd) (st : BitVec 8) (det : BitVec 40) (fl : BitVec 5) :
    (c.complete e x st det fl).pc = c.pc := by
  unfold Core.complete
  split <;> exact Core.setQueue_pc _ _ _

theorem countFor_core (s : State) (j : Option Job) (id n : Nat) : (s.countFor j id n).core = s.core := by
  cases j <;> rfl

/-- The end of a command changes the core by its completion, and by what a copy takes out of the line buffers (R320). -/
theorem finishCmd_core (s : State) (e : Eng) (x : Cmd) (st : Nat) (det : BitVec 40) :
    (s.finishCmd e x st det).core =
      (s.core.complete e x (BitVec.ofNat 8 st) det ((s.cmd? e x.prod).getD x).fl).dropWritten
        ((s.cmd? e x.prod).getD x).wrote := by
  unfold State.finishCmd
  split
  · rw [State.upCore_core, countFor_core]
  · rfl

theorem finishCmd_pc (s : State) (e : Eng) (x : Cmd) (st : Nat) (det : BitVec 40) :
    (s.finishCmd e x st det).core.pc = s.core.pc := by
  rw [finishCmd_core]
  exact Core.complete_pc _ _ _ _ _ _

/-- A command that has ended is in its queue no more (R366). -/
theorem prod_ne_of_mem_finishCmd {s : State} {e : Eng} {x y : Cmd} {st : Nat} {det : BitVec 40}
    (left : y ∈ (s.finishCmd e x st det).core.queue e) : y.prod ≠ x.prod := by
  have dropped (c : Core) (w : List (Nat × Nat)) : (c.dropWritten w).queue e = c.queue e :=
    Core.queue_congr rfl rfl rfl rfl e
  rw [finishCmd_core, dropped, Core.complete_queue] at left
  obtain ⟨z, stays, rfl⟩ := List.mem_map.mp left
  exact bne_iff_ne.mp (List.mem_filter.mp stays).2

/-! ### TBLSTART and TBLBASE -/

/-- The copy engine's run joins the open group, which no other field of the core shows (R325). -/
theorem enqueued_joined {s t : State} {e : Eng} {i : Instr} {kd n p : Nat} (h : Enqueued s t e i kd n) :
    Enqueued s (t.upRegs fun g => { g with openGroup := g.openGroup ++ [p] }) e i kd n := by
  obtain ⟨x, instr, prod, rseq, waits, queue, rest⟩ := h
  exact ⟨x, instr, prod, rseq, waits, (Core.queue_congr rfl rfl rfl rfl e).trans queue, rest⟩

theorem gives_tblstart {e : BitVec 2} {o : OpA} {s : State} (room : Room s (Eng.ofCode e.toNat) (o.d.toNat % 32)) :
    Gives (.tblstart e o) s
      (fun t => Enqueued s t (Eng.ofCode e.toNat) (.tblstart e o) (o.d.toNat % 32) o.len) := by
  obtain ⟨t, issued, enqueued⟩ := issue_enqueued room (.tblstart e o) [] [s.opA o, s.opB o] [] o.len []
    (if Eng.ofCode e.toNat = .copy then s.core.live.h else [])
  have starts : s.tableStart (Eng.ofCode e.toNat) (.tblstart e o) o =
      .ok (if Eng.ofCode e.toNat = .copy then t.upRegs fun g => { g with openGroup := g.openGroup ++ [s.core.prod] }
        else t) := by
    simp only [State.tableStart, issued]
  refine ⟨_, congrArg retire starts, ?_⟩
  split
  · exact enqueued_joined enqueued
  · exact enqueued

theorem gives_tblbase {e : BitVec 2} {o : OpA} {s : State} {j : Job} (job : s.core.job = some j)
    (room : (s.core.queue (Eng.ofCode e.toNat)).length < 32) (aligned : (s.opA o).toNat % 4 = 0)
    (entries : (s.opB o).toNat ≤ 65535) (within_ : (s.opA o).toNat + 4 * (s.opB o).toNat ≤ j.lmBytes) :
    Gives (.tblbase e o) s (fun t => Enqueued s t (Eng.ofCode e.toNat) (.tblbase e o) 0 o.len) := by
  obtain ⟨t, issued, enqueued⟩ := issue_enqueued (kd := 0) ⟨room, rfl⟩ (.tblbase e o) [] [s.opA o, s.opB o] [] o.len
    [] []
  have share : s.lmBytes = j.lmBytes := by rw [State.lmBytes, job]
  have fits : ¬((s.opA o).toNat % 4 ≠ 0 ∨ 65535 < (s.opB o).toNat ∨
      s.lmBytes < (s.opA o).toNat + 4 * (s.opB o).toNat) := by omega
  exact ⟨t, congrArg retire ((if_neg fits).trans issued), enqueued⟩

/-! ### TBLSTOP -/

theorem upCmd_pc (s : State) (e : Eng) (p : Nat) (f : Cmd → Cmd) : (s.upCmd e p f).core.pc = s.core.pc :=
  Core.setQueue_pc _ _ _

/-- Where the commands of a production were changed, each that the queue now has under that
production is a changed one. -/
theorem eq_change_of_mem_upCmd {s : State} {e : Eng} {p : Nat} {f : Cmd → Cmd} {y : Cmd}
    (queued : y ∈ (s.upCmd e p f).core.queue e) (same : y.prod = p) : ∃ z, z.prod = p ∧ y = f z := by
  rw [State.upCmd, State.upCore_core, Core.queue_setQueue] at queued
  obtain ⟨z, -, rfl⟩ := List.mem_map.mp queued
  split at same
  · next here => exact ⟨z, here, if_pos here⟩
  · next other => exact absurd same other

/-- With no unfinished run, or one stopped already, nothing is stopped. -/
theorem tableStop_none {s : State} {e : Eng}
    (none_left : ∀ x, (s.core.queue e).find? Cmd.isRun = some x → x.fail ≠ none) : s.tableStop e = s := by
  unfold State.tableStop
  split
  · rfl
  · next x oldest => exact if_pos (Option.isSome_iff_ne_none.mpr (none_left x oldest))

/-- A run between two micro-orders ends at once. -/
theorem tableStop_between {s : State} {e : Eng} {x : Cmd} (oldest : (s.core.queue e).find? Cmd.isRun = some x)
    (going : x.fail = none) (started : x.started = true) (between : x.cursor = 0) :
    s.tableStop e = s.finishCmd e x 0 0 := by
  have outside_ : x.inStep = false := by simp [Cmd.inStep, between]
  simp [State.tableStop, oldest, going, started, outside_]

/-- A run not started, or inside a micro-order, is marked as stopped. -/
theorem tableStop_later {s : State} {e : Eng} {x : Cmd} (oldest : (s.core.queue e).find? Cmd.isRun = some x)
    (going : x.fail = none) (later : x.started = false ∨ x.cursor ≠ 0) :
    s.tableStop e = s.upCmd e x.prod (fun c => { c with fail := some (0, 0) }) := by
  have run : x.isRun = true := List.find?_some oldest
  have unended : ¬(x.started && !x.inStep) = true := by
    simp only [Cmd.inStep, run]
    rcases later with idle | inside <;> simp_all
  simp only [State.tableStop, oldest, going, Option.isSome_none, if_neg unended, Bool.false_eq_true, if_false]

/-- The queue of the engine that a table instruction names (R251). -/
theorem engine_of_code (e : BitVec 2) :
    [Eng.matrix, .plait, .vector, .copy].getD e.toNat .copy = Eng.ofCode e.toNat := by
  revert e; decide

/-- Settles O39: TBLSTART and TBLBASE are their checks and their issue, TBLSTOP one lemma for each place where the
oldest run stands. -/
theorem tableCalls : Obligations.TableCalls := by
  unfold Obligations.TableCalls
  intro e o s j job
  rw [engine_of_code]
  intro g oldest stop on
  have stops {u : State} {p : State → Prop} (stopped : s.tableStop g = u) (h : p (u.advance o.len)) : Gives stop s p :=
    ⟨u.advance o.len, stopped ▸ rfl, h⟩
  refine ⟨gives_tblstart, gives_tblbase job, fun none_left => stops (tableStop_none none_left) rfl,
    fun x found going => ?_⟩
  by_cases between : x.started = true ∧ x.cursor = 0
  · obtain ⟨started, start⟩ := between
    refine stops (tableStop_between found going started start) ⟨?_, fun _ y left => prod_ne_of_mem_finishCmd left,
      fun later => absurd later (by simp [started, start])⟩
    rw [State.advance_core, finishCmd_pc]
  · have later : x.started = false ∨ x.cursor ≠ 0 := by
      rwa [Decidable.not_and_iff_not_or_not, Bool.not_eq_true] at between
    refine stops (tableStop_later found going later) ⟨?_, fun started => absurd started between,
      fun _ y left same => ?_⟩
    · rw [State.advance_core, upCmd_pc]
    · obtain ⟨z, -, rfl⟩ := eq_change_of_mem_upCmd left same
      rfl

end Sys2Proof.Machine
end

section
/-! The micro-orders that change the run of a table alone, and END (10 R252 to R254, 11 R287, 13 R346). -/

namespace Sys2Proof.Machine

/-! ### The run registers -/

theorem table_upTable (s : State) (e : Eng) (f : TableRun → TableRun) : (s.upTable e f).table e = f (s.table e) :=
  (getD_upd _ _ _ _ _).trans (if_pos rfl)

/-! ### A micro-order of a run -/

theorem isRun_iff (x : Cmd) : x.isRun = true ↔ ∃ e o, x.instr = .tblstart e o := by
  unfold Cmd.isRun
  split
  · next e o starts => exact iff_of_true rfl ⟨e, o, starts⟩
  · next other => exact iff_of_false nofun fun ⟨e, o, starts⟩ => other e o starts

/-- In the run of a table a micro-order is carried out by that run as it stands (R252). -/
theorem microAct_inRun {s : State} {e : Eng} {x : Cmd} (run : InRun s e x) (f : MicroFn) (m : BitVec 27) :
    s.microAct e f m = (microRun s e x (f m.toNat x s)).1 := by
  obtain ⟨found, started, going, here⟩ := run
  obtain ⟨c, o, starts⟩ := (isRun_iff x).mp (List.find?_some found)
  simp [State.microAct, found, State.atTurn, going, started, State.startCmd, starts, here]

/-- A micro-order that succeeds counts one step (R252); `u` is what it did to the rest of the machine,
`g` to the run. -/
theorem gives_micro {i : Instr} {s u : State} {e : Eng} {x : Cmd} {f : MicroFn} {m : BitVec 27}
    {g : TableRun → TableRun} {r : TableRun} {p : State → Prop} (arm : exec i s = .next (s.microAct e f m)) (run : InRun s e x)
    (ok : f m.toNat x s = .ok (u.upTable e g)) (same : u.table e = s.table e) (becomes : g (s.table e) = r)
    (steps : r.steps = (s.table e).steps)
    (h : ∀ t, Stepped s t e r → t.core.arrays = u.core.arrays → t.mem = u.mem → p t) : Gives i s p := by
  refine ⟨(u.upTable e g).upTable e fun r => { r with steps := r.steps + 1 }, ?_, h _ ?_ rfl rfl⟩
  · rw [arm, microAct_inRun run, ok]
    rfl
  · rw [Stepped, table_upTable, table_upTable, same, becomes, steps]

/-- A micro-order that changes the run alone. -/
theorem gives_runOnly {i : Instr} {s : State} {e : Eng} {x : Cmd} {f : MicroFn} {m : BitVec 27}
    {g : TableRun → TableRun} {r : TableRun} (arm : exec i s = .next (s.microAct e f m)) (run : InRun s e x)
    (ok : f m.toNat x s = .ok (s.upTable e g)) (becomes : g (s.table e) = r) (steps : r.steps = (s.table e).steps) :
    Gives i s (fun t => Stepped s t e r) :=
  gives_micro arm run ok rfl becomes steps fun _ stepped _ _ => stepped

theorem gives_tableEnd {s : State} {e : Eng} {x : Cmd} (run : InRun s e x) :
    Gives (.tableEnd e 0) s (fun t => ∀ y ∈ t.core.queue e, y.prod ≠ x.prod) := by
  obtain ⟨found, -⟩ := run
  refine ⟨s.finishCmd e x 0 0, ?_, fun y left => prod_ne_of_mem_finishCmd left⟩
  show execTableEnd e 0 s = _
  simp [execTableEnd, found]

/-- The addresses of an engine have 21 bits at least (R254, R346). -/
theorem le_addrBits (e : Eng) : 21 ≤ addrBits e := by
  unfold addrBits
  split <;> decide

/-- A signed field of 21 bits added to an address, modulo the width of the engine's addresses (R254, R346): a negative
one is what it lacks of that width. -/
theorem wrapTo_add_sext {w : Nat} (wide : 21 ≤ w) (v : Nat) {n : Nat} (field : n < 2 ^ 21) :
    wrapTo w ((v : Int) + sext 21 n) = (v + if 2 ^ 20 ≤ n then 2 ^ w - (2 ^ 21 - n) else n) % 2 ^ w := by
  have wrapped (k : Nat) : wrapTo w k = k % 2 ^ w := by
    rw [wrapTo, ← Int.natCast_emod, Int.toNat_natCast]
  have room : 2 ^ 21 ≤ 2 ^ w := Nat.pow_le_pow_right (by decide) wide
  have itself : n % 2 ^ 21 = n := Nat.mod_eq_of_lt field
  split
  · next negative =>
    have lacks : (v : Int) + sext 21 n = ((v + (2 ^ w - (2 ^ 21 - n)) : Nat) : Int) - (2 ^ w : Nat) := by
      rw [sext, itself, if_neg (by omega)]
      omega
    rw [lacks, ← wrapped, wrapTo, wrapTo, Int.sub_emod_right]
  · next positive =>
    rw [sext, itself, if_pos (by omega), ← Int.natCast_add, wrapped]

/-- Settles O40: END ends its run, and each of the others changes the registers as it says. -/
theorem runMicroOrders : Obligations.RunMicroOrders := by
  unfold Obligations.RunMicroOrders
  intro e m s x run f r a v wide off nl d
  refine ⟨?ends, fun _ field => ?seta, fun _ field => ?adda, fun _ field => ?setl, fun _ field some_ within_ => ?back⟩
  case ends =>
    rintro rfl
    exact gives_tableEnd run
  case seta => exact gives_runOnly rfl run (if_neg (not_not_intro field)) rfl rfl
  case adda =>
    refine gives_runOnly rfl run (if_neg (not_not_intro field)) ?_ rfl
    have added := wrapTo_add_sext (le_addrBits e) v (n := f 20 0) (Nat.mod_lt _ (by decide))
    have width : 2 ^ addrBits e = wide := apply_ite (2 ^ ·) _ _ _
    rw [width] at added
    exact congrArg (fun n => { r with pos := r.pos + 1, address := upd 0 r.address a n }) added
  case setl => exact gives_runOnly rfl run (if_neg (not_not_intro field)) rfl rfl
  case back =>
    refine gives_runOnly rfl run (if_neg ?_) ?_ rfl
    · rintro (reserved | here | before)
      · exact reserved field
      · exact some_ here
      · exact Nat.not_lt.mpr within_ before
    · show (if nl ≠ 0 then _ else _) = _
      split <;> rfl

end Sys2Proof.Machine
end

section
/-! The micro-orders of the matrix array and of the plait array (10 R231, R242, R254; 11 R287). -/

namespace Sys2Proof.Machine

/-! ### The addresses that a micro-order raises (R254) -/

theorem steps_bumped (b : Bool) (i n w : Nat) (r : TableRun) : (bumped b i n w r).steps = r.steps := by cases b <;> rfl

theorem next_bumped (b : Bool) (i n w : Nat) (r : TableRun) : (bumped b i n w r).next = bumped b i n w r.next := by
  cases b <;> rfl

/-- The run at its next step, two address registers raised, the second first. -/
def TableRun.raised (b : Bool) (i n : Nat) (c : Bool) (j k : Nat) (r : TableRun) : TableRun :=
  (bumped b i n (2 ^ 21) (bumped c j k (2 ^ 21) r)).next

/-- A micro-order that succeeds and leaves the run at its next step, two of its addresses raised. -/
theorem gives_raising {i : Instr} {s u : State} {e : Eng} {x : Cmd} {f : MicroFn} {m : BitVec 27} {b c : Bool}
    {a d n k : Nat} {p : State → Prop} (arm : exec i s = .next (s.microAct e f m)) (run : InRun s e x)
    (ok : f m.toNat x s = .ok (u.upTable e (TableRun.raised b a n c d k))) (same : u.table e = s.table e)
    (h : ∀ t, Stepped s t e (bumped b a n (2 ^ 21) (bumped c d k (2 ^ 21) (s.table e).next)) →
      t.core.arrays = u.core.arrays → t.mem = u.mem → p t) : Gives i s p := by
  refine gives_micro arm run ok same ?_ ?_ h
  · rw [TableRun.raised, next_bumped, next_bumped]
  · rw [steps_bumped, steps_bumped]
    rfl

/-- Two ranges in the share, the second only where it is asked for: no access of them leaves it (R255). -/
theorem within_not_outside {s : State} {a n c k : Nat} {b : Bool} (row : a + n ≤ s.lmBytes)
    (record : b = true → c + k ≤ s.lmBytes) : ¬(!s.inLm a n || b && !s.inLm c k) = true := by
  have inside {a n : Nat} (h : a + n ≤ s.lmBytes) : s.inLm a n = true := decide_eq_true h
  cases b with
  | false => simp [inside row]
  | true => simp [inside row, inside (record rfl)]

/-! ### What the matrix array reads -/

/-- An engine reads good bytes of its local memory as they are, where no replay runs (R238, R468). -/
theorem lmRead_good {s : State} {off n : Nat} (live : s.dbg.replaying = none) (good : s.goodAt (s.lmAt off) n) :
    s.lmRead off n = .ok (memRead s.mem.cells (s.lmAt off) n) := by
  have stays : s.leavesLm off n = false := by simp [State.leavesLm, State.replaysHere, live]
  rw [State.lmRead, stays]
  exact ordRead_good good.2 good.1

/-- `n` bytes of local memory from address register `i` of the matrix run lie in the share and read as good. -/
def State.runReads (s : State) (i n : Nat) : Prop :=
  (s.table .matrix).addr i + n ≤ s.lmBytes ∧ s.goodAt (s.lmAt ((s.table .matrix).addr i)) n

/-- The `n` bytes of local memory from address register `i` of the matrix run. -/
def State.runBytes (s : State) (i n : Nat) : List Byte := memRead s.mem.cells (s.lmAt ((s.table .matrix).addr i)) n

theorem lmRead_runReads {s : State} {i n : Nat} (live : s.dbg.replaying = none) (reads : s.runReads i n) :
    s.lmRead ((s.table .matrix).addr i) n = .ok (s.runBytes i n) := lmRead_good live reads.2

/-! ### WROW -/

/-- The arrays after a row of weights, and the scales of its 32 rows where they come with it, were loaded into w1
(R254). -/
def Arrays.rowLoaded (a : Arrays) (k : Nat) (codes : List Nat) (scaled : Bool) (scales : List Nat) : Arrays :=
  let b := a.loadRow k false codes
  if scaled then
    { b with w1 := { b.w1 with
        scales := (List.range (64 * (k / 32))).map (fun i => b.w1.scales.getD i 0) ++ scales ++
          b.w1.scales.drop (64 * (k / 32) + 64) } }
  else b

/-- A loaded row makes w1 valid and stands in it; the other plane and the tiles stay. -/
theorem rowLoaded_spec (a : Arrays) (k : Nat) (codes : List Nat) (scaled : Bool) (scales : List Nat) :
    (a.rowLoaded k codes scaled scales).w1.rows.getD k [] = codes ∧
      (a.rowLoaded k codes scaled scales).w1.valid = true ∧
      (a.rowLoaded k codes scaled scales).w0 = a.w0 ∧ (a.rowLoaded k codes scaled scales).a = a.a := by
  have row : (upd [] a.w1.rows k codes).getD k [] = codes := (getD_upd _ _ _ _ _).trans (if_pos rfl)
  cases scaled <;> exact ⟨row, rfl, rfl, rfl⟩

theorem microWrow_ok {m : Nat} {s : State} (x : Cmd) {scaled : Bool}
    (first : (s.core.arrays.wbs && bits m 24 17 % 32 == 0) = scaled) (live : s.dbg.replaying = none)
    (field : bits m 15 0 = 0) (depth : bits m 24 17 < depthKP s.core.arrays.wtag)
    (row : s.runReads (mA m) (rowBytesW s.core.arrays.wtag)) (scales : scaled = true → s.runReads 3 64) :
    microWrow m x s = .ok ((s.upArrays fun a => a.rowLoaded (bits m 24 17)
        (unpack s.core.arrays.wtag 64 (s.runBytes (mA m) (rowBytesW s.core.arrays.wtag))) scaled
        ((s.runBytes 3 64).map BitVec.toNat)).upTable .matrix
      (TableRun.raised (bit m 16) (mA m) (rowBytesW s.core.arrays.wtag) scaled 3 64)) := by
  have sound : ¬(bits m 15 0 ≠ 0 ∨ depthKP s.core.arrays.wtag ≤ bits m 24 17) := by omega
  simp only [microWrow, first]
  rw [if_neg sound, if_neg (within_not_outside row.1 fun on => (scales on).1)]
  simp only [lmRead_runReads live row]
  cases scaled with
  | false => rfl
  | true =>
    simp only [if_true, lmRead_runReads live (scales rfl)]
    rfl

/-! ### AROW -/

/-- The activations that AROW reads, its row from address register `i` (R254). -/
def State.arowInput (s : State) (i : Nat) : List (Val × BitVec 5) :=
  let a := s.core.arrays
  activations a.atag (if a.abs_ then some ((s.runBytes 3 (depthKP a.atag / 32)).map BitVec.toNat) else none)
    (unpack a.atag (depthKP a.atag) (s.runBytes i (rowBytesA a.atag)))

/-- The products of a row take the place of the arrays that stood, and its roundings take a substream and set flags; the
run and memory stay (R66, R72, R231). -/
theorem countFor_upArrays_rounding (s : State) (j : Option Job) (id n : Nat) (a : Arrays) (e : Eng) (p : Nat) (c : Rnd)
    (d : Eng) :
    (((s.countFor j id n).upArrays fun _ => a).rounding e p c).table d = s.table d ∧
      (((s.countFor j id n).upArrays fun _ => a).rounding e p c).core.arrays = a ∧
      (((s.countFor j id n).upArrays fun _ => a).rounding e p c).mem = s.mem := by
  have rounded (t : State) : (t.rounding e p c).table d = t.table d := by cases e <;> rfl
  have counted : (s.countFor j id n).table d = s.table d := by rw [State.table, State.table, countFor_core]
  exact ⟨(rounded _).trans counted, Core.setQueue_arrays _ e _, countFor_mem s j id n⟩

theorem microArow_ok {m : Nat} {s : State} (x : Cmd) (live : s.dbg.replaying = none) (field : bits m 15 0 = 0)
    (plane : planeOk s.core.arrays.w0 s.core.arrays.atag = true)
    (row : s.runReads (mA m) (rowBytesA s.core.arrays.atag))
    (scales : s.core.arrays.abs_ = true → s.runReads 3 (depthKP s.core.arrays.atag / 32)) :
    ∃ u : State, microArow m x s = .ok (u.upTable .matrix (TableRun.raised (bit m 16) (mA m)
        (rowBytesA s.core.arrays.atag) s.core.arrays.abs_ 3 (depthKP s.core.arrays.atag / 32))) ∧
      u.table .matrix = s.table .matrix ∧
      u.core.arrays = (s.core.arrays.mulRow (bits m 24 23) (bits m 22 17) (s.arowInput (mA m)) (s.stream .matrix)).1 ∧
      u.mem = s.mem := by
  have suits : ¬(!mulReady s.core.arrays false) = true := by simp [mulReady, plane]
  simp only [microArow, State.arowInput]
  rw [if_neg (not_not_intro field), if_neg (within_not_outside row.1 fun on => (scales on).1), if_neg suits]
  simp only [lmRead_runReads live row]
  cases scaled : s.core.arrays.abs_ with
  | false => exact ⟨_, rfl, countFor_upArrays_rounding _ _ _ _ _ _ _ _ _⟩
  | true =>
    simp only [if_true, lmRead_runReads live (scales scaled)]
    exact ⟨_, rfl, countFor_upArrays_rounding _ _ _ _ _ _ _ _ _⟩

/-- The micro-orders of the matrix array: SWAP and ZTILE act on the arrays alone, WROW and AROW as said above. -/
theorem matrixOrders : MatrixOrders := by
  intro m s x run f a ar r next adr here get rowW rowA kp sc
  refine ⟨?swap, fun tile field => ?ztile, fun live field depth row scales => ?wrow,
    fun live field plane row scales => ?arow⟩
  case swap =>
    rintro rfl
    exact gives_micro rfl run (if_neg (by decide)) rfl rfl rfl fun t stepped arrays _ => ⟨stepped, arrays⟩
  case ztile =>
    exact gives_micro rfl run (if_neg fun bad => bad.elim (· tile) (· field)) rfl rfl rfl
      fun t stepped arrays _ => ⟨stepped, arrays⟩
  case wrow =>
    refine gives_raising rfl run (microWrow_ok x rfl live field depth row scales) rfl fun t stepped arrays mem => ?_
    rw [arrays, mem]
    obtain ⟨loaded, valid, w0, tiles⟩ := rowLoaded_spec ar (f 24 17) (unpack ar.wtag 64 (get a rowW)) sc
      ((get 3 64).map BitVec.toNat)
    exact ⟨stepped, loaded, valid, w0, tiles, rfl⟩
  case arow =>
    obtain ⟨u, ok, same, products, kept⟩ := microArow_ok x live field plane row scales
    exact gives_raising rfl run ok same fun t stepped arrays mem => ⟨stepped, arrays.trans products, mem.trans kept⟩

/-! ### PROW and PAPP -/

theorem microProw_ok {m : Nat} {s u : State} {x : Cmd} (field : bits m 11 0 = 0) (format : bits m 24 23 ≠ 0)
    (lanes : bits m 17 14 ≤ 9)
    (row : (s.table .plait).addr (mA m) + (bits m 22 18 + 1 + bits m 17 14) * plWidth (bits m 24 23) ≤ s.lmBytes)
    (record : bit m 13 = true → (s.table .plait).addr 3 + 128 ≤ s.lmBytes)
    (does : s.qrRow x.prod (bits m 24 23) (bits m 22 18 + 1) (bits m 17 14) ((s.table .plait).addr (mA m))
      (if bit m 13 then some ((s.table .plait).addr 3) else none) false = .ok u) :
    microProw m x s = .ok (u.upTable .plait (TableRun.raised (bit m 12) (mA m)
      ((bits m 22 18 + 1 + bits m 17 14) * plWidth (bits m 24 23)) (bit m 13) 3 128)) := by
  have sound : ¬(bits m 11 0 ≠ 0 ∨ bits m 24 23 = 0 ∨ 9 < bits m 17 14) := by omega
  simp only [microProw]
  rw [if_neg sound, if_neg (within_not_outside row record), does]
  rfl

theorem microPapp_ok {m : Nat} {s u : State} {x : Cmd} (columns : bits m 22 18 = 0) (unlogged : bit m 13 = false)
    (field : bits m 11 0 = 0) (format : bits m 24 23 ≠ 0) (some_ : 1 ≤ bits m 17 14) (lanes : bits m 17 14 ≤ 9)
    (row : (s.table .plait).addr (mA m) + bits m 17 14 * plWidth (bits m 24 23) ≤ s.lmBytes)
    (record : (s.table .plait).addr 3 + 128 ≤ s.lmBytes)
    (does : s.applyRow x.prod (bits m 24 23) (bits m 17 14) ((s.table .plait).addr (mA m)) ((s.table .plait).addr 3) =
      .ok u) :
    microPapp m x s = .ok (u.upTable .plait (TableRun.raised (bit m 12) (mA m)
      (bits m 17 14 * plWidth (bits m 24 23)) true 3 128)) := by
  have sound : ¬(bits m 22 18 ≠ 0 ∨ bit m 13 = true ∨ bits m 11 0 ≠ 0 ∨ bits m 24 23 = 0 ∨ bits m 17 14 = 0 ∨
      9 < bits m 17 14) := by
    simp only [unlogged, Bool.false_eq_true, false_or]
    omega
  have inside : ¬(!s.inLm ((s.table .plait).addr (mA m)) (bits m 17 14 * plWidth (bits m 24 23)) ||
      !s.inLm ((s.table .plait).addr 3) 128) = true := within_not_outside (b := true) row fun _ => record
  simp only [microPapp]
  rw [if_neg sound, if_neg inside, does]
  rfl

/-- The micro-orders of the plait array: each is the row that its operation does, and the raise of its addresses. -/
theorem plaitOrders : PlaitOrders := by
  intro m s u x run f a r next nc nb w off third log field format lanes same
  refine ⟨fun row record does => ?prow, fun columns unlogged some_ row record does => ?papp⟩
  case prow =>
    exact gives_raising rfl run (microProw_ok field format lanes row record does) same
      fun t stepped arrays mem => ⟨arrays, mem, stepped⟩
  case papp =>
    exact gives_raising rfl run (microPapp_ok columns unlogged field format some_ lanes row record does) same
      fun t stepped arrays mem => ⟨arrays, mem, stepped⟩

/-- Settles O41: the micro-orders of the one array, and of the other. -/
theorem arrayMicroOrders : Obligations.ArrayMicroOrders := ⟨matrixOrders, plaitOrders⟩

end Sys2Proof.Machine
end

section
/-! Issue of the plait commands (11 R268, R272 to R283): every range that a command reads or writes is checked, and then
it enters the plait queue. A written range that overlaps a read one marks the command and does not stop it (R283). -/

namespace Sys2Proof.Machine

/-- A plait command without operands enters the plait queue at once (R275). -/
theorem gives_unchecked_plait {i : Instr} {o : OpE} {s : State}
    (arm : exec i s = retire (s.issue .plait i o.kd.toNat o.cons [] [] (cmdLen 1 false o) [] []))
    (room : Room s .plait o.kd.toNat) : Gives i s (fun t => Enqueued s t .plait i o.kd.toNat 2) := by
  obtain ⟨t, issued, enqueued⟩ := issue_enqueued room i o.cons [] [] (cmdLen 1 false o) [] []
  exact ⟨t, arm.trans (congrArg retire issued), enqueued⟩

/-- A range passes its check when it holds no byte, whatever the handle, or lies within the share (R85, R268). -/
theorem chkSpan_ok {s : State} {h : Nat} {a : Span} {r : Right} (fits : a.2 = 0 ∨ Fits s h a.1 a.2 r 1) :
    chkSpan h a r s = .ok s := by
  unfold chkSpan
  split
  · rfl
  · next some_ => exact chkLm_ok (fits.resolve_left some_)

/-- A plait command with the ranges it reads and those it writes: it checks the one and then the other, in their order,
and issues, whichever overlaps R283 exempts. -/
def ChecksSpansThenIssues (o : OpE) (s : State) (p : Instr × List Span × List Span) : Prop :=
  ∃ scal inPlace, exec p.1 s = retire (s.issuePlait p.1 o 2 true scal p.2.1 p.2.2 inPlace)

/-- A plait command whose ranges pass their checks enters the plait queue, an overlap of them or none (R268, R283). -/
theorem gives_plait {o : OpE} {s : State} {p : Instr × List Span × List Span} (issues : ChecksSpansThenIssues o s p)
    (reads : ∀ a ∈ p.2.1, a.2 = 0 ∨ Fits s (wbits o.w1 31 28) a.1 a.2 .rd 1)
    (writes : ∀ a ∈ p.2.2, a.2 = 0 ∨ Fits s (wbits o.w1 31 28) a.1 a.2 .w 1) (room : Room s .plait o.kd.toNat) :
    Gives p.1 s (fun t => Enqueued s t .plait p.1 o.kd.toNat (3 + litLen o.x)) := by
  obtain ⟨scal, inPlace, arm⟩ := issues
  have pass : s.checks (p.2.1.map (fun a => chkSpan (wbits o.w1 31 28) a .rd) ++
      p.2.2.map (fun a => chkSpan (wbits o.w1 31 28) a .w)) = .ok s :=
    checks_ok (List.forall_mem_append.mpr ⟨List.forall_mem_map.mpr fun a read => chkSpan_ok (reads a read),
      List.forall_mem_map.mpr fun a written => chkSpan_ok (writes a written)⟩)
  simp only [State.issuePlait, pass] at arm
  obtain ⟨t, issued, enqueued⟩ := issue_enqueued room p.1 o.cons _ [] (cmdLen 2 true o) [] []
  exact ⟨t, arm.trans (congrArg retire issued), enqueued⟩

/-- Settles O37: row by row, the command's definition unfolds to the checks of the row's ranges, which pass, and its
issue, which has room. -/
theorem plaitIssue : Obligations.PlaitIssue := by
  unfold Obligations.PlaitIssue
  intro o s kd f x reg y z u wi wo w2 rows st sp ok out room
  refine ⟨List.forall_mem_cons.mpr ⟨gives_unchecked_plait rfl room,
    List.forall_mem_singleton.mpr (gives_unchecked_plait rfl room)⟩, fun p row reads writes => ?_⟩
  have issues : ChecksSpansThenIssues o s p := by
    clear reads writes
    revert p
    simp only [List.forall_mem_cons, List.not_mem_nil, false_implies, implies_true, and_true]
    and_intros <;> exact ⟨_, _, rfl⟩
  exact gives_plait issues reads writes room

end Sys2Proof.Machine
end

section
/-! LD (13 R316, R317, R320; 16 R385, R391): a load of this package's memory reads its bytes at the point of order, or
takes them from the store buffer or the line buffer; a load of another package's is a request and its response. -/

namespace Sys2Proof.Machine

/-! ### What a scalar access reads -/

/-- `t` is `s` after an access that only read: what a look-up changes, and the lines of the line buffer. -/
def State.onlyReads (s t : State) : Prop :=
  ∃ cache links hcache remote kept lines, t = { s with
    xl := { s.xl with cache := cache }
    links := links
    core := { s.core with hcache := hcache, remote := remote, kept := kept, lines := lines } }

theorem LooksUp.onlyReads {s t : State} (looks : LooksUp s t) : s.onlyReads t := by
  obtain ⟨_, _, _, _, _, rfl⟩ := looks
  exact ⟨_, _, _, _, _, _, rfl⟩

theorem LooksUp.reads {s t u : State} (looks : LooksUp s t) (reads : t.onlyReads u) : s.onlyReads u := by
  obtain ⟨_, _, _, _, _, rfl⟩ := looks
  obtain ⟨_, _, _, _, _, _, rfl⟩ := reads
  exact ⟨_, _, _, _, _, _, rfl⟩

theorem onlyReads_lines (s : State) (l : List LineBuf) : s.onlyReads (s.upCore (fun c => { c with lines := l })) :=
  ⟨_, _, _, _, _, _, rfl⟩

/-- The view of an aligned access whose handle passes (R316). -/
theorem scalarView_found {s u : State} {h off n : Nat} {need : Right} {v : View}
    (read : s.readHandle h off n need 0 = .ok (v, u)) (aligned : off % n = 0) :
    s.scalarView h off n need = .ok (v, u) := by
  simp only [State.scalarView, read, if_neg (not_not_intro aligned)]

/-- The place of a view of this package. -/
theorem accessPlace_here {s t : State} {v : View} {a : Nat} {need : PageNeed} {info : Word} (here : v.local_ = true)
    (placed : s.viewPlace v v.off need info = .ok (a, t)) : s.accessPlace v need info = .ok (a, t) := by
  rw [State.accessPlace, if_pos here, placed]

/-- The tenant address of a view of another package whose rank may be reached. -/
theorem accessPlace_away {s : State} {v : View} {need : PageNeed} {info : Word} (away : v.local_ = false)
    (free : s.rankStops v.rank = none) : s.accessPlace v need info = .ok (v.base + v.off, s) := by
  simp only [State.accessPlace, away, Bool.false_eq_true, if_false, free]

/-! ### Bytes of the buffers -/

theorem buffered_nil {s : State} (none_ : s.core.sbuf = []) (v : View) (a n : Nat) :
    s.buffered v a n = List.replicate n none := by
  simp only [State.buffered, none_, bufferedByte, List.map_const', List.length_range]

theorem all_isSome_replicate_none {n : Nat} (some_ : n ≠ 0) :
    (List.replicate n (none : Option Byte)).all (fun x => x.isSome) = false := by
  obtain ⟨n, rfl⟩ := Nat.exists_eq_succ_of_ne_zero some_
  rfl

/-- Nothing buffered leaves the bytes read. -/
theorem overlay_none (n : Nat) (bs : List Byte) : overlay (List.replicate n none) bs = bs := by
  induction n generalizing bs with
  | zero => rfl
  | succ n ih => cases bs with
    | nil => rfl
    | cons b bs => exact congrArg (b :: ·) (ih bs)

/-- Where every byte is buffered, nothing is read. -/
theorem overlay_some (bs old : List Byte) (same : old.length = bs.length) : overlay (bs.map some) old = bs := by
  induction bs generalizing old with
  | nil => exact List.length_eq_zero_iff.mp same
  | cons b bs ih => cases old with
    | nil => cases same
    | cons x old => exact congrArg (b :: ·) (ih old (Nat.succ.inj same))

theorem bufferedByte_append (v : View) (a : Nat) (l : List SEntry) (e : SEntry) (r : Option Byte) :
    bufferedByte v a (l ++ [e]) r =
      if e.sameAs v && decide (e.place ≤ a) && decide (a < e.place + e.bytes.length)
        then some (e.bytes.getD (a - e.place) 0) else bufferedByte v a l r := by
  induction l generalizing r with
  | nil => rfl
  | cons x l ih => exact ih _

/-- The bytes of an access that the newest buffered store of this package holds are those it stored (R319). -/
theorem buffered_newest {s : State} {l : List SEntry} {e : SEntry} {v : View} {a n : Nat}
    (last : s.core.sbuf = l ++ [e])
    (here : v.local_ = true) (there : e.view.local_ = true) (low : e.place ≤ a)
    (high : a + n ≤ e.place + e.bytes.length) :
    s.buffered v a n = ((e.bytes.drop (a - e.place)).take n).map some := by
  apply List.ext_getElem
  · simp [State.buffered]; omega
  · intro i hi _
    have inside : i < n := by simpa [State.buffered] using hi
    have same : e.sameAs v = true := by simp [SEntry.sameAs, here, there]
    have held : a + i - e.place < e.bytes.length := by omega
    have start : a - e.place + i = a + i - e.place := by omega
    simp only [State.buffered, last, bufferedByte_append, same, List.getElem_map, List.getElem_range, Bool.true_and,
      List.getElem_take, List.getElem_drop, start]
    rw [if_pos (by simp; omega), List.getD_eq_getElem _ _ held]

/-! ### The mask of an access within a line -/

theorem getLsbD_maskBits (lo n i : Nat) : (maskBits lo n).getLsbD i = decide (i < 64 ∧ lo ≤ i ∧ i < lo + n) := by
  rw [maskBits, BitVec.getLsbD_ofNat, Nat.testBit_mul_two_pow, Nat.testBit_two_pow_sub_one]
  rw [Bool.eq_iff_iff]
  simp
  omega

/-- The bytes of a mask are all valid just where each of them is. -/
theorem and_maskBits_eq_iff {m : BitVec 64} {lo n : Nat} (fits : lo + n ≤ 64) :
    m &&& maskBits lo n = maskBits lo n ↔ ∀ k, k < n → m.getLsbD (lo + k) = true := by
  constructor
  · intro same k hk
    have bit := congrArg (fun x => x.getLsbD (lo + k)) same
    simp only [BitVec.getLsbD_and, getLsbD_maskBits] at bit
    rw [decide_eq_true (by omega : lo + k < 64 ∧ lo ≤ lo + k ∧ lo + k < lo + n), Bool.and_true] at bit
    exact bit
  · intro all
    apply BitVec.eq_of_getLsbD_eq
    intro i hi
    simp only [BitVec.getLsbD_and, getLsbD_maskBits]
    by_cases inside : lo ≤ i ∧ i < lo + n
    · have := all (i - lo) (by omega)
      rw [show lo + (i - lo) = i by omega] at this
      simp [this]
    · simp [inside]

/-! ### Lines of memory -/

/-- An aligned access of at most 8 bytes lies in one line. -/
theorem access_in_line {a k : Nat} (small : k ≤ 3) (aligned : a % 2 ^ k = 0) : a % 64 + 2 ^ k ≤ 64 := by
  interval_cases k <;> simp only [Nat.reducePow] at aligned ⊢ <;> omega

theorem linesOf_within {a n : Nat} (some_ : n ≠ 0) (fits : a % 64 + n ≤ 64) : linesOf a n = [a / 64] := by
  have one : (a + n - 1) / 64 + 1 - a / 64 = 1 := by omega
  rw [linesOf, if_neg some_, one]
  simp

/-- Bytes good for an access that lies in one line: the whole line is good. -/
theorem goodAt_line {s : State} {a n : Nat} (some_ : n ≠ 0) (fits : a % 64 + n ≤ 64) (good : s.goodAt a n) :
    s.goodAt (a / 64 * 64) 64 := by
  have lines : linesOf (a / 64 * 64) 64 = linesOf a n := by
    rw [linesOf_within some_ fits, linesOf_within (by omega) (by omega)]
    congr 1
    omega
  have hbm : decide (a / 64 * 64 < bmBase) = decide (a < bmBase) := by
    rw [decide_eq_decide, bmBase]
    omega
  obtain ⟨lines', still⟩ := good
  refine ⟨by rwa [lines], ?_⟩
  rw [State.transit?, lines, hbm]
  exact still

theorem memRead_within {m : List Host.Cell} {a n : Nat} (fits : a % 64 + n ≤ 64) :
    ((memRead m (a / 64 * 64) 64).drop (a % 64)).take n = memRead m a n := by
  apply List.ext_getElem
  · simp [memRead]; omega
  · intro i hi _
    simp only [memRead, List.getElem_take, List.getElem_drop, List.getElem_map, List.getElem_range]
    congr 1
    omega

/-- A line put into a buffer that has room for it. -/
theorem putLine_room {s : State} {l : LineBuf} {info : Word}
    (room : (s.core.lines.filter (fun x => x.line != l.line)).length < 32) :
    s.putLine l info = .ok (s.upCore (fun c => { c with
      lines := l :: s.core.lines.filter (fun x => x.line != l.line)
      })) := by
  have none_ : ((l :: s.core.lines.filter (fun x => x.line != l.line)).drop 32).head? = none := by
    rw [List.drop_eq_nil_of_le (by simpa using room)]
    rfl
  simp only [State.putLine, none_]

/-- Bytes that are not in the line buffer are read with their line (R317, R320). -/
theorem lineLoad_fresh {s : State} {a n guard : Nat} {info : Word} (clear : s.core.lines = []) (some_ : n ≠ 0)
    (fits : a % 64 + n ≤ 64) (good : s.goodAt a n) :
    ∃ t, s.lineLoad a n guard info = .ok (memRead s.mem.cells a n, t) ∧ s.onlyReads t := by
  obtain ⟨lines, still⟩ := goodAt_line some_ fits good
  have read : s.ordRead s.domain (a / 64 * 64) 64 info = .ok (memRead s.mem.cells (a / 64 * 64) 64) :=
    ordRead_good still lines
  have unread : ¬((0 : BitVec 64) &&& maskBits (a % 64) n = maskBits (a % 64) n) := fun same => by
    have held := (and_maskBits_eq_iff fits).mp same 0 (by omega)
    simp at held
  have data : (List.range 64).map (fun i => if (0 : BitVec 64).getLsbD i then (List.replicate 64 (0 : Byte)).getD i 0
      else (memRead s.mem.cells (a / 64 * 64) 64).getD i 0) = memRead s.mem.cells (a / 64 * 64) 64 := by
    apply List.ext_getElem
    · simp
    · intro i hi _
      have hi : i < 64 := by simpa using hi
      simp [List.getD_eq_getElem?_getD, memRead, hi]
  refine ⟨_, ?_, onlyReads_lines s [⟨a / 64, memRead s.mem.cells (a / 64 * 64) 64, BitVec.allOnes 64, 0, guard⟩]⟩
  simp only [State.lineLoad, clear, List.find?_nil, Option.getD_none, if_neg unread, read, data]
  rw [putLine_room (by simp [clear])]
  simp only [clear, List.filter_nil, memRead_within fits]

/-- Bytes that are valid in the line buffer come from there (R320). -/
theorem lineLoad_held {s : State} {a n guard : Nat} {info : Word} {y : LineBuf} (most : s.core.lines.length ≤ 32)
    (found : s.core.lines.find? (fun l => l.line == a / 64) = some y) (fits : a % 64 + n ≤ 64)
    (valid : ∀ k, k < n → y.valid.getLsbD (a % 64 + k) = true) :
    ∃ t, s.lineLoad a n guard info = .ok ((y.data.drop (a % 64)).take n, t) ∧ s.onlyReads t := by
  have held := (and_maskBits_eq_iff fits).mpr valid
  have room : (s.core.lines.filter (fun x => x.line != y.line)).length < 32 :=
    Nat.lt_of_lt_of_le (List.length_filter_lt_length_iff_exists.mpr
      ⟨y, List.mem_of_find?_eq_some found, by simp⟩) most
  refine ⟨_, ?_, onlyReads_lines s ({ y with guard := guard } :: s.core.lines.filter (fun x => x.line != y.line))⟩
  simp only [State.lineLoad, found, Option.getD_some, if_pos held]
  rw [putLine_room (l := { y with guard := guard }) room]

/-- A plain load of this package's memory by a strand that holds nothing back (R317). -/
theorem loadPlain_settled {s x : State} {v : View} {a k : Nat} {info : Word} (here : v.local_ = true)
    (placed : s.viewPlace v v.off 1 info = .ok (a, x)) (small : k ≤ 3) (aligned : a % 2 ^ k = 0) (held : s.settled)
    (good : s.goodAt a (2 ^ k)) :
    ∃ t, s.loadPlain v (2 ^ k) info = .ok (memRead s.mem.cells a (2 ^ k), t) ∧ s.onlyReads t := by
  have looks := viewPlace_looksUp placed
  have some_ : 2 ^ k ≠ 0 := Nat.two_pow_pos k |>.ne'
  obtain ⟨empty, clear, -, -⟩ := looks.settled held
  have good := looks.goodAt good
  have mem : x.mem = s.mem := by
    obtain ⟨_, _, _, _, _, rfl⟩ := looks
    rfl
  simp only [State.loadPlain, accessPlace_here here placed, buffered_nil empty, all_isSome_replicate_none some_, here]
  by_cases shared : v.kind ≤ 1
  · refine ⟨x, ?_, looks.onlyReads⟩
    simp [if_pos shared, ordRead_good good.2 good.1, overlay_none, mem]
  · obtain ⟨t, load, reads⟩ := lineLoad_fresh (guard := v.guard) (info := info) clear some_
      (access_in_line small aligned) good
    refine ⟨t, ?_, looks.reads reads⟩
    simp [if_neg shared, load, overlay_none, mem]

/-- An acquire load of this package's memory by a strand that holds nothing back (R317, R352). -/
theorem loadAcquire_settled {s x : State} {v : View} {a n scope : Nat} {info : Word} (here : v.local_ = true)
    (placed : s.viewPlace v v.off 1 info = .ok (a, x)) (held : s.settled) (good : s.goodAt a n) :
    s.loadAcquire v n scope info = .ok (memRead s.mem.cells a n, x) := by
  have looks := viewPlace_looksUp placed
  have held := looks.settled held
  have good := looks.goodAt good
  have mem : x.mem = s.mem := by
    obtain ⟨_, _, _, _, _, rfl⟩ := looks
    rfl
  have dropped : x.dropTarget v a info = .ok x := by
    rw [State.dropTarget, dropLines_nil x _ info held.2.1, ite_self]
  simp only [State.loadAcquire, accessPlace_here here placed, dropped, acquire_settled x _ _ _ held, here,
    Bool.not_true,
    Bool.false_eq_true, if_false, ordRead_good good.2 good.1, mem]

/-! ### LD -/

/-- Register `d` written with `v`, in a state whose strand is that of `s`. -/
theorem regSet_of_live {s x : State} (live : x.core.live = s.core.live) (job : x.core.job = s.core.job) (d : Nat)
    (v : Word) : RegSet s (x.setS d v) d v := by
  have phys : x.core.physS d = s.core.physS d := by
    simp only [Core.physS, Core.lim, live, job]
    rfl
  unfold RegSet State.setS
  split
  · next zero => exact ⟨fun p => by rw [if_neg (fun named => named.1 zero), live], by rw [live]⟩
  · next named =>
    refine ⟨fun p => ?_, by rw [← live]; rfl⟩
    simp only [State.upRegs_core, getD_upd, phys, live]
    exact ite_congr (propext (and_iff_right named).symm) (fun _ => rfl) fun _ => rfl

theorem setS_flags (s : State) (d : Nat) (v : Word) : (s.setS d v).core.live.flags = s.core.live.flags := by
  unfold State.setS
  split <;> rfl

theorem setS_queued (s : State) (d : Nat) (v : Word) : (s.setS d v).core.queued = s.core.queued := by
  unfold State.setS
  split <;> rfl

/-- `t` is `s` after a load of `bs` into register `d` by an instruction of `n` words, whatever becomes of the region. -/
def Loaded (s t : State) (d : Nat) (bs : List Byte) (n : Nat) : Prop :=
  RegSet s t d (BitVec.ofNat 64 (leNat bs)) ∧ t.core.live.flags = s.core.live.flags ∧ MemFrame s t n ∧ t.mem = s.mem

/-- The state a load that read `bs` leaves. -/
abbrev State.loaded (x : State) (o : OpM) (bs : List Byte) : State :=
  (x.setS o.t.toNat (BitVec.ofNat 64 (leNat bs))).advance (1 + litLen o.x)

theorem loaded_of_reads {s x : State} (reads : s.onlyReads x) (o : OpM) (bs : List Byte) :
    Loaded s (x.loaded o bs) o.t.toNat bs (1 + litLen o.x) ∧ (x.loaded o bs).core.sbuf = s.core.sbuf ∧
      (x.loaded o bs).core.rseq = s.core.rseq ∧ (x.loaded o bs).core.remote = x.core.remote := by
  have set := regSet_of_live (s := s) (x := x) (by obtain ⟨_, _, _, _, _, _, rfl⟩ := reads; rfl)
    (by obtain ⟨_, _, _, _, _, _, rfl⟩ := reads; rfl) o.t.toNat (BitVec.ofNat 64 (leNat bs))
  obtain ⟨_, _, _, _, _, _, rfl⟩ := reads
  refine ⟨⟨set, setS_flags .., ⟨?_, ?_, ?_, ?_, ?_, ?_, ?_, ?_, ?_⟩, ?_⟩, ?_, ?_, ?_⟩
  case refine_4 => exact setS_queued ..
  all_goals simp

/-- A plain load completes with the bytes it reads (R317). -/
theorem gives_plainLoad {o : OpM} {s u x : State} {v : View} {bs : List Byte} {p : State → Prop} (plain : o.order = 0)
    (view : s.scalarView o.h.toNat (s.memOff o) (2 ^ o.size.toNat) .rd = .ok (v, u))
    (load : u.loadPlain v (2 ^ o.size.toNat) (accessInfo (s.memOff o) 0 o.h.toNat) = .ok (bs, x))
    (hp : p (x.loaded o bs)) : Gives (.ld o) s p := by
  refine ⟨_, ?_, hp⟩
  show retire (s.load o) = _
  simp only [State.load, OpM.bytes, view, if_pos plain, load]
  rfl

/-- An acquire load lies between two regions (R317). -/
theorem gives_acquireLoad {o : OpM} {s u x : State} {v : View} {bs : List Byte} {p : State → Prop}
    (acquires : o.order ≠ 0)
    (view : s.scalarView o.h.toNat (s.memOff o) (2 ^ o.size.toNat) .rd = .ok (v, u)) (empty : u.core.sbuf = [])
    (load : u.leftRegion.loadAcquire v (2 ^ o.size.toNat) o.scope.toNat (accessInfo (s.memOff o) 0 o.h.toNat) = .ok
    (bs, x))
    (hp : p ((x.loaded o bs).upCore (fun c => c.reopen u.core.closed))) : Gives (.ld o) s p := by
  refine ⟨_, ?_, hp⟩
  show retire (s.load o) = _
  simp only [State.load, OpM.bytes, view, if_neg acquires, between_nil u _ empty, load]
  rfl

theorem size_le (o : OpM) : o.size.toNat ≤ 3 := Nat.le_of_lt_succ o.size.isLt

theorem loadsFromMemory : LoadsFromMemory := by
  intro o s u x v a n found aligned place held good
  obtain ⟨read, here, placed⟩ := found
  obtain ⟨looks, off⟩ := readHandle_looksUp read
  have view := scalarView_found read aligned
  have heldU := looks.settled held
  have goodU := looks.goodAt good
  have mem : u.mem = s.mem := by
    obtain ⟨_, _, _, _, _, rfl⟩ := looks
    rfl
  rw [← off] at placed
  by_cases plain : o.order = 0
  · obtain ⟨t, load, reads⟩ := loadPlain_settled here placed (size_le o) place heldU goodU
    rw [mem] at load
    obtain ⟨⟨set, flags, frame, same⟩, -, number, -⟩ := loaded_of_reads (looks.reads reads) o (memRead s.mem.cells a n)
    exact gives_plainLoad plain view (off ▸ load) ⟨set, flags, frame, same, fun _ => number, fun h => absurd plain h⟩
  · have load := loadAcquire_settled (scope := o.scope.toNat) here (viewPlace_leftRegion placed)
      (emptied_shut_settled u heldU) (n := n) goodU
    rw [State.upCore_mem, mem] at load
    have reads := looks.leftRegion.trans (viewPlace_looksUp placed).leftRegion |>.onlyReads
    obtain ⟨⟨set, flags, frame, same⟩, drained, number, -⟩ := loaded_of_reads reads o (memRead s.mem.cells a n)
    exact gives_acquireLoad plain view heldU.1 (off ▸ load)
      ⟨set, flags, frame, same, fun h => absurd h plain, fun _ => nextRegion_reopen _ number drained⟩

theorem loadsFromBuffers : LoadsFromBuffers := by
  intro o s u x v a l n takes plain found aligned
  obtain ⟨read, here, placed⟩ := found
  obtain ⟨looks, off⟩ := readHandle_looksUp read
  have view := scalarView_found read aligned
  have looksX := looks.trans (viewPlace_looksUp placed)
  rw [← off] at placed
  have access : u.accessPlace v 1 (accessInfo v.off 0 o.h.toNat) = .ok (a, x) := accessPlace_here here placed
  have complete {bs : List Byte} {t : State} (reads : s.onlyReads t)
      (load : u.loadPlain v n (accessInfo v.off 0 o.h.toNat) = .ok (bs, t)) : Gives (.ld o) s (takes bs) := by
    obtain ⟨⟨set, flags, frame, same⟩, buffer, number, -⟩ := loaded_of_reads reads o bs
    exact gives_plainLoad plain view (off ▸ load) ⟨set, flags, frame, same, buffer, number⟩
  constructor
  · intro e last there low high
    refine complete looksX.onlyReads ?_
    have bytes := buffered_newest (s := x) (v := v) (n := n) (by rw [looksX.core_eq]; exact last) here there low high
    have size : ((e.bytes.drop (a - e.place)).take n).length = n := by
      rw [List.length_take, List.length_drop]
      omega
    have full : (((e.bytes.drop (a - e.place)).take n).map some).all (fun x => x.isSome) = true := by
      rw [List.all_map, List.all_eq_true]
      exact fun _ _ => rfl
    simp only [State.loadPlain, access, bytes, full, if_true]
    rw [overlay_some _ _ (by rw [List.length_replicate, size])]
  · intro y empty kind place most held valid
    have none_ : n ≠ 0 := (Nat.two_pow_pos _).ne'
    have fits : a % 64 + n ≤ 64 := access_in_line (size_le o) place
    have lines : x.core.lines = s.core.lines := by rw [looksX.core_eq]
    obtain ⟨t, load, reads⟩ := lineLoad_held (guard := v.guard) (info := accessInfo v.off 0 o.h.toNat) (lines ▸ most)
      (lines ▸ held) fits valid
    refine complete (looksX.reads reads) ?_
    simp only [State.loadPlain, access, buffered_nil (s := x) (by rw [looksX.core_eq]; exact empty),
      all_isSome_replicate_none none_, here,
      Bool.not_true, Bool.false_eq_true, if_false, if_neg (Nat.not_le.mpr kind), load, overlay_none]

/-! ### Requests to another package -/

/-- A request that departs leaves the record of requests, and all but the links, as it was (R384, R398). -/
theorem depart_keepsReqs (s : State) (r : Req) :
    ∃ links, links.reqs = s.links.reqs ∧ s.depart r = { s with links := links } := by
  unfold State.depart
  split
  · exact ⟨(s.emitFrame r.endpt r.flit).links, rfl, rfl⟩
  · split
    · exact ⟨s.links, rfl, rfl⟩
    · unfold State.emitAt
      split
      · exact ⟨{ s.links with sent := s.links.sent ++ [(r.port, r.flit)] }, rfl, rfl⟩
      · exact ⟨{ s.links with unsent := s.links.unsent ++ [(r.port, r.flit)] }, rfl, rfl⟩

/-- A request sent is recorded last, and nothing else but the links changes (R385). -/
theorem send_records (s : State) (cmd : Option (Eng × Nat)) (piece : Nat) (op : HoopOp) (rank a : Nat) (bs : List Byte)
    (n : Nat) (posted : Bool) :
    ∃ r links, s.send cmd piece op rank a bs n posted = (r.id, { s with links := links }) ∧
      links.reqs = s.links.reqs ++ [r] ∧ r.op = op ∧ r.rank = rank ∧ r.addr = a ∧ r.bytes = bs ∧ r.len = n ∧
      r.core = s.coreId ∧ r.resp = none ∧ r.posted = posted := by
  generalize sent : s.send cmd piece op rank a bs n posted = p
  unfold State.send at sent
  extract_lets id e fits first r at sent
  obtain ⟨links, reqs, departs⟩ := depart_keepsReqs
    { s with links := { s.links with reqs := s.links.reqs ++ [r], nextReq := id + 1 } } r
  exact ⟨r, links, sent.symm.trans (congrArg (Prod.mk id) departs), reqs, rfl, rfl, rfl, rfl, rfl, rfl, rfl, rfl⟩

/-- A scalar access that has asked nothing yet asks once and waits (R385). -/
theorem remoteGet_asks {s : State} {v : View} {op : HoopOp} {a n : Nat} {bs : List Byte} {info : Word}
    (unasked : s.core.remote = none) (new_ : op = .atomic → s.keptRequest = none)
    (reached : s.rankFault v.rank true = none) (room : s.requestsFull = false) :
    ∃ t, s.remoteGet op v.rank a bs n info = .error (.wait .busy, t) ∧ Asked s (t.stop (.wait .busy)) op v a bs n := by
  obtain ⟨r, links, sent, reqs, hop, rank, addr, bytes, len, core, resp, posted⟩ :=
    send_records s none 0 op v.rank a bs n false
  have first : (if op = .atomic then s.core.remote.or s.keptRequest else s.core.remote) = none := by
    split
    · next atomic => rw [unasked, new_ atomic, Option.none_or]
    · exact unasked
  refine ⟨{ s with links := links, core := { s.core with remote := some r.id } }, ?_, r, reqs, hop, rank, addr, bytes,
    len, core,
    resp, posted, rfl, rfl, rfl, rfl, rfl⟩
  simp only [State.remoteGet, first, reached, room, Bool.false_eq_true, if_false, sent]
  rfl

/-- `t` is `s` after the acting core has taken the response it awaited. -/
def State.tookResponse (s t : State) : Prop :=
  ∃ reqs kept, t = { s with links := { s.links with reqs := reqs }, core :=
    { s.core with remote := none, kept := kept } }

theorem State.tookResponse.onlyReads {s t : State} (took : s.tookResponse t) : s.onlyReads t := by
  obtain ⟨_, _, rfl⟩ := took
  exact ⟨_, _, _, _, _, _, rfl⟩

/-- A response with status OK gives its bytes (R385). -/
theorem remoteGet_answered {s : State} {bs asked : List Byte} {op : HoopOp} {rank a n : Nat} {info : Word}
    (answer : s.answered 0 bs) : ∃ t, s.remoteGet op rank a asked n info = .ok (bs, t) ∧ s.tookResponse t := by
  obtain ⟨id, r, awaited, found, resp⟩ := answer
  exact ⟨_, by simp only [State.remoteGet, awaited, Option.some_or, ite_self, found, resp]; rfl, _, _, rfl⟩

/-- A response with an error status that is not poison traps with it (R367, R391). -/
theorem remoteGet_refused {s : State} {st : BitVec 8} {bs asked : List Byte} {op : HoopOp} {rank a n : Nat}
    {info : Word}
    (answer : s.answered st bs) (bad : 1 ≤ st.toNat) (high : st.toNat ≤ 0xD) (clean : st ≠ 9) :
    ∃ t, s.remoteGet op rank a asked n info = .error (.trap st.toNat info, t) ∧ s.tookResponse t := by
  obtain ⟨id, r, awaited, found, resp⟩ := answer
  have bad : st ≠ 0 := fun same => by rw [same] at bad; exact absurd bad (by decide)
  exact ⟨_, by simp only [State.remoteGet, awaited, Option.some_or, ite_self, found, resp, if_neg bad, if_neg clean,
    if_pos high]; rfl,
    _, _, rfl⟩

/-- The cause register of an exact fault that is no token's. -/
theorem trapCauseWord_plain (c : Nat) : trapCauseWord c false false = BitVec.ofNat 64 c := by
  simp only [trapCauseWord, b2n, Bool.false_eq_true, if_false, Nat.zero_mul, Nat.add_zero]

/-- A trap after the response it comes with was taken is the trap of the state before. -/
theorem trapTaken_response {s t : State} {vec info : Word} {c : Nat} (took : s.tookResponse t)
    (ready : s.trapReady vec) :
    TrapTaken s (t.stop (.trap c info)) (trapCauseWord c false false) info s.core.pc vec := by
  obtain ⟨_, _, rfl⟩ := took
  exact trapEntry_ready _ vec c false info s.core.pc ready

/-- A plain load of another package's memory, no byte of which is buffered, is its request's. -/
theorem loadPlain_away {s : State} {v : View} {n : Nat} {info : Word} (away : v.local_ = false) (some_ : n ≠ 0)
    (reached : s.rankStops v.rank = none) (empty : s.core.sbuf = []) :
    s.loadPlain v n info = s.remoteGet .read v.rank (v.base + v.off) [] n info := by
  simp only [State.loadPlain, accessPlace_away away reached, buffered_nil empty, all_isSome_replicate_none some_, away,
    Bool.false_eq_true, if_false, Bool.not_false, if_true]
  split <;> simp_all [overlay_none]

/-- A plain load whose access stops leaves what the stop leaves. -/
theorem gives_loadStopped {o : OpM} {s u x : State} {v : View} {e : Stop} {p : State → Prop} (plain : o.order = 0)
    (view : s.scalarView o.h.toNat (s.memOff o) (2 ^ o.size.toNat) .rd = .ok (v, u))
    (load : u.loadPlain v (2 ^ o.size.toNat) (accessInfo (s.memOff o) 0 o.h.toNat) = .error (e, x))
    (hp : p (x.stop e)) : Gives (.ld o) s p := by
  refine ⟨_, ?_, hp⟩
  show retire (s.load o) = _
  simp only [State.load, OpM.bytes, view, if_pos plain, load]
  rfl

theorem loadsFromPackages : LoadsFromPackages := by
  intro o s u v bs st vec n off read away aligned plain empty reached
  obtain ⟨looks, same⟩ := readHandle_looksUp read
  have view := scalarView_found read aligned
  have load := loadPlain_away (info := accessInfo off 0 o.h.toNat) away (Nat.two_pow_pos o.size.toNat).ne' reached
    (by rw [looks.core_eq]; exact empty)
  rw [same] at load
  refine ⟨fun unasked reachable room => ?_, fun answer => ?_, fun answer bad high clean ready => ?_⟩
  · obtain ⟨t, asks, asked⟩ := remoteGet_asks (op := .read) (a := v.base + off) (n := n) (bs := [])
      (info := accessInfo off 0 o.h.toNat)
      unasked (fun h => nomatch h) reachable room
    exact gives_loadStopped plain view (load.trans asks) asked
  · obtain ⟨t, got, took⟩ := remoteGet_answered (op := .read) (rank := v.rank) (a := v.base + off) (asked := [])
      (n := n)
      (info := accessInfo off 0 o.h.toNat) answer
    obtain ⟨⟨set, flags, frame, same⟩, -, -, remote⟩ := loaded_of_reads (looks.reads took.onlyReads) o bs
    refine gives_plainLoad plain view (load.trans got) ⟨set, frame, same, remote.trans ?_⟩
    obtain ⟨_, _, rfl⟩ := took
    rfl
  · obtain ⟨t, refused, took⟩ := remoteGet_refused (op := .read) (rank := v.rank) (a := v.base + off) (asked := [])
      (n := n)
      (info := accessInfo off 0 o.h.toNat) answer bad high clean
    have pc : u.core.pc = s.core.pc := by rw [looks.core_eq]
    refine gives_loadStopped plain view (load.trans refused) ?_
    rw [← accessInfo_scalar, ← trapCauseWord_plain, ← pc]
    exact trapTaken_response took ready

/-- Settles O22: from memory, from the buffers and from another package, a load is what its place holds. -/
theorem loadResults : Obligations.LoadResults :=
  ⟨loadsFromMemory, loadsFromBuffers, loadsFromPackages⟩

end Sys2Proof.Machine
end

section
/-! ST (13 R317, R318; 14 R455): the mint makes no record of local kind (R76), but a state may hold one, and nothing keeps
its range in local memory. A plain store through it to a line of HBM that the scrub has yet to pass waits. -/

namespace Sys2Proof.Machine

/-- A record of local kind whose range lies at the start of HBM. -/
def lowRecord : HRec where
  base := 0
  length := 64
  rights := 0x7F
  tenant := 0
  keyslot := 0
  guard := unguarded
  param := 0xFFFFFFFF
  gen := 0
  kind := 0
  local_ := true
  rank := 0
  sealTag := 0

/-- The machine after reset with `lowRecord` in the handle cache, named by handle register 2. -/
def lowHandle : State :=
  State.reset.upCore (fun c => { c with
    hcache := [⟨0, lowRecord, none⟩]
    live := { c.live with h := [.empty, .empty, .valid 0 0] } })

/-- ST of the byte at offset 0 of handle register 2. -/
def lowStore : OpM := ⟨0, 2, 0, 0, 0, 0, 0, 0⟩

/-- The store finds place 0, through a view of local kind. -/
theorem lowHandle_finds : ∃ v u x, lowHandle.finds 2 0 1 .w v 0 u x ∧ v.kind = 0 := ⟨_, _, _, ⟨rfl, rfl, rfl⟩, rfl⟩

/-- A line that the scrub has yet to pass reads as good (R313), and no granule moves after reset. -/
theorem lowHandle_good : lowHandle.goodAt 0 1 := by
  unfold State.goodAt
  decide +kernel

/-- The store waits for the scrub of its line at its instruction (R455). -/
theorem exec_lowStore : ∃ t, exec (.st lowStore) lowHandle = .next t ∧ t.core.pc = 0 := ⟨_, rfl, rfl⟩

/-- Refutes O23: a plain store through a view of local kind whose place lies in HBM waits for the scrub of its line
(R455), where the statement asks only that the line be good; the program counter stays at the store. -/
theorem not_storeResults : ¬ Obligations.StoreResults := by
  unfold Obligations.StoreResults
  intro ⟨here, _⟩
  obtain ⟨v, u, x, found, local_⟩ := lowHandle_finds
  obtain ⟨writes, -⟩ := here lowStore lowHandle u x v 0 rfl found rfl
  obtain ⟨t, next, -, ⟨pc, -⟩, -⟩ := writes rfl local_ lowHandle_good
  obtain ⟨w, waits, still⟩ := exec_lowStore
  have same : t = w := by
    rw [waits] at next
    cases next
    rfl
  rw [same, still] at pc
  exact absurd pc (by decide)

end Sys2Proof.Machine
end

section
/-! Fences with nothing held back (15 R380): each is the check of its guard, which only looks up, between two regions. -/

namespace Sys2Proof.Machine

/-- The check of a guard only looks up. -/
theorem guardOf_looksUp {s t : State} {h : Nat} {g : Option Nat} (ok : s.guardOf h = .ok (g, t)) : LooksUp s t := by
  unfold State.guardOf at ok
  split at ok
  · cases ok
  · next v u checked =>
    have looks := checkHandle_looksUp checked
    dsimp only at ok
    repeat' split at ok
    all_goals cases ok
    · exact looks
    · next translated => exact looks.trans (translate_looksUp translated)

/-- An acquire of a strand that holds nothing back changes no more than its guard's check does. -/
theorem acquireHandle_settled {s u : State} {h sc : Nat} {g : Option Nat} (guard : s.guardOf h = .ok (g, u))
    (held : s.settled) : s.acquireHandle h sc = .ok u := by
  have held := (guardOf_looksUp guard).settled held
  cases g with
  | none => simp only [State.acquireHandle, guard, fenceLines_settled u _ held]
  | some g => simp only [State.acquireHandle, guard, acquire_settled u _ _ _ held]

/-- A release of a strand that holds nothing back changes no more than its guard's check does. -/
theorem releaseHandle_settled {s u : State} {h sc : Nat} {g : Option Nat} (guard : s.guardOf h = .ok (g, u))
    (held : s.settled) : s.releaseHandle h sc = .ok u := by
  have held := (guardOf_looksUp guard).settled held
  cases g with
  | none => simp only [State.releaseHandle, guard, fenceLines_settled u _ held]
  | some g => simp only [State.releaseHandle, guard, release_settled u _ _ held]

/-- An instruction between two regions that only looks up begins the next one and leaves registers and memory. -/
theorem gives_boundary {i : Instr} {s u : State} {act : State → Res State} {n : Nat} (held : s.settled)
    (arm : exec i s = retire (s.between act)) (acts : act s.leftRegion = .ok (u.advance n))
    (looks : LooksUp s.leftRegion u) :
    Gives i s (fun t => NextRegion s t ∧ t.core.live = s.core.live ∧ t.mem = s.mem ∧ MemFrame s t n) := by
  refine gives_between arm held acts ?_
  obtain ⟨_, _, _, _, _, rfl⟩ := looks
  exact ⟨⟨rfl, rfl, rfl, rfl, rfl, rfl⟩, rfl, rfl, rfl, rfl, rfl, rfl, rfl, rfl, rfl, rfl, rfl⟩

/-- REL.k whose tokens are complete is REL (R380). -/
theorem exec_relK {sc : BitVec 3} {o : OpA} {s : State} (first : (s.getK o.d.toNat).pend = false)
    (second : (s.getK o.b.toNat).pend = false) : exec (.relK sc o) s = exec (.rel sc o) s := by
  show execRelK sc o s = execRel sc o s
  rw [execRelK, first, second]
  rfl

/-- Settles O25: with nothing held back, each fence is the check of its guard between two regions. -/
theorem fencesComplete : Obligations.FencesComplete := by
  unfold Obligations.FencesComplete
  intro sc o s u g held guard first second
  have left := emptied_shut_settled s held
  have looks := guardOf_looksUp guard
  have fence : thenNext (s.leftRegion.fenceLines 0) = .ok (s.leftRegion.advance 1) := by
    rw [fenceLines_settled _ _ left, thenNext]
  have acquire : thenNext (s.leftRegion.acquireHandle o.a.toNat sc.toNat) = .ok (u.advance 1) := by
    rw [acquireHandle_settled guard left, thenNext]
  have release : thenNext (s.leftRegion.releaseHandle o.a.toNat sc.toNat) = .ok (u.advance 1) := by
    rw [releaseHandle_settled guard left, thenNext]
  simp only [List.forall_mem_cons, List.not_mem_nil, false_implies, implies_true, and_true]
  refine ⟨gives_boundary held rfl fence (.refl _), gives_boundary held rfl acquire looks,
    gives_boundary held rfl release looks, ?_⟩
  exact gives_boundary held ((exec_relK first second).trans rfl) release looks

end Sys2Proof.Machine
end

section
/-! The store buffer's drain and the write-back of lines (13 R319, R320; 15 R354, R380; 16 R360). -/

namespace Sys2Proof.Machine

/-! ### Lines written back -/

/-- A byte within a masked write is the one written where its mask has a 1. -/
theorem memGet_memWriteMask_inside (m : List Host.Cell) (a i : Nat) (bs : List (Byte × Bool)) (hi : i < bs.length)
    (wf : Memory.wf m = true) : memGet (memWriteMask m a bs) (a + i) =
      if (bs.getD i (0, false)).2 then (bs.getD i (0, false)).1 else memGet m (a + i) := by
  induction bs generalizing m a i with
  | nil => cases hi
  | cons p l ih =>
    obtain ⟨b, w⟩ := p
    rw [memWriteMask]
    cases i with
    | zero =>
      rw [memGet_memWriteMask_outside _ (a + 1) (a + 0) l (.inl (Nat.lt_succ_self a))]
      cases w with
      | false => rfl
      | true => exact memGet_memSet_self m a b wf
    | succ i =>
      have wf' : Memory.wf (if w then memSet m a b else m) = true := by
        split
        · exact memSet_wf m a b wf
        · exact wf
      rw [show a + (i + 1) = a + 1 + i by omega, ih _ _ _ (Nat.lt_of_succ_lt_succ hi) wf', List.getD_cons_succ]
      congr 1
      split
      · exact memGet_memSet_ne m a _ b (by omega)
      · rfl

/-- A masked write of a good line puts its bytes, and leaves the core (R320). -/
theorem maskNow_good {s : State} {dom : Nat → Nat} {line : Nat} {bs : List (Byte × Bool)} {info : Word}
    (good : s.bad dom line = false) : ∃ t, s.maskNow dom line bs info = .ok t ∧
      t.mem.cells = memWriteMask s.mem.cells (line * 64) bs ∧ t.core = s.core := by
  rw [State.maskNow, good, Bool.and_false, if_neg Bool.false_ne_true]
  refine ⟨_, rfl, ?_⟩
  split
  · obtain ⟨_, e⟩ := wakeBy_only_watchers { s with mem := _ } _
    rw [e]
    exact ⟨rfl, rfl⟩
  · exact ⟨rfl, rfl⟩

/-- Memory of `t` is that of `s` with the dirty bytes of a line put. -/
def LineWritten (s t : State) (l : LineBuf) : Prop :=
  SameOutside s t (l.line * 64) 64 ∧ ∀ k, k < 64 → memGet t.mem.cells (l.line * 64 + k) =
    if l.dirty.getLsbD k then l.data.getD k 0 else memGet s.mem.cells (l.line * 64 + k)

theorem linesOf_line (line : Nat) : linesOf (line * 64) 64 = [line] := by
  rw [linesOf_within (by decide) (by omega), Nat.mul_div_cancel _ (by decide)]

/-- A line that has to wait for nothing is written back with its dirty bytes and no others (R320). -/
theorem writeBack_good {s : State} {l : LineBuf} {info : Word} (wf : s.memOk) (good : s.writableAt (l.line * 64) 64) :
    ∃ t, s.writeBack l info = .ok t ∧ t.core = s.core ∧ LineWritten s t l := by
  by_cases clean : l.dirty = 0
  · refine ⟨s, by rw [State.writeBack, if_pos clean], rfl, fun _ _ => rfl, fun k _ => ?_⟩
    rw [clean, show (0 : BitVec 64).getLsbD k = false from BitVec.getLsbD_zero, if_neg Bool.false_ne_true]
  · obtain ⟨lines, still⟩ := good
    have ok : s.bad s.domain l.line = false := lines l.line (by rw [linesOf_line]; exact List.mem_singleton_self _)
    obtain ⟨t, written, cells, core⟩ := maskNow_good (bs := l.masked l.dirty) (info := info) ok
    have length : (l.masked l.dirty).length = 64 := by simp [LineBuf.masked]
    refine ⟨t, by rw [State.writeBack, if_neg clean, State.ordWriteMask, still]; exact written, core, fun c out => ?_,
      fun k hk => ?_⟩
    · rw [cells]
      exact memGet_memWriteMask_outside _ _ _ _ (length ▸ out)
    · rw [cells, memGet_memWriteMask_inside _ _ _ _ (length ▸ hk) wf]
      simp [LineBuf.masked, List.getD_eq_getElem?_getD, hk]

/-- A fence whose lines are written back empties the line buffer. -/
theorem fenceLines_written {s t : State} {info : Word} (written : s.writeBackAll info s.core.lines = .ok t)
    (acked : t.core.posted = []) (none_ : t.core.held = []) :
    s.fenceLines info = .ok (t.upCore (fun c => { c with lines := [] })) := by
  simp only [State.fenceLines, State.dropLines, List.filter_true, written, Bool.not_true, List.filter_false]
  exact awaitPosted_nil _ info acked none_

/-- The fence of a strand whose line buffer holds one line. -/
theorem fenceLines_one {s : State} {l : LineBuf} {info : Word} (wf : s.memOk) (one : s.core.lines = [l])
    (good : s.writableAt (l.line * 64) 64) (acked : s.core.posted = []) (none_ : s.core.held = []) :
    ∃ t, s.fenceLines info = .ok t ∧ t.core = { s.core with lines := [] } ∧ LineWritten s t l := by
  obtain ⟨t, written, core, put⟩ := writeBack_good (info := info) wf good
  have all : s.writeBackAll info s.core.lines = .ok t := by simp only [one, State.writeBackAll, written]
  exact ⟨_, fenceLines_written all ((congrArg Core.posted core).trans acked) ((congrArg Core.held core).trans none_),
    by rw [← core]; rfl, put⟩

/-- An instruction between two regions whose buffered stores drain completes where it acts with success. -/
theorem gives_drained {i : Instr} {s d t : State} {act : State → Res State} {p : State → Prop}
    (arm : exec i s = retire (s.between act)) (drains : s.drain s.core.sbuf = .ok d) (acts : act d.leftRegion = .ok t)
    (hp : p (t.upCore (fun c => c.reopen s.core.closed))) : Gives i s p := by
  refine ⟨_, ?_, hp⟩
  have acts : act ((d.upCore Core.emptied).upCore Core.shut) = .ok t := acts
  rw [arm, State.between, State.closeRegion, drains]
  dsimp only
  rw [acts]
  rfl

/-- A fence between two regions begins the next one with the line buffer empty, and leaves the registers. -/
theorem fenced_core {s t : State} (core : t.core = { s.leftRegion.core with lines := [] }) :
    let n := (t.advance 1).upCore (fun c => c.reopen s.core.closed)
    n.core.lines = [] ∧ n.core.live = s.core.live ∧ n.core.pc = s.core.pc + 4 ∧ NextRegion s n := by
  obtain ⟨c⟩ := t
  obtain rfl := core
  exact ⟨rfl, rfl, rfl, rfl, rfl, rfl, rfl, rfl, rfl⟩

/-- A handle that carries no guard, such as h0, is unguarded without a look-up (R380). -/
theorem guardOf_own (s : State) {h : Nat} (own : h ≤ 1) : s.guardOf h = .ok (none, s) := by
  simp only [State.guardOf, State.checkHandle, if_pos own]
  rfl

theorem linesWrittenBack : LinesWrittenBack := by
  intro sc o s l wf empty one size acked none_ good own first second
  have fence {i : Instr} {act : State → Res State} (info : Word) (arm : exec i s = retire (s.between act))
      (acts : act s.leftRegion = thenNext (s.leftRegion.fenceLines info)) : Gives i s (fun t => t.core.lines = [] ∧
        t.core.live = s.core.live ∧ t.core.pc = s.core.pc + 4 ∧ NextRegion s t ∧ LineWritten s t l) := by
    obtain ⟨t, fenced, core, put⟩ := fenceLines_one (s := s.leftRegion) (info := info) wf one good acked none_
    obtain ⟨lines, live, pc, next⟩ := fenced_core core
    exact gives_drained arm (by rw [empty]; rfl) (acts.trans (by rw [fenced]; rfl)) ⟨lines, live, pc, next, put⟩
  have unguarded := guardOf_own s.leftRegion own
  have acquire : s.leftRegion.acquireHandle o.a.toNat sc.toNat = s.leftRegion.fenceLines (accessInfo 0 0 o.a.toNat) :=
    by
    simp only [State.acquireHandle, unguarded]
  have release : s.leftRegion.releaseHandle o.a.toNat sc.toNat = s.leftRegion.fenceLines (accessInfo 0 0 o.a.toNat) :=
    by
    simp only [State.releaseHandle, unguarded]
  simp only [List.forall_mem_cons, List.not_mem_nil, false_implies, implies_true, and_true]
  exact ⟨fence 0 rfl rfl, fence _ rfl (congrArg thenNext acquire), fence _ rfl (congrArg thenNext release),
    fence _ ((exec_relK first second).trans rfl) (congrArg thenNext release)⟩

/-! ### Stores that leave the store buffer -/

/-- The line that a store leaving the store buffer makes in an empty line buffer (R320). -/
def storedLine (place guard : Nat) (bs : List Byte) : LineBuf :=
  let m := maskBits (place % 64) bs.length
  ⟨place / 64, putBytes (List.replicate 64 0) (place % 64) bs, 0 ||| m, 0 ||| m, guard⟩

/-- Its dirty bytes are those of the store. -/
theorem storedLine_dirty {place guard k : Nat} {bs : List Byte} (hk : k < 64) :
    (storedLine place guard bs).dirty.getLsbD k = decide (place % 64 ≤ k ∧ k < place % 64 + bs.length) := by
  simp only [storedLine, BitVec.ofNat_eq_ofNat, BitVec.zero_or, getLsbD_maskBits, hk, true_and]

theorem storedLine_data {place guard i : Nat} {bs : List Byte} (hi : i < bs.length) :
    (storedLine place guard bs).data.getD (place % 64 + i) 0 = bs.getD i 0 := by
  have off : place % 64 < 64 := Nat.mod_lt _ (by decide)
  simp only [storedLine, putBytes, List.getD_eq_getElem?_getD, List.append_assoc]
  rw [List.getElem?_append_right (by simp), List.getElem?_append_left (by simp; omega)]
  congr 2
  simp
  omega

/-- A line whose dirty bytes are those of a store, once written, is the store in memory. -/
theorem bytesPut_storedLine {s t : State} {place guard : Nat} {bs : List Byte} (fits : place % 64 + bs.length ≤ 64)
    (put : LineWritten s t (storedLine place guard bs)) : BytesPut s t place bs := by
  obtain ⟨outside, inside⟩ := put
  have line : (storedLine place guard bs).line * 64 = place / 64 * 64 := rfl
  simp only [line] at outside inside
  refine ⟨List.ext_getElem (by simp [memRead]) fun i hi hb => ?_, fun c out => ?_⟩
  · have byte := inside (place % 64 + i) (by omega)
    rw [storedLine_dirty (by omega), decide_eq_true (by omega), if_pos rfl, storedLine_data hb,
      show place / 64 * 64 + (place % 64 + i) = place + i by omega, List.getD_eq_getElem _ _ hb] at byte
    simpa [memRead] using byte
  · by_cases within_ : place / 64 * 64 ≤ c ∧ c < place / 64 * 64 + 64
    · have byte := inside (c - place / 64 * 64) (by omega)
      rwa [storedLine_dirty (by omega), decide_eq_false (by omega), if_neg Bool.false_ne_true,
        show place / 64 * 64 + (c - place / 64 * 64) = c by omega] at byte
    · exact outside c (by omega)

/-- A store that leaves the store buffer with the line buffer empty makes its line there (R320). -/
theorem lineStore_empty {s : State} {place guard : Nat} {bs : List Byte} {info : Word} (empty : s.core.lines = []) :
    s.lineStore place guard bs info = .ok (s.upCore (fun c => { c with lines := [storedLine place guard bs] })) := by
  have room (l : LineBuf) := putLine_room (s := s) (l := l) (info := info) (by simp [empty])
  simp only [State.lineStore, room, empty, List.filter_nil, List.find?_nil, Option.getD_none]
  rfl

/-- A line may be written where bytes of it may be. -/
theorem writableAt_line {s : State} {a n : Nat} (some_ : n ≠ 0) (fits : a % 64 + n ≤ 64) (good : s.writableAt a n) :
    s.writableAt (a / 64 * 64) 64 := by
  have lines : linesOf (a / 64 * 64) 64 = linesOf a n := by rw [linesOf_line, linesOf_within some_ fits]
  have hbm : a / 64 * 64 < bmBase ↔ a < bmBase := by
    rw [bmBase]
    omega
  obtain ⟨lines', still⟩ := good
  refine ⟨by rwa [lines], ?_⟩
  simpa only [State.writeWaits, State.transit?, lines, hbm] using still

theorem without_lines {c : Core} (clear : c.lines = []) : { c.emptied.shut with lines := [] } = c.emptied.shut := by
  rw [← clear]
  rfl

/-- A buffered store to this package that has to wait for nothing is in memory once a fence has followed it. -/
theorem drained_fenced {s : State} {e : SEntry} {info : Word} (wf : s.memOk) (clear : s.core.lines = [])
    (acked : s.core.posted = []) (none_ : s.core.held = []) (here : e.view.local_ = true) (some_ : 1 ≤ e.bytes.length)
    (fits : e.place % 64 + e.bytes.length ≤ 64) (good : s.writableAt e.place e.bytes.length) :
    ∃ d t, s.drain [e] = .ok d ∧ d.leftRegion.fenceLines info = .ok t ∧ BytesPut s t e.place e.bytes ∧
      t.core = { s.leftRegion.core with lines := [] } := by
  have none' : e.bytes.length ≠ 0 := by omega
  simp only [State.drain, State.perform, here, Bool.not_true, Bool.false_eq_true, if_false]
  by_cases shared : e.view.kind ≤ 1
  · obtain ⟨d, written, cells, core, -⟩ := ordWrite_good (info := accessInfo e.view.off e.view.opw e.view.hreg) good.2
      good.1
    have left : d.leftRegion.core = { s.leftRegion.core with lines := [] } :=
      (congrArg (fun c => c.emptied.shut) core).trans (without_lines clear).symm
    refine ⟨d, d.leftRegion, by rw [if_pos shared, written], fenceLines_settled _ _ ?_, bytesPut_of_cells wf cells,
      left⟩
    rw [State.settled, left]
    exact ⟨rfl, rfl, acked, none_⟩
  · let l := storedLine e.place e.view.guard e.bytes
    obtain ⟨t, fenced, core, put⟩ := fenceLines_one (s := (s.upCore (fun c => { c with lines := [l] })).leftRegion)
      (l := l)
      (info := info) wf rfl (writableAt_line none' fits good) acked none_
    exact ⟨_, t, by rw [if_neg shared, lineStore_empty clear], fenced, bytesPut_storedLine fits put, core⟩

theorem bufferedStore : BufferedStore := by
  intro sc o s e wf one clear acked none_ here some_ fits good
  obtain ⟨d, t, drains, fenced, put, core⟩ := drained_fenced (info := 0) wf clear acked none_ here some_ fits good
  obtain ⟨lines, live, pc, next⟩ := fenced_core core
  exact gives_drained (t := t.advance 1) (by rfl) (one ▸ drains) (by rw [fenced, thenNext]) ⟨put, live, lines, pc, next⟩

/-! ### Stores to another package -/

/-- A write to a rank that can be reached is posted, and nothing else of the core changes (R360, R408). -/
theorem post_posted {s : State} {v : View} {a : Nat} {bs : List Byte} (reached : s.rankFault v.rank true = none) :
    Posted s (s.post v.rank a bs) v a bs ∧ ∃ links posted, s.post v.rank a bs =
      { s with links := links, core := { s.core with posted := posted } } := by
  obtain ⟨r, links, sent, reqs, op, rank, addr, bytes, len, core, resp, posted⟩ :=
    send_records s none 0 .write v.rank a bs bs.length true
  have post : s.post v.rank a bs = { s with links := links, core := { s.core with posted := s.core.posted ++ [r.id] }
    } := by
    simp only [State.post, reached, sent]
    rfl
  rw [post]
  exact ⟨⟨r, reqs, op, rank, addr, bytes, posted, resp, rfl, rfl⟩, _, _, rfl⟩

theorem bufferedRemoteStore : BufferedRemoteStore := by
  intro o s e one away reached room
  obtain ⟨⟨r, reqs, op, rank, addr, bytes, posted, resp, awaited, mem⟩, links, ids, post⟩ :=
    post_posted (a := e.place) (bs := e.bytes) reached
  have drains : s.drain [e] = .ok (s.post e.view.rank e.place e.bytes) := by
    simp only [State.drain, State.perform, away, room, Bool.not_false, if_true, Bool.false_eq_true, if_false]
  refine gives_drained (act := fun s => .ok (s.advance 1)) (by rfl) (one ▸ drains) rfl
    ⟨⟨r, reqs, op, rank, addr, bytes, posted, resp, awaited, mem⟩, ?_⟩
  rw [post]
  exact ⟨rfl, rfl, rfl, rfl, rfl, rfl, rfl, rfl⟩

/-- Settles O24: a store reaches memory through the buffer's drain and the write-back of its line, or is posted. -/
theorem storesReachMemory : Obligations.StoresReachMemory := ⟨bufferedStore, linesWrittenBack, bufferedRemoteStore⟩

end Sys2Proof.Machine
end

section
/-! Memory stays canonical (log 42). Only the rules of memory itself change its list of bytes, and each keeps it canonical;
every other operation of the model hands on the memory of an operation it calls. So there is one lemma for each operation,
`<operation>_memOk`, in the order of the model, up to `exec`, `turn` and `step`: with canonical memory before, memory is
canonical after, whether the operation completes or stops. Each proof names the operations called. -/

namespace Sys2Proof.Machine

/-- Memory stays canonical whether the operation completes or stops. -/
def Keeps {ε α : Type} (p : α → State) : Except (ε × State) α → Prop
  | .ok a => (p a).memOk
  | .error e => e.2.memOk

theorem keeps_ok {ε α : Type} (p : α → State) (a : α) : Keeps p (.ok a : Except (ε × State) α) = (p a).memOk := rfl

theorem keeps_error {ε α : Type} (p : α → State) (e) : Keeps p (.error e : Except (ε × State) α) = e.2.memOk := rfl

/-- Memory stays canonical in the state that follows, if one follows. -/
def Ends : Outcome → Prop
  | .next t => t.memOk
  | _ => True

theorem ends_next (t) : Ends (.next t) = t.memOk := rfl

/-- Canonical memory stays so through `f`. -/
def StepKeeps (f : State → Res State) : Prop := ∀ t, t.memOk → Keeps id (f t)

theorem foldl_cells {α : Type} {m : Mem} (hm : Memory.wf m.cells = true) (l : List α) {g : Mem → α → Mem}
    (h : ∀ m a, Memory.wf m.cells = true → Memory.wf (g m a).cells = true) : Memory.wf (l.foldl g m).cells = true :=
  List.foldlRecOn (motive := fun m => Memory.wf m.cells = true) l g hm fun m hm a _ => h m a hm

theorem foldl_memOk {α : Type} {s : State} (ok : s.memOk) (l : List α) (g : State → α → State)
  (h : ∀ t a, t.memOk → (g t a).memOk) : (l.foldl g s).memOk := List.foldlRecOn (motive := State.memOk) l g ok
    (fun t ht a _ => h t a ht)

theorem stepKeeps_ok : StepKeeps .ok := fun _ hm => hm

/-- Canonical memory stays so through every unit of work. -/
def UnitKeeps (f : UnitFn) : Prop := ∀ x i t, t.memOk → Keeps id (f x i t)

/-- Canonical memory stays so through every micro-order. -/
def MicroKeeps (f : MicroFn) : Prop := ∀ m x t, t.memOk → Keeps id (f m x t)

/-! ### Canonical memory: Access -/

theorem setCoreAt_memOk {s : State} (hm : s.memOk) (n) (c) : (State.setCoreAt s n c).memOk := by
  grind [State.setCoreAt, State.memOk]

theorem focus_memOk {s : State} (hm : s.memOk) (n) : (State.focus s n).memOk := by
  grind [State.focus, State.memOk]

theorem on_memOk {s : State} (hm : s.memOk) (n) {f} (hf : ∀ t, t.memOk → (f t).memOk) : (State.on s n f).memOk := by
  grind [State.on, focus_memOk]

theorem onCores_memOk {s : State} (hm : s.memOk) (f) : (State.onCores s f).memOk :=
  hm

theorem upCore_memOk {s : State} (hm : s.memOk) (f) : (State.upCore s f).memOk :=
  hm

theorem upRegs_memOk {s : State} (hm : s.memOk) (f) : (State.upRegs s f).memOk :=
  hm

theorem setS_memOk {s : State} (hm : s.memOk) (r) (v) : (State.setS s r v).memOk := by
  grind [State.setS, upRegs_memOk]

theorem orFlags_memOk {s : State} (hm : s.memOk) (f) : (State.orFlags s f).memOk :=
  hm

theorem advance_memOk {s : State} (hm : s.memOk) (n) : (State.advance s n).memOk :=
  hm

theorem jump_memOk {s : State} (hm : s.memOk) (pc) : (State.jump s pc).memOk :=
  hm

theorem mark_memOk {m : Mem} (hm : Memory.wf m.cells = true) (line) : Memory.wf (Mem.mark m line).cells = true :=
  hm

theorem wakeBy_memOk {s : State} (hm : s.memOk) (hit) : (State.wakeBy s hit).memOk := by
  grind [State.wakeBy, State.memOk]

theorem dropWatchers_memOk {s : State} (hm : s.memOk) (p) : (State.dropWatchers s p).1.memOk :=
  hm

theorem wake_memOk {s : State} (hm : s.memOk) (a) (n) : (State.wake s a n).memOk := by
  grind [State.wake, wakeBy_memOk]

theorem drawByte_memOk {s : State} (hm : s.memOk) (given) : (State.drawByte s given).2.memOk :=
  hm

theorem drawBytes_memOk (x1) {x2 : State} (hm : x2.memOk) : (State.drawBytes x1 x2).2.memOk := by
  fun_induction State.drawBytes x1 x2 <;> grind [drawByte_memOk]

theorem drawOver_memOk {s : State} (hm : s.memOk) (bs) : (State.drawOver s bs).2.memOk := by
  grind [State.drawOver, drawBytes_memOk]

theorem upFn_memOk {s : State} (hm : s.memOk) (f) (g) : (State.upFn s f g).memOk :=
  hm

theorem countFor_memOk {s : State} (hm : s.memOk) (j) (id) (n) : (State.countFor s j id n).memOk := by
  fun_cases State.countFor s j id n <;> grind [upFn_memOk]

theorem noteStall_memOk {s : State} (hm : s.memOk) (core) (who) (line) : (State.noteStall s core who line).memOk := by
  grind [State.noteStall, countFor_memOk, State.memOk]

theorem noteHeld_memOk {s : State} (hm : s.memOk) (core) (who) (w) : (State.noteHeld s core who w).memOk := by
  fun_cases State.noteHeld s core who w <;> grind [noteStall_memOk, State.memOk]

theorem ordRead_memOk {s : State} (hm : s.memOk) (dom) (a) (n) (info) : Keeps (fun _ => s)
    (State.ordRead s dom a n info) := by
  grind [State.ordRead, mark_memOk, keeps_ok, keeps_error, State.memOk]

theorem claim_memOk {m : Mem} (hm : Memory.wf m.cells = true) (dom) (a) (n) : Memory.wf (Mem.claim m dom a n).cells =
    true :=
  hm

theorem scrubFirst_memOk {s : State} (hm : s.memOk) (ls) : Memory.wf (State.scrubFirst s ls).cells = true :=
  hm

theorem ordWrite_memOk {s : State} (hm : s.memOk) (dom) (a) (bs) (info) : Keeps id (State.ordWrite s dom a bs info) :=
    by
  grind [State.ordWrite, mark_memOk, wake_memOk, claim_memOk, scrubFirst_memOk, keeps_ok, keeps_error, State.memOk,
    memWrite_wf]

theorem maskNow_memOk {s : State} (hm : s.memOk) (dom) (line) (bs) (info) : Keeps id
    (State.maskNow s dom line bs info) := by
  grind [State.maskNow, mark_memOk, wakeBy_memOk, scrubFirst_memOk, keeps_ok, keeps_error, State.memOk, memWriteMask_wf]

theorem ordWriteMask_memOk {s : State} (hm : s.memOk) (dom) (line) (bs) (info) : Keeps id
    (State.ordWriteMask s dom line bs info) := by
  grind [State.ordWriteMask, maskNow_memOk, keeps_error]

theorem translate_memOk {s : State} (hm : s.memOk) (t) (ta) (kind) (need) (info) : Keeps (·.2)
    (State.translate s t ta kind need info) := by
  grind [State.translate, keeps_ok, keeps_error, State.memOk]

/-! ### Canonical memory: Teardown -/

theorem upLaunch_memOk {s : State} (hm : s.memOk) (n) (f) : (State.upLaunch s n f).memOk :=
  hm

theorem respond_memOk {s : State} (hm : s.memOk) (f) (status) (bs) : (State.respond s f status bs).memOk :=
  hm

theorem recordsLeft_memOk {s : State} (hm : s.memOk) (f) (left) : (State.recordsLeft s f left).memOk := by
  grind [State.recordsLeft, upFn_memOk, respond_memOk]

theorem logRec_memOk {s : State} (hm : s.memOk) (k) (a) (b) (c) : (State.logRec s k a b c).memOk :=
  hm

theorem logWalks_memOk {s : State} (hm : s.memOk) (t) (kind) (tas) : (State.logWalks s t kind tas).memOk := by
  grind [State.logWalks, logRec_memOk]

theorem raise_memOk {s : State} (hm : s.memOk) (f) (vector) : (State.raise s f vector).memOk :=
  hm

theorem complete_memOk {s : State} (hm : s.memOk) (f) (r) : (State.complete s f r).memOk := by
  grind [State.complete, upFn_memOk]

theorem wipe_memOk {m : Mem} (hm : Memory.wf m.cells = true) (a n) : Memory.wf (m.wipe a n).cells = true :=
  memZero_wf _ _ _ hm

theorem freeShares_memOk {s : State} (hm : s.memOk) (p) : (s.freeShares p).memOk :=
  foldl_cells hm _ fun _ _ ok => wipe_memOk ok _ _

theorem freeCps_memOk {s : State} (hm : s.memOk) (p) : (s.freeCps p).memOk :=
  foldl_cells hm _ fun _ _ ok => wipe_memOk ok _ _

theorem gangSaved_memOk {s : State} (hm : s.memOk) (l) : (State.gangSaved s l).memOk := by
  grind [State.gangSaved, upLaunch_memOk]

theorem gangLeft_memOk {s : State} (hm : s.memOk) (l) : (State.gangLeft s l).memOk := by
  grind [State.gangLeft, gangSaved_memOk]

theorem endStrand_memOk {s : State} (hm : s.memOk) (status) : (State.endStrand s status).memOk := by
  grind [State.endStrand, upCore_memOk, upLaunch_memOk, freeShares_memOk, freeCps_memOk, gangLeft_memOk]

theorem writeBackLoose_memOk {s : State} (hm : s.memOk) (dom) (core) (x4) : (State.writeBackLoose s dom core x4).memOk
    := by
  fun_induction State.writeBackLoose s dom core x4 <;> grind [maskNow_memOk, logRec_memOk, keeps_ok, keeps_error]

theorem writeBackCores_memOk {s : State} (hm : s.memOk) (p) : (State.writeBackCores s p).memOk := by
  grind [State.writeBackCores, writeBackLoose_memOk, foldl_memOk]

theorem onceLoose_memOk {s : State} (hm : s.memOk) (p) {f} (hf : ∀ t, t.memOk → (f t).memOk) :
    (State.onceLoose s p f).memOk := by
  grind [State.onceLoose, noteHeld_memOk, foldl_memOk]

theorem stopStrands_memOk {s : State} (hm : s.memOk) (p) (back) : (State.stopStrands s p back).memOk := by
  grind [State.stopStrands, onCores_memOk, writeBackCores_memOk, State.memOk]

theorem freeLaunch_memOk {s : State} (hm : s.memOk) (p) : (State.freeLaunch s p).memOk :=
  freeCps_memOk (freeShares_memOk hm ..) ..

theorem scrubAt_memOk {s : State} (hm : s.memOk) (e) : (State.scrubAt s e).memOk :=
  hm

theorem startScrubSweep_memOk {s : State} (hm : s.memOk) : (State.startScrubSweep s).memOk := by
  grind [State.startScrubSweep, scrubAt_memOk, State.memOk]

theorem settleTids_memOk {s : State} (hm : s.memOk) : (State.settleTids s).memOk :=
  hm

theorem rotationGone_memOk {s : State} (hm : s.memOk) (t) : (State.rotationGone s t).memOk := by
  grind [State.rotationGone, raise_memOk]

theorem soilExtents_memOk {s : State} (hm : s.memOk) (t) : (s.soilExtents t).memOk :=
  foldl_cells hm _ fun _ _ ok => wipe_memOk ok _ _

theorem startScrub_memOk {s : State} (hm : s.memOk) (c) : (State.startScrub s c).memOk :=
  startScrubSweep_memOk (soilExtents_memOk hm ..) ..

theorem endContext_memOk {s : State} (hm : s.memOk) (num) (status) (cause) :
    (State.endContext s num status cause).memOk := by
  grind [State.endContext, complete_memOk, stopStrands_memOk, freeLaunch_memOk, settleTids_memOk, rotationGone_memOk,
    startScrub_memOk, State.memOk, foldl_memOk]

theorem loseContext_memOk {s : State} (hm : s.memOk) (num) (cause) : (State.loseContext s num cause).memOk :=
  endContext_memOk (logRec_memOk hm ..) ..

theorem loseOwn_memOk {s : State} (hm : s.memOk) (cause) : (State.loseOwn s cause).memOk := by
  grind [State.loseOwn, upCore_memOk, loseContext_memOk]

/-! ### Canonical memory: Ops -/

theorem refusedRec_memOk {s : State} (hm : s.memOk) (r) : (State.refusedRec s r).memOk :=
  hm

theorem emitAt_memOk {s : State} (hm : s.memOk) (p) (x) : (State.emitAt s p x).memOk := by
  grind [State.emitAt, State.memOk]

theorem emit_memOk {s : State} (hm : s.memOk) (x) : (State.emit s x).memOk :=
  emitAt_memOk hm ..

theorem upEndpoint_memOk {s : State} (hm : s.memOk) (e) (x) : (State.upEndpoint s e x).memOk :=
  hm

theorem emitFrame_memOk {s : State} (hm : s.memOk) (e) (x) : (State.emitFrame s e x).memOk :=
  hm

theorem depart_memOk {s : State} (hm : s.memOk) (r) : (State.depart s r).memOk := by
  grind [State.depart, emitAt_memOk, emitFrame_memOk]

theorem send_memOk {s : State} (hm : s.memOk) (cmd) (piece) (op) (rank) (addr) (bytes) (len) (posted) :
    (State.send s cmd piece op rank addr bytes len posted).2.memOk := by
  grind [State.send, depart_memOk, State.memOk]

theorem remoteGet_memOk {s : State} (hm : s.memOk) (op) (rank) (addr) (bytes) (len) (info) (scalar) : Keeps (·.2)
    (State.remoteGet s op rank addr bytes len info scalar) := by
  fun_cases State.remoteGet s op rank addr bytes len info scalar <;> grind
    [upCore_memOk, loseOwn_memOk, refusedRec_memOk, send_memOk, keeps_ok, keeps_error, State.memOk]

theorem fill_memOk {s : State} (hm : s.memOk) (entry) (off) (h) (opw) (query) : Keeps (·.2)
    (State.fill s entry off h opw query) := by
  fun_cases State.fill s entry off h opw query <;> grind [ordRead_memOk, translate_memOk, logRec_memOk,
    remoteGet_memOk, keeps_ok, keeps_error]

theorem cacheHandle_memOk {s : State} (hm : s.memOk) (c) : (State.cacheHandle s c).memOk :=
  hm

theorem checkHandle_memOk {s : State} (hm : s.memOk) (h) (off) (opw) (query) : Keeps (·.2)
    (State.checkHandle s h off opw query) := by
  grind [State.checkHandle, fill_memOk, cacheHandle_memOk, keeps_ok, keeps_error]

theorem openHandle_memOk {s : State} (hm : s.memOk) (h) (off) (need) (opw) : Keeps (·.2)
    (State.openHandle s h off need opw) := by
  grind [State.openHandle, checkHandle_memOk, keeps_ok, keeps_error]

theorem readHandle_memOk {s : State} (hm : s.memOk) (h) (off) (len) (need) (opw) : Keeps (·.2)
    (State.readHandle s h off len need opw) := by
  grind [State.readHandle, checkHandle_memOk, openHandle_memOk, keeps_ok, keeps_error]

theorem viewPlace_memOk {s : State} (hm : s.memOk) (v) (off) (need) (info) : Keeps (·.2)
    (State.viewPlace s v off need info) := by
  grind [State.viewPlace, translate_memOk, keeps_ok, keeps_error]

theorem writeBack_memOk {s : State} (hm : s.memOk) (l) (info) : Keeps id (State.writeBack s l info) := by
  grind [State.writeBack, ordWriteMask_memOk, keeps_ok]

theorem writeBackAll_memOk {s : State} (hm : s.memOk) (info) (x3) : Keeps id (State.writeBackAll s info x3) := by
  fun_induction State.writeBackAll s info x3 <;> grind [writeBack_memOk, keeps_ok]

theorem flushLines_memOk {s : State} (hm : s.memOk) (info) : Keeps id (State.flushLines s info) := by
  grind [State.flushLines, upCore_memOk, writeBackAll_memOk, keeps_ok]

theorem dropLines_memOk {s : State} (hm : s.memOk) (p) (info) : Keeps id (State.dropLines s p info) := by
  grind [State.dropLines, upCore_memOk, writeBackAll_memOk, keeps_ok]

theorem putLine_memOk {s : State} (hm : s.memOk) (l) (info) : Keeps id (State.putLine s l info) := by
  grind [State.putLine, upCore_memOk, writeBack_memOk, keeps_ok]

theorem lineStore_memOk {s : State} (hm : s.memOk) (place) (guard) (bs) (info) : Keeps id
    (State.lineStore s place guard bs info) :=
  putLine_memOk hm ..

theorem lineLoad_memOk {s : State} (hm : s.memOk) (place) (n) (guard) (info) : Keeps (·.2)
    (State.lineLoad s place n guard info) := by
  grind [State.lineLoad, ordRead_memOk, putLine_memOk, keeps_ok, keeps_error]

theorem post_memOk {s : State} (hm : s.memOk) (rank) (addr) (bs) : (State.post s rank addr bs).memOk := by
  grind [State.post, upCore_memOk, send_memOk, State.memOk]

theorem perform_memOk {s : State} (hm : s.memOk) (e) : Keeps id (State.perform s e) := by
  grind [State.perform, ordWrite_memOk, lineStore_memOk, post_memOk, keeps_ok, keeps_error]

theorem drain_memOk {s : State} (hm : s.memOk) (x2) : Keeps id (State.drain s x2) := by
  fun_induction State.drain s x2 <;> grind [perform_memOk, keeps_ok]

theorem closeRegion_memOk {s : State} (hm : s.memOk) : Keeps id (State.closeRegion s) := by
  grind [State.closeRegion, upCore_memOk, drain_memOk, keeps_ok]

theorem between_memOk {s : State} (hm : s.memOk) {act} (hact : ∀ t, t.memOk → Keeps id (act t)) : Keeps id
    (State.between s act) := by
  grind [State.between, upCore_memOk, closeRegion_memOk, keeps_ok]

theorem boundary_memOk {s : State} (hm : s.memOk) : Keeps id (State.boundary s) := by
  grind [State.boundary, between_memOk, keeps_ok]

theorem poke_memOk {s : State} (hm : s.memOk) (a) (bs) : (State.poke s a bs).memOk := by
  grind [State.poke, State.memOk, memWrite_wf]

theorem platformWrite_memOk {s : State} (hm : s.memOk) (a) (bs) : (State.platformWrite s a bs).memOk := by
  grind [State.platformWrite, mark_memOk, logRec_memOk, poke_memOk, State.memOk]

theorem trace_memOk {s : State} (hm : s.memOk) (kind) (lc) (sp) (iter) (pc) : (State.trace s kind lc sp iter pc).memOk
    := by
  grind [State.trace, platformWrite_memOk, State.memOk]

theorem traceLoop_memOk {s : State} (hm : s.memOk) (kind) (pc) : (State.traceLoop s kind pc).memOk := by
  grind [State.traceLoop, trace_memOk]

theorem rollBack_memOk {s : State} (hm : s.memOk) (cause) : (State.rollBack s cause).memOk := by
  grind [State.rollBack, upCore_memOk, countFor_memOk, traceLoop_memOk]

theorem trapNow_memOk {s : State} (hm : s.memOk) (cause) (info) (epc) (rb) (tok) :
    (State.trapNow s cause info epc rb tok).memOk := by
  grind [State.trapNow, upCore_memOk, traceLoop_memOk]

theorem logConsumed_memOk {s : State} (hm : s.memOk) (line) : (State.logConsumed s line).memOk :=
  hm

theorem contain_memOk {s : State} (hm : s.memOk) (line) (info) (tok) : (State.contain s line info tok).memOk := by
  grind [State.contain, upCore_memOk, loseOwn_memOk, rollBack_memOk, trapNow_memOk, logConsumed_memOk]

theorem missTurn_memOk {s : State} (hm : s.memOk) (me) : (State.missTurn s me).2.memOk :=
  hm

theorem missServed_memOk {s : State} (hm : s.memOk) (me) : (State.missServed s me).memOk :=
  hm

theorem openRequest_memOk {s : State} (hm : s.memOk) (m) (first) : (State.openRequest s m first).2.memOk := by
  grind [State.openRequest, raise_memOk, State.memOk]

theorem askPage_memOk {s : State} (hm : s.memOk) (m) (me) : (State.askPage s m me).2.memOk := by
  grind [State.askPage, logRec_memOk, missTurn_memOk, missServed_memOk, openRequest_memOk]

theorem pageRequest_memOk {s : State} (hm : s.memOk) (m) (prod) : (State.pageRequest s m prod).2.memOk :=
  askPage_memOk hm ..

theorem unitRequest_memOk {s : State} (hm : s.memOk) (m) (id) : (State.unitRequest s m id).2.memOk := by
  grind [State.unitRequest, noteHeld_memOk, askPage_memOk]

theorem missed_memOk {s : State} (hm : s.memOk) (m) : (State.missed s m).memOk := by
  grind [State.missed, upCore_memOk, countFor_memOk, rollBack_memOk, pageRequest_memOk]

theorem askAgain_memOk {s : State} (hm : s.memOk) : ∀ u ∈ State.askAgain s, u.memOk := by
  grind [State.askAgain, upCore_memOk, pageRequest_memOk]

theorem trapEntry_memOk {s : State} (hm : s.memOk) (cause) (info) (epc) (rb) (tok) :
    (State.trapEntry s cause info epc rb tok).memOk := by
  grind [State.trapEntry, upCore_memOk, logRec_memOk, loseOwn_memOk, closeRegion_memOk, trapNow_memOk, contain_memOk,
    missed_memOk, keeps_ok, keeps_error]

theorem stalls_memOk {s : State} (hm : s.memOk) (w) : (State.stalls s w).memOk :=
  noteHeld_memOk (upCore_memOk hm ..) ..

theorem failedEntry_memOk {s : State} (hm : s.memOk) : (State.failedEntry s).memOk :=
  hm

theorem stop_memOk {s : State} (hm : s.memOk) (e) : (State.stop s e).memOk := by
  fun_cases State.stop s e <;> grind [contain_memOk, missed_memOk, trapEntry_memOk, stalls_memOk]

theorem fetchStop_memOk {s : State} (hm : s.memOk) (e) : (State.fetchStop s e).memOk := by
  fun_cases State.fetchStop s e <;> grind [logConsumed_memOk, failedEntry_memOk, stop_memOk]

theorem orStalls_memOk {s : State} (hm : s.memOk) {t : State} (hm' : t.memOk) : (State.orStalls s t).memOk := by
  grind [State.orStalls, stalls_memOk]

theorem orHeld_memOk {s : State} (hm : s.memOk) {t : State} (hm' : t.memOk) : (State.orHeld s t).memOk := by
  grind [State.orHeld, noteHeld_memOk]

theorem retire_memOk {r : Res State} (kept : Keeps id r) : Ends (retire r) := by
  fun_cases retire r <;> grind [keeps_ok, keeps_error, ends_next, stop_memOk]

theorem returnFromTrap_memOk {s : State} (hm : s.memOk) : Keeps id (State.returnFromTrap s) := by
  grind [State.returnFromTrap, upCore_memOk, between_memOk, keeps_ok, keeps_error]

theorem awaitPosted_memOk {s : State} (hm : s.memOk) (info) : Keeps id (State.awaitPosted s info) := by
  grind [State.awaitPosted, upCore_memOk, keeps_ok, keeps_error]

theorem fenceLines_memOk {s : State} (hm : s.memOk) (info) : Keeps id (State.fenceLines s info) := by
  grind [State.fenceLines, dropLines_memOk, awaitPosted_memOk, keeps_ok]

theorem release_memOk {s : State} (hm : s.memOk) (scope) (info) : Keeps id (State.release s scope info) := by
  grind [State.release, flushLines_memOk, fenceLines_memOk, keeps_ok, keeps_error]

theorem acquire_memOk {s : State} (hm : s.memOk) (guard) (scope) (info) : Keeps id (State.acquire s guard scope info)
    := by
  grind [State.acquire, flushLines_memOk, dropLines_memOk, fenceLines_memOk, keeps_ok]

theorem waitOwn_memOk {s : State} (hm : s.memOk) : Keeps id (State.waitOwn s) := by
  grind [State.waitOwn, keeps_ok, keeps_error]

theorem haltNow_memOk {s : State} (hm : s.memOk) (status) : Keeps id (State.haltNow s status) := by
  grind [State.haltNow, endStrand_memOk, dropLines_memOk, waitOwn_memOk, keeps_ok, keeps_error]

/-! ### Canonical memory: ScalarInt -/

theorem alu_memOk {s : State} (hm : s.memOk) (o) (v) : Ends (State.alu s o v) :=
  setS_memOk hm ..

theorem aluFlags_memOk {s : State} (hm : s.memOk) (o) (v) (f) : Ends (State.aluFlags s o v f) :=
  setS_memOk hm ..

theorem aluI_memOk {s : State} (hm : s.memOk) (d) (v) : Ends (State.aluI s d v) :=
  setS_memOk hm ..

/-! ### Canonical memory: Control -/

theorem goto_memOk {s : State} (hm : s.memOk) (target) {f} (hf : ∀ t, t.memOk → (f t).memOk) : Keeps id
    (State.goto s target f) := by
  grind [State.goto, jump_memOk, keeps_ok, keeps_error]

theorem branch_memOk {s : State} (hm : s.memOk) (c) (o) : Ends (State.branch s c o) := by
  grind [State.branch, advance_memOk, retire_memOk, goto_memOk, ends_next]

theorem setForm_memOk {s : State} (hm : s.memOk) (n) (pipe) : (State.setForm s n pipe).memOk :=
  hm

theorem setLoop_memOk {s : State} (hm : s.memOk) (n) (lc) (itc) : (State.setLoop s n lc itc).memOk :=
  hm

theorem startPipe_memOk {s : State} (hm : s.memOk) : (State.startPipe s).memOk :=
  hm

theorem clearQ_memOk {s : State} (hm : s.memOk) : (State.clearQ s).memOk :=
  hm

theorem loopStart_memOk {s : State} (hm : s.memOk) (n) (o) (pipe) : Ends (State.loopStart s n o pipe) := by
  grind [State.loopStart, orFlags_memOk, advance_memOk, retire_memOk, goto_memOk, setForm_memOk, setLoop_memOk,
    startPipe_memOk, clearQ_memOk, ends_next]

theorem stopPoint_memOk {s : State} (hm : s.memOk) : (State.stopPoint s).memOk := by
  grind [State.stopPoint, upCore_memOk, traceLoop_memOk]

theorem afterBackEdge_memOk {s : State} (hm : s.memOk) (n) (pipe) (pc) : (State.afterBackEdge s n pipe pc).memOk :=
  stopPoint_memOk (trace_memOk hm ..) ..

theorem backEdge_memOk {s : State} (hm : s.memOk) (n) (o) : Keeps id (State.backEdge s n o) := by
  grind [State.backEdge, advance_memOk, goto_memOk, setLoop_memOk, afterBackEdge_memOk, keeps_ok]

theorem backEdgePipe_memOk {s : State} (hm : s.memOk) (n) (stages) (o) : Keeps id (State.backEdgePipe s n stages o) :=
    by
  grind [State.backEdgePipe, upRegs_memOk, advance_memOk, goto_memOk, setLoop_memOk, afterBackEdge_memOk, keeps_ok]

theorem trapNext_memOk {s : State} (hm : s.memOk) (cause) (info) (len) : (State.trapNext s cause info len).memOk :=
  trapEntry_memOk hm ..

theorem execJmp_memOk (o) {s : State} (hm : s.memOk) : Ends (execJmp o s) := by
  grind [execJmp, retire_memOk, goto_memOk]

theorem execCall_memOk (o) {s : State} (hm : s.memOk) : Ends (execCall o s) := by
  grind [execCall, setS_memOk, retire_memOk, goto_memOk]

theorem execRet_memOk (o) {s : State} (hm : s.memOk) : Ends (execRet o s) := by
  grind [execRet, retire_memOk, goto_memOk]

theorem execTrapf_memOk (_o) {s : State} (hm : s.memOk) : Ends (execTrapf _o s) := by
  grind [execTrapf, advance_memOk, trapNext_memOk, ends_next]

theorem execRgn_memOk (_o) {s : State} (hm : s.memOk) : Ends (execRgn _o s) := by
  grind [execRgn, advance_memOk, between_memOk, retire_memOk, keeps_ok]

/-! ### Canonical memory: ScalarFp -/

theorem rounded_memOk {s : State} (hm : s.memOk) (f) : (State.rounded s f).2.memOk :=
  hm

theorem fpWrite_memOk {s : State} (hm : s.memOk) (f) (m) (r) (o) : Ends (State.fpWrite s f m r o) :=
  setS_memOk (rounded_memOk hm ..) ..

theorem fpCompare_memOk {s : State} (hm : s.memOk) (dbl) (c) (o) : Ends (State.fpCompare s dbl c o) :=
  aluFlags_memOk hm ..

theorem fpConvert_memOk {s : State} (hm : s.memOk) (dbl) (m) (o) : Ends (State.fpConvert s dbl m o) := by
  grind [State.fpConvert, fpWrite_memOk]

/-! ### Canonical memory: ScalarMem -/

theorem accessPlace_memOk {s : State} (hm : s.memOk) (v) (need) (info) : Keeps (·.2) (State.accessPlace s v need info)
    := by
  grind [State.accessPlace, upCore_memOk, viewPlace_memOk, keeps_ok, keeps_error]

theorem storePlace_memOk {s : State} (hm : s.memOk) (v) (info) : Keeps (·.2) (State.storePlace s v info) := by
  grind [State.storePlace, accessPlace_memOk, keeps_ok]

theorem loadPlain_memOk {s : State} (hm : s.memOk) (v) (n) (info) : Keeps (·.2) (State.loadPlain s v n info) := by
  grind [State.loadPlain, ordRead_memOk, remoteGet_memOk, lineLoad_memOk, accessPlace_memOk, keeps_ok, keeps_error]

theorem storePlain_memOk {s : State} (hm : s.memOk) (v) (bs) (info) : Keeps id (State.storePlain s v bs info) := by
  grind [State.storePlain, upCore_memOk, mark_memOk, ordWrite_memOk, storePlace_memOk, keeps_ok, keeps_error,
    State.memOk]

theorem dropTarget_memOk {s : State} (hm : s.memOk) (v) (a) (info) : Keeps id (State.dropTarget s v a info) := by
  grind [State.dropTarget, dropLines_memOk, keeps_ok]

theorem loadAcquire_memOk {s : State} (hm : s.memOk) (v) (n) (scope) (info) : Keeps (·.2)
    (State.loadAcquire s v n scope info) := by
  fun_cases State.loadAcquire s v n scope info <;> grind [ordRead_memOk, remoteGet_memOk, acquire_memOk,
    accessPlace_memOk, dropTarget_memOk, keeps_ok, keeps_error]

theorem writeAt_memOk {s : State} (hm : s.memOk) (v) (a) (bs) (info) : Keeps id (State.writeAt s v a bs info) := by
  grind [State.writeAt, ordWrite_memOk, post_memOk, keeps_ok, keeps_error]

theorem storeRelease_memOk {s : State} (hm : s.memOk) (v) (bs) (scope) (info) : Keeps id
    (State.storeRelease s v bs scope info) := by
  grind [State.storeRelease, release_memOk, storePlace_memOk, dropTarget_memOk, writeAt_memOk, keeps_ok, keeps_error]

theorem scalarView_memOk {s : State} (hm : s.memOk) (h) (off) (n) (need) : Keeps (·.2)
    (State.scalarView s h off n need) := by
  grind [State.scalarView, readHandle_memOk, keeps_ok, keeps_error]

theorem load_memOk {s : State} (hm : s.memOk) (o) : Keeps id (State.load s o) := by
  grind [State.load, setS_memOk, advance_memOk, between_memOk, loadPlain_memOk, loadAcquire_memOk, scalarView_memOk,
    keeps_ok, keeps_error]

theorem store_memOk {s : State} (hm : s.memOk) (o) : Keeps id (State.store s o) := by
  grind [State.store, advance_memOk, between_memOk, storePlain_memOk, storeRelease_memOk, scalarView_memOk, keeps_ok,
    keeps_error]

theorem setH_memOk {s : State} (hm : s.memOk) (h) (r) : (State.setH s h r).memOk :=
  hm

theorem handleLoad_memOk {s : State} (hm : s.memOk) (hd) (idx) : Keeps id (State.handleLoad s hd idx) := by
  grind [State.handleLoad, setH_memOk, keeps_ok, keeps_error]

theorem execHload_memOk (o) {s : State} (hm : s.memOk) : Ends (execHload o s) := by
  grind [execHload, advance_memOk, retire_memOk, handleLoad_memOk, keeps_ok]

theorem execHquery_memOk (o) {s : State} (hm : s.memOk) : Ends (execHquery o s) := by
  grind [execHquery, setS_memOk, advance_memOk, checkHandle_memOk, retire_memOk, keeps_ok, keeps_error]

theorem dropHandle_memOk {s : State} (hm : s.memOk) (h) : (State.dropHandle s h).memOk := by
  grind [State.dropHandle, upCore_memOk, setH_memOk]

theorem atomResult_memOk {s : State} (hm : s.memOk) (t) (n) (v) : (State.atomResult s t n v).memOk := by
  grind [State.atomResult, setS_memOk]

theorem modify_memOk {s : State} (hm : s.memOk) (v) (a) (aop) (n) (x) (w) (info) : Keeps (·.2)
    (State.modify s v a aop n x w info) := by
  grind [State.modify, ordRead_memOk, ordWrite_memOk, remoteGet_memOk, keeps_ok, keeps_error]

theorem atomDone_memOk {s : State} (hm : s.memOk) (o) (aop) (n) (x) (w) (len) (old) :
    (State.atomDone s o aop n x w len old).memOk :=
  atomResult_memOk hm ..

theorem atomAct_memOk {s : State} (hm : s.memOk) (o) (view) (aop) (n) (x) (w) (len) (info) : Keeps id
    (State.atomAct s o view aop n x w len info) := by
  fun_cases State.atomAct s o view aop n x w len info <;> grind [release_memOk, acquire_memOk, accessPlace_memOk,
    dropTarget_memOk, modify_memOk, atomDone_memOk, keeps_ok, keeps_error]

theorem atomic_memOk {s : State} (hm : s.memOk) (o) (v) (w) (aop) (n) : Keeps id (State.atomic s o v w aop n) := by
  grind [State.atomic, remoteGet_memOk, between_memOk, scalarView_memOk, atomDone_memOk, atomAct_memOk, keeps_ok,
    keeps_error]

/-! ### Canonical memory: Sync -/

theorem tokenWait_memOk {s : State} (hm : s.memOk) (ks) (len) : Keeps id (State.tokenWait s ks len) := by
  grind [State.tokenWait, advance_memOk, keeps_ok, keeps_error]

theorem clearTok_memOk {s : State} (hm : s.memOk) (k) : (State.clearTok s k).memOk := by
  grind [State.clearTok, upRegs_memOk]

theorem closeGroup_memOk {s : State} (hm : s.memOk) : Keeps id (State.closeGroup s) := by
  grind [State.closeGroup, upRegs_memOk, keeps_ok, keeps_error]

theorem execCommit_memOk (o) {s : State} (hm : s.memOk) : Ends (execCommit o s) := by
  grind [execCommit, setS_memOk, advance_memOk, retire_memOk, closeGroup_memOk, keeps_ok]

theorem groupWait_memOk {s : State} (hm : s.memOk) (p) (len) : Keeps id (State.groupWait s p len) := by
  grind [State.groupWait, advance_memOk, closeGroup_memOk, keeps_ok, keeps_error]

theorem arriveAt_memOk {s : State} (hm : s.memOk) (place) (m) : (State.arriveAt s place m).memOk := by
  grind [State.arriveAt, mark_memOk, logConsumed_memOk, State.memOk, memWrite_wf]

theorem readBarrier_memOk {s : State} (hm : s.memOk) (off) : Keeps (·.2) (State.readBarrier s off) := by
  grind [State.readBarrier, ordRead_memOk, keeps_ok, keeps_error]

theorem writeBarrier_memOk {s : State} (hm : s.memOk) (off) (b) : (State.writeBarrier s off b).memOk := by
  grind [State.writeBarrier, State.memOk, memWrite_wf]

theorem armBarrier_memOk {s : State} (hm : s.memOk) (off) (n) (d) : Keeps id (State.armBarrier s off n d) := by
  grind [State.armBarrier, setS_memOk, readBarrier_memOk, writeBarrier_memOk, keeps_ok, keeps_error]

theorem execBinit_memOk (o) {s : State} (hm : s.memOk) : Ends (execBinit o s) := by
  grind [execBinit, advance_memOk, between_memOk, retire_memOk, armBarrier_memOk, keeps_ok]

theorem arriveAll_memOk {s : State} (hm : s.memOk) (mask) (off) (n) : Keeps id (State.arriveAll s mask off n) := by
  fun_cases State.arriveAll s mask off n <;> grind [mark_memOk, fenceLines_memOk, arriveAt_memOk, keeps_ok,
    keeps_error, ends_next, State.memOk, foldl_memOk, memWrite_wf, memWriteMask_wf, memZero_wf, memSet_wf]

theorem execBarrive_memOk (o) {s : State} (hm : s.memOk) : Ends (execBarrive o s) := by
  grind [execBarrive, advance_memOk, between_memOk, retire_memOk, arriveAll_memOk, keeps_ok]

theorem execBwait_memOk (o) {s : State} (hm : s.memOk) : Ends (execBwait o s) := by
  grind [execBwait, advance_memOk, retire_memOk, readBarrier_memOk, keeps_ok, keeps_error]

theorem execBtest_memOk (o) {s : State} (hm : s.memOk) : Ends (execBtest o s) := by
  grind [execBtest, setS_memOk, advance_memOk, retire_memOk, readBarrier_memOk, keeps_ok, keeps_error]

theorem guardOf_memOk {s : State} (hm : s.memOk) (h) : Keeps (·.2) (State.guardOf s h) := by
  grind [State.guardOf, translate_memOk, checkHandle_memOk, keeps_ok, keeps_error]

theorem acquireHandle_memOk {s : State} (hm : s.memOk) (h) (scope) : Keeps id (State.acquireHandle s h scope) := by
  grind [State.acquireHandle, fenceLines_memOk, acquire_memOk, guardOf_memOk, keeps_ok, keeps_error]

theorem releaseHandle_memOk {s : State} (hm : s.memOk) (h) (scope) : Keeps id (State.releaseHandle s h scope) := by
  grind [State.releaseHandle, fenceLines_memOk, release_memOk, guardOf_memOk, keeps_ok, keeps_error]

theorem thenNext_memOk {r : Res State} (kept : Keeps id r) : Keeps id (thenNext r) := by
  fun_cases thenNext r <;> grind [keeps_ok, advance_memOk]

theorem execAcq_memOk (sc) (o) {s : State} (hm : s.memOk) : Ends (execAcq sc o s) := by
  grind [execAcq, between_memOk, retire_memOk, acquireHandle_memOk, thenNext_memOk]

theorem execRel_memOk (sc) (o) {s : State} (hm : s.memOk) : Ends (execRel sc o s) := by
  grind [execRel, between_memOk, retire_memOk, releaseHandle_memOk, thenNext_memOk]

theorem execRelK_memOk (sc) (o) {s : State} (hm : s.memOk) : Ends (execRelK sc o s) := by
  grind [execRelK, between_memOk, retire_memOk, releaseHandle_memOk, thenNext_memOk, keeps_error]

theorem execFence_memOk (_sc) (_o) {s : State} (hm : s.memOk) : Ends (execFence _sc _o s) := by
  grind [execFence, between_memOk, retire_memOk, fenceLines_memOk, thenNext_memOk]

/-! ### Canonical memory: Strand -/

theorem stopHere_memOk {s : State} (hm : s.memOk) : (State.stopHere s).memOk :=
  traceLoop_memOk hm ..

theorem atStopPoint_memOk {s : State} (hm : s.memOk) {r} (hr : Keeps id r) : Ends (s.atStopPoint r) := by
  grind [State.atStopPoint, retire_memOk, ends_next, stopHere_memOk]

theorem passStop_memOk {s : State} (hm : s.memOk) : (State.passStop s).memOk :=
  hm

theorem closing_memOk {s : State} (hm : s.memOk) {act} (hact : ∀ t, t.memOk → Keeps id (act t)) : Keeps id
    (State.closing s act) := by
  grind [State.closing, upCore_memOk, closeRegion_memOk, keeps_ok]

theorem impliedRelease_memOk {s : State} (hm : s.memOk) : Keeps id (State.impliedRelease s) :=
  fenceLines_memOk hm ..

theorem park_memOk {s : State} (hm : s.memOk) (j) (r) : (State.park s j r).memOk := by
  grind [State.park, upCore_memOk, freeShares_memOk, gangLeft_memOk, State.memOk]

theorem suspend_memOk {s : State} (hm : s.memOk) (sc) (y) : Keeps id (State.suspend s sc y) := by
  fun_cases State.suspend s sc y <;> grind [waitOwn_memOk, closing_memOk, impliedRelease_memOk, park_memOk, keeps_ok]

theorem execSuspend_memOk (sc) (_o) {s : State} (hm : s.memOk) : Ends (execSuspend sc _o s) := by
  grind [execSuspend, atStopPoint_memOk, suspend_memOk]

theorem execSuspendYield_memOk (sc) (_o) {s : State} (hm : s.memOk) : Ends (execSuspendYield sc _o s) := by
  grind [execSuspendYield, atStopPoint_memOk, suspend_memOk]

theorem watchAct_memOk {s : State} (hm : s.memOk) (j) (v) (expected) (sc) (len) (info) : Keeps id
    (State.watchAct s j v expected sc len info) := by
  fun_cases State.watchAct s j v expected sc len info <;> grind [upCore_memOk, advance_memOk, ordRead_memOk,
    viewPlace_memOk, passStop_memOk, impliedRelease_memOk, park_memOk, keeps_ok, keeps_error, State.memOk]

theorem watch_memOk {s : State} (hm : s.memOk) (sc) (o) : Keeps id (State.watch s sc o) := by
  fun_cases State.watch s sc o <;> grind [readHandle_memOk, waitOwn_memOk, closing_memOk, watchAct_memOk, keeps_ok,
    keeps_error]

theorem execWatch_memOk (sc) (o) {s : State} (hm : s.memOk) : Ends (execWatch sc o s) := by
  grind [execWatch, atStopPoint_memOk, watch_memOk]

theorem spawnAct_memOk {s : State} (hm : s.memOk) (j) (entry) (a) (d) : Keeps id (State.spawnAct s j entry a d) := by
  grind [State.spawnAct, setS_memOk, upLaunch_memOk, impliedRelease_memOk, keeps_ok, State.memOk]

theorem execSpawn_memOk (o) {s : State} (hm : s.memOk) : Ends (execSpawn o s) := by
  grind [execSpawn, advance_memOk, between_memOk, retire_memOk, spawnAct_memOk, keeps_ok, keeps_error]

theorem marked_memOk {s : State} (hm : s.memOk) (line) : (State.marked s line).memOk := by
  fun_cases State.marked s line <;> grind [mark_memOk, State.memOk]

theorem readPrio_memOk {s : State} (hm : s.memOk) (place) : (State.readPrio s place).2.memOk := by
  fun_cases State.readPrio s place <;> grind [logRec_memOk, marked_memOk]

theorem enqueueDevice_memOk {s : State} (hm : s.memOk) (j) (v) : (State.enqueueDevice s j v).2.memOk := by
  grind [State.enqueueDevice, readPrio_memOk, State.memOk]

theorem launchAct_memOk {s : State} (hm : s.memOk) (j) (v) (d) : Keeps id (State.launchAct s j v d) := by
  grind [State.launchAct, setS_memOk, impliedRelease_memOk, enqueueDevice_memOk, keeps_ok]

theorem execLaunch_memOk (o) {s : State} (hm : s.memOk) : Ends (execLaunch o s) := by
  refine retire_memOk ?_
  have read := readHandle_memOk hm o.a.toNat (s.opB o).toNat 256 .rd 0
  split
  · next e stopped => rw [stopped] at read; exact read
  · next v t opened =>
    rw [opened] at read
    have waited := waitOwn_memOk (s := t) read
    split
    · next e stopped => rw [stopped] at waited; exact waited
    · next u own =>
      rw [own] at waited
      refine between_memOk waited fun r hr => ?_
      grind [launchAct_memOk, advance_memOk, keeps_ok]

theorem sendSteal_memOk {s : State} (hm : s.memOk) (j) : (State.sendSteal s j).memOk :=
  hm

theorem serveSteal_memOk {s : State} (hm : s.memOk) (id) : (State.serveSteal s id).memOk := by
  grind [State.serveSteal, upCore_memOk, upRegs_memOk, State.memOk]

theorem thiefBack_memOk {s : State} (hm : s.memOk) : (State.thiefBack s).memOk :=
  hm

theorem splitAct_memOk {s : State} (hm : s.memOk) (j) : Keeps id (State.splitAct s j) := by
  grind [State.splitAct, upRegs_memOk, sendSteal_memOk, serveSteal_memOk, thiefBack_memOk, keeps_ok, keeps_error]

theorem execSplitchk_memOk (_o) {s : State} (hm : s.memOk) : Ends (execSplitchk _o s) := by
  grind [execSplitchk, advance_memOk, between_memOk, retire_memOk, thenNext_memOk, splitAct_memOk, keeps_ok]

theorem arriveStep_memOk {s : State} (hm : s.memOk) (j) : Keeps id (State.arriveStep s j) := by
  grind [State.arriveStep, upCore_memOk, upLaunch_memOk, impliedRelease_memOk, keeps_ok, keeps_error]

theorem stepAct_memOk {s : State} (hm : s.memOk) (j) : Keeps id (State.stepAct s j) := by
  grind [State.stepAct, upCore_memOk, dropLines_memOk, arriveStep_memOk, keeps_ok, keeps_error]

theorem superstep_memOk {s : State} (hm : s.memOk) : Keeps id (State.superstep s) := by
  fun_cases State.superstep s <;> grind [advance_memOk, between_memOk, waitOwn_memOk, passStop_memOk,
    impliedRelease_memOk, stepAct_memOk, keeps_ok]

theorem execSstep_memOk (_o) {s : State} (hm : s.memOk) : Ends (execSstep _o s) := by
  grind [execSstep, atStopPoint_memOk, superstep_memOk]

theorem exit_memOk {s : State} (hm : s.memOk) : Keeps id (State.exit s) := by
  grind [State.exit, endStrand_memOk, waitOwn_memOk, closing_memOk, impliedRelease_memOk, keeps_ok]

theorem execExit_memOk (_o) {s : State} (hm : s.memOk) : Ends (execExit _o s) := by
  grind [execExit, atStopPoint_memOk, exit_memOk]

/-! ### Canonical memory: Priv -/

theorem privOnly_memOk {s : State} (hm : s.memOk) (w) (csr) {r} (hr : Keeps id r) : Ends (s.privOnly w csr r) := by
  grind [State.privOnly, retire_memOk, keeps_error]

theorem execEret_memOk (o) {s : State} (hm : s.memOk) : Ends (execEret o s) := by
  grind [execEret, returnFromTrap_memOk, privOnly_memOk]

theorem halt_memOk {s : State} (hm : s.memOk) : Keeps id (State.halt s) := by
  grind [State.halt, waitOwn_memOk, haltNow_memOk, closing_memOk, keeps_ok]

theorem execHalt_memOk (o) {s : State} (hm : s.memOk) : Ends (execHalt o s) := by
  grind [execHalt, privOnly_memOk, halt_memOk]

theorem dropCodeIn_memOk {s : State} (hm : s.memOk) (sc) (tenant) (a) : (State.dropCodeIn s sc tenant a).memOk :=
  hm

theorem patchedWord {s : State} (hm : s.memOk) (v : View) (w : W32) (info : Word) : Keeps id (
        match s.accessPlace v 2 info with
        | .error e => .error e
        | .ok (a, s) =>
          match s.dropTarget v a info with
          | .error e => .error e
          | .ok s =>
            if v.local_ then s.ordWrite s.domain a (leBytes 4 w.toNat) info
            else
              match s.remoteGet .write v.rank a (leBytes 4 w.toNat) 4 info with
              | .error e => .error e
              | .ok (_, s) => .ok s) := by
  have placed := accessPlace_memOk hm v 2 info
  have dropped (t : State) (ht : t.memOk) (a : Nat) := dropTarget_memOk ht v a info
  grind [ordWrite_memOk, remoteGet_memOk, keeps_ok, keeps_error]

theorem codePatch_memOk {s : State} (hm : s.memOk) (o) (word) : Keeps id (s.codePatch o word) := by
  unfold State.codePatch
  extract_lets b sc off h info
  have opened := readHandle_memOk hm h off 4 (if word.isSome then .cwx else .rdx) 0
  generalize s.readHandle h off 4 _ 0 = got at opened ⊢
  match got with
  | .error e => exact opened
  | .ok (v, t) =>
    refine between_memOk opened fun u hu => ?_
    cases word with
    | none => exact advance_memOk (dropCodeIn_memOk hu _ _ _) _
    | some w =>
      have := patchedWord hu v w info
      grind [dropCodeIn_memOk, advance_memOk, keeps_ok]

theorem execIcinv_memOk (o) {s : State} (hm : s.memOk) : Ends (execIcinv o s) := by
  grind [execIcinv, privOnly_memOk, codePatch_memOk]

theorem execCodepatch_memOk (o) {s : State} (hm : s.memOk) : Ends (execCodepatch o s) := by
  grind [execCodepatch, privOnly_memOk, codePatch_memOk]

theorem execDbgstop_memOk (o) {s : State} (hm : s.memOk) : Ends (execDbgstop o s) := by
  grind [execDbgstop, upCore_memOk, advance_memOk, privOnly_memOk, keeps_ok]

/-! ### Canonical memory: Engine -/

theorem upCmd_memOk {s : State} (hm : s.memOk) (e) (prod) (f) : (State.upCmd s e prod f).memOk :=
  hm

theorem issue_memOk {s : State} (hm : s.memOk) (e) (i) (kd) (cons) (scal) (views) (len) (tags) (snap) : Keeps id
    (State.issue s e i kd cons scal views len tags snap) := by
  grind [State.issue, upCore_memOk, upRegs_memOk, advance_memOk, keeps_ok, keeps_error]

theorem finishCmd_memOk {s : State} (hm : s.memOk) (e) (x) (st) (det) : (State.finishCmd s e x st det).memOk := by
  grind [State.finishCmd, upCore_memOk, countFor_memOk]

theorem poisonCmd_memOk {s : State} (hm : s.memOk) (e) (x) (line) : (State.poisonCmd s e x line).memOk := by
  grind [State.poisonCmd, logConsumed_memOk, contain_memOk, finishCmd_memOk]

theorem restCmd_memOk {s : State} (hm : s.memOk) (e) (x) (i) (r) : (State.restCmd s e x i r).memOk := by
  fun_cases State.restCmd s e x i r <;> grind [countFor_memOk, noteHeld_memOk, pageRequest_memOk, upCmd_memOk,
    finishCmd_memOk, poisonCmd_memOk]

theorem askCmd_memOk {s : State} (hm : s.memOk) (e) (x) : ∀ u ∈ State.askCmd s e x, u.memOk := by
  grind [State.askCmd, pageRequest_memOk, upCmd_memOk]

theorem unitRest_memOk {s : State} (hm : s.memOk) {r} (hr : r.2.memOk) : (unitRest s r).2.memOk := by
  grind [unitRest]

theorem unitsWait_memOk {s : State} (hm : s.memOk) (f) (x) (i) (n) : (State.unitsWait s f x i n).memOk := by
  grind [State.unitsWait, noteHeld_memOk, foldl_memOk]

theorem unitRests_memOk {s : State} (hm : s.memOk) (f) (e) (x) (i) (n) {r} (hr : r.2.memOk) :
    (State.unitRests s f e x i n r).memOk := by
  grind [State.unitRests, unitRest_memOk, restCmd_memOk, unitsWait_memOk]

theorem runUnits_memOk {f} (hf : UnitKeeps f) (e) (x) (x4) (x5) {x6 : State} (hm : x6.memOk) :
    (State.runUnits f e x x4 x5 x6).memOk := by
  fun_induction State.runUnits f e x x4 x5 x6 <;> grind [upCmd_memOk, finishCmd_memOk, unitRests_memOk, UnitKeeps,
    keeps_ok, keeps_error]

theorem runUnit_memOk {f} (hf : UnitKeeps f) (e) (x) (n) (i) {s : State} (hm : s.memOk) :
    (State.runUnit f e x n i s).memOk := by
  grind [State.runUnit, upCmd_memOk, finishCmd_memOk, unitRests_memOk, UnitKeeps, keeps_ok, keeps_error]

theorem cmdFlags_memOk {s : State} (hm : s.memOk) (e) (prod) (fl) : (State.cmdFlags s e prod fl).memOk :=
  hm

theorem rounding_memOk {s : State} (hm : s.memOk) (e) (prod) (c) : (State.rounding s e prod c).memOk :=
  hm

theorem copyRounding_memOk {s : State} (hm : s.memOk) (x) (c) : (State.copyRounding s x c).memOk := by
  grind [State.copyRounding, upCore_memOk, cmdFlags_memOk, rounding_memOk]

theorem logStart_memOk {s : State} (hm : s.memOk) (e) (x) : (State.logStart s e x).memOk := by
  grind [State.logStart, upCore_memOk, platformWrite_memOk, State.memOk]

theorem broken_memOk {s : State} (hm : s.memOk) : (State.broken s).memOk := by
  grind [State.broken, State.memOk]

theorem lmRead_memOk {s : State} (hm : s.memOk) (off) (n) : Keeps (fun _ => s) (State.lmRead s off n) := by
  grind [State.lmRead, ordRead_memOk, broken_memOk, keeps_error]

theorem lmWrite_memOk {s : State} (hm : s.memOk) (off) (bs) : Keeps id (State.lmWrite s off bs) := by
  grind [State.lmWrite, ordWrite_memOk, broken_memOk, keeps_error]

theorem lmView_memOk {s : State} (hm : s.memOk) (h) (off) (len) (r) (opw) : Keeps (·.2)
    (State.lmView s h off len r opw) := by
  grind [State.lmView, readHandle_memOk, keeps_ok, keeps_error]

theorem lmOpen_memOk {s : State} (hm : s.memOk) (h) (r) : Keeps (·.2) (State.lmOpen s h r) := by
  grind [State.lmOpen, openHandle_memOk, keeps_ok, keeps_error]

theorem checks_memOk {s : State} (hm : s.memOk) {l} (hl : ∀ f ∈ l, StepKeeps f) : Keeps id (s.checks l) := by
  induction l generalizing s with
  | nil => exact hm
  | cons f l ih =>
    have first := hl f (by simp) s hm
    grind [State.checks, keeps_ok]

theorem chkLm_memOk (h) (off) (len) (r) (opw) {s : State} (hm : s.memOk) : Keeps id (chkLm h off len r opw s) := by
  grind [chkLm, lmView_memOk, keeps_ok, keeps_error]

theorem chkLm_keeps (h) (off) (len) (r) (opw) : StepKeeps (chkLm h off len r opw) := fun _ hm => chkLm_memOk _ _ _ _ _
    hm

theorem chkOpen_memOk (h) (r) {s : State} (hm : s.memOk) : Keeps id (chkOpen h r s) := by
  grind [chkOpen, lmOpen_memOk, keeps_ok, keeps_error]

theorem chkOpen_keeps (h) (r) : StepKeeps (chkOpen h r) := fun _ hm => chkOpen_memOk _ _ hm

theorem chk_memOk (b) (cause) (info) {s : State} (hm : s.memOk) : Keeps id (chk b cause info s) := by
  grind [chk, keeps_ok, keeps_error]

theorem chk_keeps (b) (cause) (info) : StepKeeps (chk b cause info) := fun _ hm => chk_memOk _ _ _ hm

/-! ### Canonical memory: Matrix -/

theorem issueMatrix_memOk {s : State} (hm : s.memOk) (i) (o) (n) (lit) (scal) : Keeps id
    (State.issueMatrix s i o n lit scal) :=
  issue_memOk hm ..

theorem execMcfg_memOk (o) {s : State} (hm : s.memOk) : Ends (execMcfg o s) := by
  grind [execMcfg, retire_memOk, issueMatrix_memOk, keeps_error]

theorem execMldw_memOk (o) {s : State} (hm : s.memOk) : Ends (execMldw o s) := by
  grind [execMldw, retire_memOk, checks_memOk, issueMatrix_memOk, chkLm_keeps, stepKeeps_ok, chk_keeps, stepKeeps_ok,
    keeps_ok]

theorem execMlda_memOk (o) {s : State} (hm : s.memOk) : Ends (execMlda o s) := by
  grind [execMlda, retire_memOk, chkLm_memOk, issueMatrix_memOk, keeps_ok]

theorem execMret_memOk (o) {s : State} (hm : s.memOk) : Ends (execMret o s) := by
  grind [execMret, retire_memOk, chkLm_memOk, issueMatrix_memOk, keeps_ok]

theorem upArrays_memOk {s : State} (hm : s.memOk) (f) : (State.upArrays s f).memOk :=
  hm

theorem unitMldw_memOk (o) : UnitKeeps (unitMldw o) := by
  intro x i t hm
  grind [unitMldw, lmRead_memOk, upArrays_memOk, keeps_ok, keeps_error]

theorem unitMmul_memOk (o) : UnitKeeps (unitMmul o) := by
  intro x i t hm
  grind [unitMmul, countFor_memOk, rounding_memOk, lmRead_memOk, upArrays_memOk, keeps_ok, keeps_error]

theorem unitMmulc_memOk (o) : UnitKeeps (unitMmulc o) := by
  intro x i t hm
  grind [unitMmulc, countFor_memOk, rounding_memOk, lmRead_memOk, upArrays_memOk, keeps_ok, keeps_error]

theorem unitMlda_memOk (o) : UnitKeeps (unitMlda o) := by
  intro x i t hm
  grind [unitMlda, rounding_memOk, lmRead_memOk, upArrays_memOk, keeps_ok, keeps_error]

theorem unitMret_memOk (o) : UnitKeeps (unitMret o) := by
  intro x i t hm
  grind [unitMret, rounding_memOk, lmWrite_memOk, upArrays_memOk, keeps_ok]

/-! ### Canonical memory: Plait -/

theorem chkSpan_memOk (h) (a) (r) {s : State} (hm : s.memOk) : Keeps id (chkSpan h a r s) := by
  grind [chkSpan, chkLm_memOk, keeps_ok]

theorem chkSpan_keeps (h) (a) (r) : StepKeeps (chkSpan h a r) := fun _ hm => chkSpan_memOk _ _ _ hm

theorem issuePlait_memOk {s : State} (hm : s.memOk) (i) (o) (n) (lit) (scal) (rd) (wr) (inPlace) : Keeps id
    (State.issuePlait s i o n lit scal rd wr inPlace) := by
  grind [State.issuePlait, issue_memOk, checks_memOk, chkSpan_keeps, keeps_ok]

theorem issuePairs_memOk {s : State} (hm : s.memOk) (i) (o) (zw) : Keeps id (State.issuePairs s i o zw) :=
  issuePlait_memOk hm ..

theorem lmWriteOr_memOk {s : State} (hm : s.memOk) (undef) (off) (bs) : Keeps id (State.lmWriteOr s undef off bs) := by
  grind [State.lmWriteOr, drawBytes_memOk, lmWrite_memOk]

theorem whole_memOk {s : State} (hm : s.memOk) {r} (hr : Keeps id r) : Keeps id (s.whole r) := by
  fun_cases State.whole s r <;> grind [keeps_error, State.memOk]

theorem lmWide_memOk {s : State} (hm : s.memOk) (tag) (off) (n) : Keeps (fun _ => s) (State.lmWide s tag off n) := by
  grind [State.lmWide, lmRead_memOk, keeps_ok, keeps_error]

theorem unitPlload_memOk (o) : UnitKeeps (unitPlload o) := by
  intro x i t hm
  grind [unitPlload, cmdFlags_memOk, upArrays_memOk, lmWide_memOk, keeps_ok, keeps_error]

theorem qrRow_memOk {s : State} (hm : s.memOk) (prod) (tag) (nc) (nb) (off) (log) (undef) : Keeps id
    (State.qrRow s prod tag nc nb off log undef) := by
  grind [State.qrRow, countFor_memOk, cmdFlags_memOk, upArrays_memOk, lmWriteOr_memOk, lmWide_memOk, keeps_ok,
    keeps_error]

theorem applyRow_memOk {s : State} (hm : s.memOk) (prod) (tag) (nb) (off) (log) : Keeps id
    (State.applyRow s prod tag nb off log) := by
  grind [State.applyRow, countFor_memOk, cmdFlags_memOk, lmRead_memOk, upArrays_memOk, lmWide_memOk, keeps_ok,
    keeps_error]

theorem unitPlqr_memOk (o) : UnitKeeps (unitPlqr o) :=
  fun _ _ _ hm => qrRow_memOk hm ..

theorem unitPlapply_memOk (o) : UnitKeeps (unitPlapply o) :=
  fun _ _ _ hm => applyRow_memOk hm ..

theorem lmColumn_memOk {s : State} (hm : s.memOk) (undef) (tag) (off) (st) (x6) : Keeps id
    (State.lmColumn s undef tag off st x6) := by
  fun_induction State.lmColumn s undef tag off st x6 <;> grind [lmWriteOr_memOk, keeps_ok]

theorem unitPlsolve_memOk (o) : UnitKeeps (unitPlsolve o) := by
  intro x i t hm
  grind [unitPlsolve, rounding_memOk, whole_memOk, lmColumn_memOk, keeps_ok]

theorem unitPldrain_memOk (o) : UnitKeeps (unitPldrain o) := by
  intro x i t hm
  grind [unitPldrain, rounding_memOk, lmWriteOr_memOk, keeps_ok]

theorem pieces_memOk {f} (hf : ∀ y1 t, t.memOk → Keeps id (f y1 t)) (x2) (x3) {x4 : State} (hm : x4.memOk) : Keeps id
    (State.pieces f x2 x3 x4) := by
  fun_induction State.pieces f x2 x3 x4 <;> grind [whole_memOk, keeps_ok]

theorem groupOf_memOk (size) (count) {f} (hf : UnitKeeps f) : UnitKeeps (groupOf size count f) := by
  grind [groupOf, UnitKeeps, upCmd_memOk, pieces_memOk, keeps_ok]

theorem drainElement_memOk (o) (x) (e) {s : State} (hm : s.memOk) : Keeps id (drainElement o x e s) := by
  grind [drainElement, rounding_memOk, lmWriteOr_memOk, lmWide_memOk, keeps_ok, keeps_error]

theorem pairOut_memOk {s : State} (hm : s.memOk) (o) (x) (p) (w) : Keeps id (State.pairOut s o x p w) := by
  grind [State.pairOut, rounding_memOk, lmWriteOr_memOk, lmWide_memOk, keeps_ok, keeps_error]

theorem applyPair_memOk (o) (x) (p) {s : State} (hm : s.memOk) : Keeps id (applyPair o x p s) := by
  grind [applyPair, lmRead_memOk, pairOut_memOk, keeps_error]

theorem rotPair_memOk (o) (x) (p) {s : State} (hm : s.memOk) : Keeps id (rotPair o x p s) := by
  grind [rotPair, lmRead_memOk, pairOut_memOk, keeps_error]

theorem vecOut_memOk (o) (x) (p) {s : State} (hm : s.memOk) : Keeps id (vecOut o x p s) := by
  fun_cases vecOut o x p s <;> grind [rounding_memOk, lmWriteOr_memOk, lmWide_memOk, keeps_ok, keeps_error]

/-! ### Canonical memory: VecIssue -/

theorem chkTags_memOk (base) (n) (ok) {s : State} (hm : s.memOk) : Keeps id (chkTags base n ok s) := by
  grind [chkTags, keeps_ok, keeps_error]

theorem chkTags_keeps (base) (n) (ok) : StepKeeps (chkTags base n ok) := fun _ hm => chkTags_memOk _ _ _ hm

theorem issueVec_memOk {s : State} (hm : s.memOk) (i) (kd) (scal) (tags) : Keeps id (State.issueVec s i kd scal tags) :=
  issue_memOk hm ..

theorem vec_memOk {s : State} (hm : s.memOk) {cs} (hcs : ∀ f ∈ cs, StepKeeps f) (i) (kd) (scal) (tags) : Ends
    (State.vec s cs i kd scal tags) := by
  grind [State.vec, retire_memOk, checks_memOk, issueVec_memOk, keeps_ok]

theorem vecD_memOk {s : State} (hm : s.memOk) (i) (o) {cs} (hcs : ∀ f ∈ cs, StepKeeps f) : Ends (State.vecD s i o cs)
    := by
  grind [State.vecD, vec_memOk]

theorem vecMem_memOk {s : State} (hm : s.memOk) (i) (o) (tag) (strided) (r) (tags) : Ends
    (State.vecMem s i o tag strided r tags) := by
  grind [State.vecMem, stop_memOk, vec_memOk, chkLm_keeps, ends_next]

theorem vecStore_memOk {s : State} (hm : s.memOk) (i) (o) (strided) : Ends (State.vecStore s i o strided) := by
  grind [State.vecStore, stop_memOk, chkTags_memOk, vecMem_memOk, keeps_ok, keeps_error, ends_next]

theorem execVgath_memOk (o) {s : State} (hm : s.memOk) : Ends (execVgath o s) := by
  grind [execVgath, vec_memOk, chkOpen_keeps, chkTags_keeps]

theorem execVscat_memOk (o) {s : State} (hm : s.memOk) : Ends (execVscat o s) := by
  grind [execVscat, vec_memOk, chkOpen_keeps, chkTags_keeps]

theorem execVchain_memOk (o) {s : State} (hm : s.memOk) : Ends (execVchain o s) := by
  grind [execVchain, vec_memOk, chkOpen_keeps]

theorem execVmov_memOk (o) {s : State} (hm : s.memOk) : Ends (execVmov o s) := by
  grind [execVmov, vec_memOk, chkTags_keeps]

theorem execVbcast_memOk (o) {s : State} (hm : s.memOk) : Ends (execVbcast o s) := by
  grind [execVbcast, vec_memOk]

theorem execVextr_memOk (o) {s : State} (hm : s.memOk) : Ends (execVextr o s) := by
  grind [execVextr, vec_memOk, chkTags_keeps]

theorem execVins_memOk (o) {s : State} (hm : s.memOk) : Ends (execVins o s) := by
  grind [execVins, vec_memOk, chkTags_keeps]

theorem chkA_keeps (o) : StepKeeps (chkA o) := chkTags_keeps _ _ _

theorem chkB_keeps (o) : StepKeeps (chkB o) := chkTags_keeps _ _ _

theorem vec2_memOk {s : State} (hm : s.memOk) (i) (o) : Ends (State.vec2 s i o) := by
  grind [State.vec2, vecD_memOk, chkA_keeps, chkB_keeps]

theorem vec1_memOk {s : State} (hm : s.memOk) (i) (o) : Ends (State.vec1 s i o) := by
  grind [State.vec1, vecD_memOk, chkA_keeps]

theorem vec3_memOk {s : State} (hm : s.memOk) (i) (o) : Ends (State.vec3 s i o) := by
  grind [State.vec3, vec_memOk, chkTags_keeps, chkA_keeps, chkB_keeps]

theorem vecEq_memOk {s : State} (hm : s.memOk) (i) (o) : Ends (State.vecEq s i o) := by
  grind [State.vecEq, vec_memOk, chkTags_keeps]

theorem execVnot_memOk (o) {s : State} (hm : s.memOk) : Ends (execVnot o s) := by
  grind [execVnot, vec_memOk, chkTags_keeps]

theorem vecShift_memOk {s : State} (hm : s.memOk) (i) (o) : Ends (State.vecShift s i o) := by
  grind [State.vecShift, vecD_memOk, chkTags_keeps]

theorem vecCmp_memOk {s : State} (hm : s.memOk) (i) (o) : Ends (State.vecCmp s i o) := by
  grind [State.vecCmp, vec_memOk, chkA_keeps, chkB_keeps]

theorem execVcvt_memOk (o) {s : State} (hm : s.memOk) : Ends (execVcvt o s) := by
  grind [execVcvt, vecD_memOk, chkTags_keeps]

theorem execVcvtBs_memOk (o) {s : State} (hm : s.memOk) : Ends (execVcvtBs o s) := by
  grind [execVcvtBs, vec_memOk, chkTags_keeps]

theorem execVscale_memOk (o) {s : State} (hm : s.memOk) : Ends (execVscale o s) := by
  grind [execVscale, vec_memOk, chkTags_keeps]

theorem vecRed_memOk {s : State} (hm : s.memOk) (i) (o) : Ends (State.vecRed s i o) := by
  grind [State.vecRed, vec_memOk, chkTags_keeps]

theorem execVperm_memOk (o) {s : State} (hm : s.memOk) : Ends (execVperm o s) := by
  grind [execVperm, vec_memOk, chkTags_keeps]

theorem vecSlide_memOk {s : State} (hm : s.memOk) (i) (o) : Ends (State.vecSlide s i o) := by
  grind [State.vecSlide, vec_memOk, chkTags_keeps]

theorem execVzip_memOk (o) {s : State} (hm : s.memOk) : Ends (execVzip o s) := by
  grind [execVzip, vec_memOk, chkTags_keeps]

theorem execVunzip_memOk (o) {s : State} (hm : s.memOk) : Ends (execVunzip o s) := by
  grind [execVunzip, vec_memOk, chkTags_keeps]

theorem execViota_memOk (o) {s : State} (hm : s.memOk) : Ends (execViota o s) := by
  grind [execViota, vec_memOk]

theorem vecFn_memOk {s : State} (hm : s.memOk) (i) (o) (ang) : Ends (State.vecFn s i o ang) := by
  grind [State.vecFn, vecD_memOk, chkTags_keeps]

theorem execVexp2_memOk (o) {s : State} (hm : s.memOk) : Ends (execVexp2 o s) := by
  grind [execVexp2, vecFn_memOk]

theorem execVsin_memOk (o) {s : State} (hm : s.memOk) : Ends (execVsin o s) := by
  grind [execVsin, vecFn_memOk]

theorem execMand_memOk (o) {s : State} (hm : s.memOk) : Ends (execMand o s) := by
  grind [execMand, vec_memOk]

theorem execMor_memOk (o) {s : State} (hm : s.memOk) : Ends (execMor o s) := by
  grind [execMor, vec_memOk]

theorem execMnot_memOk (o) {s : State} (hm : s.memOk) : Ends (execMnot o s) := by
  grind [execMnot, vec_memOk]

theorem execMpop_memOk (o) {s : State} (hm : s.memOk) : Ends (execMpop o s) := by
  grind [execMpop, vec_memOk]

/-! ### Canonical memory: VecExec -/

theorem upLog_memOk {s : State} (hm : s.memOk) (x) (f) : (State.upLog s x f).memOk :=
  hm

theorem putGroup_memOk {s : State} (hm : s.memOk) (x) (base) (g) (tag) (codes) :
    (State.putGroup s x base g tag codes).memOk :=
  hm

theorem unitArith_memOk (op) (o) (two) (three) : UnitKeeps (unitArith op o two three) :=
  fun _ _ _ hm => hm

theorem unitVmov_memOk (o) : UnitKeeps (unitVmov o) :=
  fun _ _ _ hm => hm

theorem unitVbcast_memOk (o) : UnitKeeps (unitVbcast o) :=
  fun _ _ _ hm => hm

theorem putS_memOk {s : State} (hm : s.memOk) (x) (p) (v) : (State.putS s x p v).memOk := by
  grind [State.putS, upLog_memOk]

theorem unitVextr_memOk (o) : UnitKeeps (unitVextr o) :=
  fun _ _ _ hm => putS_memOk hm ..

theorem unitVins_memOk (o) : UnitKeeps (unitVins o) :=
  fun _ _ _ hm => hm

theorem unitLogic_memOk (f) (o) (two) : UnitKeeps (unitLogic f o two) :=
  fun _ _ _ hm => hm

theorem unitShift_memOk (f) (o) : UnitKeeps (unitShift f o) :=
  fun _ _ _ hm => hm

theorem unitCmp_memOk (k) (o) : UnitKeeps (unitCmp k o) :=
  fun _ _ _ hm => hm

theorem unitVsel_memOk (o) : UnitKeeps (unitVsel o) :=
  fun _ _ _ hm => hm

theorem unitVcvt_memOk (o) : UnitKeeps (unitVcvt o) :=
  fun _ _ _ hm => hm

theorem unitVcvtBs_memOk (o) : UnitKeeps (unitVcvtBs o) :=
  fun _ _ _ hm => hm

theorem unitVscale_memOk (o) : UnitKeeps (unitVscale o) :=
  fun _ _ _ hm => hm

theorem putLane0_memOk {s : State} (hm : s.memOk) (x) (o) (r) : Keeps id (State.putLane0 s x o r) :=
  hm

theorem unitVreds_memOk (o) : UnitKeeps (unitVreds o) := by
  intro x i t hm
  grind [unitVreds, putLane0_memOk]

theorem unitVredm_memOk (big) (o) : UnitKeeps (unitVredm big o) := by
  intro x i t hm
  grind [unitVredm, putLane0_memOk]

theorem unitVscan_memOk (o) : UnitKeeps (unitVscan o) :=
  fun _ _ _ hm => hm

theorem unitVperm_memOk (o) : UnitKeeps (unitVperm o) :=
  fun _ _ _ hm => hm

theorem unitSlide_memOk (up) (o) : UnitKeeps (unitSlide up o) :=
  fun _ _ _ hm => hm

theorem unitVzip_memOk (o) : UnitKeeps (unitVzip o) :=
  fun _ _ _ hm => hm

theorem unitVunzip_memOk (o) : UnitKeeps (unitVunzip o) :=
  fun _ _ _ hm => hm

theorem unitViota_memOk (o) : UnitKeeps (unitViota o) :=
  fun _ _ _ hm => hm

theorem unitFn_memOk (f) (o) : UnitKeeps (unitFn f o) :=
  fun _ _ _ hm => hm

theorem unitMask_memOk (f) (o) : UnitKeeps (unitMask f o) :=
  fun _ _ _ hm => hm

theorem unitMpop_memOk (o) : UnitKeeps (unitMpop o) := by
  intro x i t hm
  grind [unitMpop, putS_memOk, keeps_ok]

theorem elemLoad_memOk {s : State} (hm : s.memOk) (tag) (off) (st) (strided) (i) : Keeps (fun _ => s)
    (State.elemLoad s tag off st strided i) := by
  grind [State.elemLoad, lmRead_memOk, keeps_ok, keeps_error]

theorem elemStore_memOk {s : State} (hm : s.memOk) (tag) (off) (st) (strided) (i) (code) : Keeps id
    (State.elemStore s tag off st strided i code) := by
  grind [State.elemStore, lmWrite_memOk]

theorem loadChunk_memOk {s : State} (hm : s.memOk) (act) {f : Nat → Res Nat} (hf : ∀ i, Keeps (fun _ => s) (f i))
    (l i) :
    Keeps (fun _ => s) (loadChunk s act f l i) := by
  fun_induction loadChunk s act f l i <;> grind [keeps_ok, keeps_error]

theorem storeChunk_memOk (act) {f} (hf : ∀ y1 y2 t, t.memOk → Keeps id (f y1 y2 t)) (x3) (x4) {x5 : State}
    (hm : x5.memOk) : Keeps id (storeChunk act f x3 x4 x5) := by
  fun_induction storeChunk act f x3 x4 x5 <;> grind [keeps_ok]

theorem loadUnit_memOk {s : State} (hm : s.memOk) (x) (o) (tag) (u) {f} (hf : ∀ i, Keeps (fun _ => s) (f i)) :
    Keeps id (s.loadUnit x o tag u f) := by
  grind [State.loadUnit, putGroup_memOk, loadChunk_memOk, keeps_ok, keeps_error]

theorem storeUnit_memOk {s : State} (hm : s.memOk) (x) (o) (tag) (u) {f}
    (hf : ∀ y1 y2 t, t.memOk → Keeps id (f y1 y2 t)) : Keeps id (State.storeUnit s x o tag u f) := by
  grind [State.storeUnit, upCmd_memOk, storeChunk_memOk, keeps_ok]

theorem unitVld_memOk (o) (strided) : UnitKeeps (unitVld o strided) := by
  intro x i t hm
  grind [unitVld, elemLoad_memOk, loadUnit_memOk]

theorem unitVst_memOk (o) (strided) : UnitKeeps (unitVst o strided) := by
  intro x i t hm
  grind [unitVst, elemStore_memOk, storeUnit_memOk]

theorem indexStart_memOk {s : State} (hm : s.memOk) (x) (o) : Keeps id (State.indexStart s x o) := by
  grind [State.indexStart, upCmd_memOk, broken_memOk, keeps_ok, keeps_error]

theorem unitVgath_memOk (o) : UnitKeeps (unitVgath o) := by
  intro x i t hm
  fun_cases unitVgath o x i t <;> grind [elemLoad_memOk, loadUnit_memOk, indexStart_memOk]

theorem unitVscat_memOk (o) : UnitKeeps (unitVscat o) := by
  intro x i t hm
  fun_cases unitVscat o x i t <;> grind [elemStore_memOk, storeUnit_memOk, indexStart_memOk]

/-! ### Canonical memory: Copy -/

theorem copyView_memOk {s : State} (hm : s.memOk) (f) : Keeps (·.2) (State.copyView s f) := by
  grind [State.copyView, openHandle_memOk, readHandle_memOk]

theorem footprints_memOk (x1) {x2 : State} (hm : x2.memOk) : Keeps (·.2) (State.footprints x1 x2) := by
  fun_induction State.footprints x1 x2 <;> grind [copyView_memOk, keeps_ok, keeps_error]

theorem sides_memOk {s : State} (hm : s.memOk) (l) : Keeps id (State.sides s l) := by
  grind [State.sides, keeps_ok, keeps_error]

theorem copyViews_memOk {s : State} (hm : s.memOk) (fs) (loc) : Keeps (·.2) (State.copyViews s fs loc) := by
  grind [State.copyViews, footprints_memOk, sides_memOk, keeps_ok, keeps_error]

theorem issueCopy_memOk {s : State} (hm : s.memOk) (i) (o) (n) (scal) (views) : Keeps id
    (State.issueCopy s i o n scal views) := by
  grind [State.issueCopy, upRegs_memOk, issue_memOk, keeps_ok]

theorem issueRows_memOk {s : State} (hm : s.memOk) (i) (o) (fs) (loc) : Keeps id (State.issueRows s i o fs loc) := by
  grind [State.issueRows, copyViews_memOk, issueCopy_memOk, keeps_ok, keeps_error]

theorem execCpy_memOk (o) {s : State} (hm : s.memOk) : Ends (execCpy o s) := by
  grind [execCpy, retire_memOk, issueRows_memOk]

theorem execCpym_memOk (o) {s : State} (hm : s.memOk) : Ends (execCpym o s) := by
  grind [execCpym, between_memOk, retire_memOk, copyViews_memOk, issueCopy_memOk, keeps_ok, keeps_error]

theorem execCpg_memOk (o) {s : State} (hm : s.memOk) : Ends (execCpg o s) := by
  grind [execCpg, retire_memOk, issueRows_memOk]

theorem execCps_memOk (o) {s : State} (hm : s.memOk) : Ends (execCps o s) := by
  grind [execCps, retire_memOk, issueRows_memOk]

theorem execCpfill_memOk (o) {s : State} (hm : s.memOk) : Ends (execCpfill o s) := by
  grind [execCpfill, retire_memOk, copyViews_memOk, issueCopy_memOk, keeps_ok, keeps_error]

theorem execCpremPut_memOk (o) {s : State} (hm : s.memOk) : Ends (execCpremPut o s) := by
  grind [execCpremPut, between_memOk, retire_memOk, copyViews_memOk, issueCopy_memOk, keeps_ok, keeps_error]

theorem execCpremGet_memOk (o) {s : State} (hm : s.memOk) : Ends (execCpremGet o s) := by
  grind [execCpremGet, retire_memOk, issueRows_memOk]

theorem bankFoot_memOk {s : State} (hm : s.memOk) (h) (off) (l) (opw) : Keeps (·.2.2) (State.bankFoot s h off l opw)
    := by
  grind [State.bankFoot, checkHandle_memOk, keeps_ok, keeps_error]

theorem bankOk_memOk {s : State} (hm : s.memOk) (w) (off) : Keeps id (State.bankOk s w off) := by
  grind [State.bankOk, keeps_ok, keeps_error]

theorem issueRed_memOk {s : State} (hm : s.memOk) (i) (o) : Keeps id (State.issueRed s i o) := by
  fun_cases State.issueRed s i o <;> grind [between_memOk, copyViews_memOk, issueCopy_memOk, bankFoot_memOk,
    bankOk_memOk, keeps_ok, keeps_error]

theorem execCpredAdd_memOk (o) {s : State} (hm : s.memOk) : Ends (execCpredAdd o s) := by
  grind [execCpredAdd, retire_memOk, issueRed_memOk]

theorem execCpredMin_memOk (o) {s : State} (hm : s.memOk) : Ends (execCpredMin o s) := by
  grind [execCpredMin, retire_memOk, issueRed_memOk]

theorem execCpredMax_memOk (o) {s : State} (hm : s.memOk) : Ends (execCpredMax o s) := by
  grind [execCpredMax, retire_memOk, issueRed_memOk]

theorem issueUpd_memOk {s : State} (hm : s.memOk) (i) (o) : Keeps id (State.issueUpd s i o) := by
  fun_cases State.issueUpd s i o <;> grind [between_memOk, copyViews_memOk, issueCopy_memOk, bankFoot_memOk,
    bankOk_memOk, keeps_ok, keeps_error]

theorem execBmupdAdd_memOk (o) {s : State} (hm : s.memOk) : Ends (execBmupdAdd o s) := by
  grind [execBmupdAdd, retire_memOk, issueUpd_memOk]

theorem execBmupdMul_memOk (o) {s : State} (hm : s.memOk) : Ends (execBmupdMul o s) := by
  grind [execBmupdMul, retire_memOk, issueUpd_memOk]

theorem execBmupdMin_memOk (o) {s : State} (hm : s.memOk) : Ends (execBmupdMin o s) := by
  grind [execBmupdMin, retire_memOk, issueUpd_memOk]

theorem execBmupdMax_memOk (o) {s : State} (hm : s.memOk) : Ends (execBmupdMax o s) := by
  grind [execBmupdMax, retire_memOk, issueUpd_memOk]

theorem execBmupdFma_memOk (o) {s : State} (hm : s.memOk) : Ends (execBmupdFma o s) := by
  grind [execBmupdFma, retire_memOk, issueUpd_memOk]

theorem execBmupdSet_memOk (o) {s : State} (hm : s.memOk) : Ends (execBmupdSet o s) := by
  grind [execBmupdSet, retire_memOk, issueUpd_memOk]

theorem execCpdec_memOk (o) {s : State} (hm : s.memOk) : Ends (execCpdec o s) := by
  grind [execCpdec, openHandle_memOk, retire_memOk, footprints_memOk, sides_memOk, issueCopy_memOk, keeps_ok,
    keeps_error]

theorem issueAgent_memOk {s : State} (hm : s.memOk) (i) (o) (op) (tw) (al) (ow) (rw) : Keeps id
    (State.issueAgent s i o op tw al ow rw) := by
  fun_cases State.issueAgent s i o op tw al ow rw <;> grind [openHandle_memOk, readHandle_memOk, between_memOk,
    issueCopy_memOk, keeps_ok, keeps_error]

theorem execCpagentCas128_memOk (o) {s : State} (hm : s.memOk) : Ends (execCpagentCas128 o s) := by
  grind [execCpagentCas128, retire_memOk, issueAgent_memOk]

theorem execCpagentCas256_memOk (o) {s : State} (hm : s.memOk) : Ends (execCpagentCas256 o s) := by
  grind [execCpagentCas256, retire_memOk, issueAgent_memOk]

theorem execCpagentEnq_memOk (o) {s : State} (hm : s.memOk) : Ends (execCpagentEnq o s) := by
  grind [execCpagentEnq, retire_memOk, issueAgent_memOk]

theorem execCpagentChase_memOk (o) {s : State} (hm : s.memOk) : Ends (execCpagentChase o s) := by
  grind [execCpagentChase, retire_memOk, issueAgent_memOk]

theorem viewRead_memOk (v) (need) (x3) (x4) (x5) {x6 : State} (hm : x6.memOk) : Keeps (·.2)
    (State.viewRead v need x3 x4 x5 x6) := by
  fun_induction State.viewRead v need x3 x4 x5 x6 <;> grind [ordRead_memOk, viewPlace_memOk, keeps_ok, keeps_error]

theorem vread_memOk {s : State} (hm : s.memOk) (v) (off) (n) : Keeps (·.2) (State.vread s v off n) := by
  grind [State.vread, viewRead_memOk]

theorem noteWrite_memOk {s : State} (hm : s.memOk) (prod) (a) (n) : (State.noteWrite s prod a n).memOk := by
  grind [State.noteWrite, countFor_memOk, upCmd_memOk]

theorem viewWrite_memOk (v) (prod) (x3) (x4) (x5) {x6 : State} (hm : x6.memOk) : Keeps id
    (State.viewWrite v prod x3 x4 x5 x6) := by
  fun_induction State.viewWrite v prod x3 x4 x5 x6 <;> grind [ordWrite_memOk, viewPlace_memOk, noteWrite_memOk,
    keeps_ok, keeps_error, ends_next]

theorem vwrite_memOk {s : State} (hm : s.memOk) (v) (prod) (off) (bs) : Keeps id (State.vwrite s v prod off bs) := by
  grind [State.vwrite, viewWrite_memOk]

theorem undefBytes_memOk (undef) (x2) (x3) (x4) {x5 : State} (hm : x5.memOk) :
    (State.undefBytes undef x2 x3 x4 x5).2.memOk := by
  fun_induction State.undefBytes undef x2 x3 x4 x5 <;> grind [drawByte_memOk]

theorem vwriteOr_memOk {s : State} (hm : s.memOk) (v) (prod) (undef) (j) (off) (bs) : Keeps id
    (State.vwriteOr s v prod undef j off bs) := by
  grind [State.vwriteOr, vwrite_memOk, undefBytes_memOk]

theorem eachRun_memOk {f} (hf : ∀ y1 t, t.memOk → Keeps id (f y1 t)) (x2) {x3 : State} (hm : x3.memOk) : Keeps id
    (State.eachRun f x2 x3) := by
  fun_induction State.eachRun f x2 x3 <;> grind [keeps_ok]

theorem unitCpy_memOk : UnitKeeps (unitCpy) := by
  intro x i t hm
  grind [unitCpy, vread_memOk, vwriteOr_memOk, eachRun_memOk, keeps_ok, keeps_error]

theorem unitCpfill_memOk (o) : UnitKeeps (unitCpfill o) := by
  intro x i t hm
  grind [unitCpfill, vwriteOr_memOk, eachRun_memOk]

theorem multiWrite_memOk (undef) (j) (off) (bs) (x5) {x6 : State} (hm : x6.memOk) : Keeps id
    (State.multiWrite undef j off bs x5 x6) := by
  fun_induction State.multiWrite undef j off bs x5 x6 <;> grind [countFor_memOk, ordWrite_memOk, undefBytes_memOk,
    keeps_ok]

theorem noteArrivals_memOk {s : State} (hm : s.memOk) (cores) (off) (m) : (State.noteArrivals s cores off m).memOk :=
  hm

theorem unitCpym_memOk (o) : UnitKeeps (unitCpym o) := by
  intro x i t hm
  grind [unitCpym, upCmd_memOk, vread_memOk, eachRun_memOk, multiWrite_memOk, noteArrivals_memOk, keeps_ok, keeps_error]

theorem readIndices_memOk (z) (x2) (x3) {x4 : State} (hm : x4.memOk) : Keeps (fun _ => x4)
    (State.readIndices z x2 x3 x4) := by
  fun_induction State.readIndices z x2 x3 x4 <;> grind [lmRead_memOk, keeps_ok, keeps_error]

theorem rowsStart_memOk {s : State} (hm : s.memOk) (x) (v) (off) (pitch) : Keeps id (State.rowsStart s x v off pitch)
    := by
  grind [State.rowsStart, upCmd_memOk, readIndices_memOk, keeps_ok, keeps_error]

theorem unitCpg_memOk : UnitKeeps (unitCpg) := by
  intro x i t hm
  fun_cases unitCpg x i t <;> grind [vread_memOk, vwriteOr_memOk, rowsStart_memOk, keeps_ok, keeps_error]

theorem unitCps_memOk : UnitKeeps (unitCps) := by
  intro x i t hm
  fun_cases unitCps x i t <;> grind [vread_memOk, vwriteOr_memOk, rowsStart_memOk, keeps_ok, keeps_error]

theorem sendPut_memOk {s : State} (hm : s.memOk) (x) (x3) : Keeps id (State.sendPut s x x3) := by
  fun_induction State.sendPut s x x3 <;> grind [countFor_memOk, send_memOk, vread_memOk, keeps_ok, keeps_error,
    foldl_memOk]

theorem sendGet_memOk {s : State} (hm : s.memOk) (x) (x3) : Keeps id (State.sendGet s x x3) := by
  fun_induction State.sendGet s x x3 <;> grind [send_memOk, keeps_ok, keeps_error, foldl_memOk]

theorem dropReq_memOk {s : State} (hm : s.memOk) (id) : (State.dropReq s id).memOk :=
  hm

theorem takeResponses_memOk (x) (get) (x3) {x4 : State} (hm : x4.memOk) : Keeps id (State.takeResponses x get x3 x4)
    := by
  fun_induction State.takeResponses x get x3 x4 <;> grind [loseOwn_memOk, refusedRec_memOk, upCmd_memOk,
    vwriteOr_memOk, dropReq_memOk, keeps_ok, keeps_error, ends_next]

theorem unitPut_memOk (o) : UnitKeeps (unitPut o) := by
  intro x i t hm
  grind [unitPut, upCore_memOk, send_memOk, vread_memOk, eachRun_memOk, sendPut_memOk, takeResponses_memOk, keeps_ok,
    keeps_error]

theorem unitGet_memOk : UnitKeeps (unitGet) := by
  intro x i t hm
  grind [unitGet, sendGet_memOk, takeResponses_memOk]

theorem bankElem_memOk {s : State} (hm : s.memOk) (x) (p) (op) (undef) (place) (e) (f) : Keeps id
    (State.bankElem s x p op undef place e f) := by
  grind [State.bankElem, ordRead_memOk, ordWrite_memOk, copyRounding_memOk, noteWrite_memOk, undefBytes_memOk,
    keeps_ok, keeps_error]

theorem bankPlan_memOk (x) (p) (red) (k) (e) {s : State} (hm : s.memOk) :
    Keeps (·.2) (State.bankPlan x p red k e s) := by
  induction k generalizing e s with
  | zero => exact hm
  | succ k ih => grind [State.bankPlan, viewPlace_memOk, vread_memOk, keeps_ok, keeps_error]

theorem bankAll_memOk (x) (p) (op) (red) (x5) (x6) {x7 : State} (hm : x7.memOk) : Keeps id
    (State.bankAll x p op red x5 x6 x7) := by
  fun_induction State.bankAll x p op red x5 x6 x7 <;> grind [bankElem_memOk, keeps_ok]

theorem unitBank_memOk (op) (red) : UnitKeeps (unitBank op red) := by
  intro x i t hm
  grind [unitBank, bankPlan_memOk, bankAll_memOk, keeps_ok, keeps_error]

theorem decodeTile_memOk {s : State} (hm : s.memOk) (v) (p) (t) : Keeps (·.2.2) (State.decodeTile s v p t) := by
  fun_cases State.decodeTile s v p t <;> grind [vread_memOk, keeps_ok, keeps_error]

theorem unitCpdec_memOk : UnitKeeps (unitCpdec) := by
  intro x i t hm
  fun_cases unitCpdec x i t <;> grind [upCmd_memOk, vwrite_memOk, vwriteOr_memOk, eachRun_memOk, decodeTile_memOk,
    keeps_ok, keeps_error]

theorem viewWord_memOk {s : State} (hm : s.memOk) (v) (off) : Keeps (·.2) (State.viewWord s v off) := by
  grind [State.viewWord, viewRead_memOk, keeps_ok, keeps_error]

theorem agentEnq_memOk {s : State} (hm : s.memOk) (v) (prod) (hd) (node) : Keeps (·.2)
    (State.agentEnq s v prod hd node) := by
  fun_cases State.agentEnq s v prod hd node <;> grind [ordWrite_memOk, viewPlace_memOk, noteWrite_memOk,
    viewWord_memOk, keeps_ok, keeps_error, ends_next]

theorem agentChase_memOk (v) (key) (x3) (x4) (x5) {x6 : State} (hm : x6.memOk) : Keeps (·.2)
    (State.agentChase v key x3 x4 x5 x6) := by
  fun_induction State.agentChase v key x3 x4 x5 x6 <;> grind [viewWord_memOk, keeps_ok, keeps_error]

theorem agentCas_memOk {s : State} (hm : s.memOk) (v) (prod) (n) (off) (op) : Keeps (·.2)
    (State.agentCas s v prod n off op) := by
  grind [State.agentCas, ordRead_memOk, ordWrite_memOk, viewPlace_memOk, noteWrite_memOk, keeps_ok, keeps_error]

theorem agentAct_memOk {s : State} (hm : s.memOk) (v) (prod) (op) (off) (depth) (operand) : Keeps (·.2)
    (State.agentAct s v prod op off depth operand) := by
  fun_cases State.agentAct s v prod op off depth operand <;> grind [agentEnq_memOk, agentChase_memOk, agentCas_memOk]

theorem unitAgent_memOk (op) : UnitKeeps (unitAgent op) := by
  intro x i t hm
  grind [unitAgent, loseOwn_memOk, refusedRec_memOk, send_memOk, lmRead_memOk, vwrite_memOk, dropReq_memOk,
    agentAct_memOk, keeps_ok, keeps_error]

theorem blurView_memOk (v) (x2) (x3) (x4) {x5 : State} (hm : x5.memOk) : (State.blurView v x2 x3 x4 x5).memOk := by
  fun_induction State.blurView v x2 x3 x4 x5 <;> grind [drawOver_memOk, viewPlace_memOk, poke_memOk, keeps_ok]

theorem blurRest_memOk {s : State} (hm : s.memOk) (c) (u) : (State.blurRest s c u).memOk := by
  grind [State.blurRest, drawOver_memOk, poke_memOk, blurView_memOk, foldl_memOk]

theorem forget_memOk {s : State} (hm : s.memOk) (prod) : (State.forget s prod).memOk := by
  grind [State.forget, dropReq_memOk, foldl_memOk]

theorem failing_memOk {s : State} (hm : s.memOk) (x) (r) (st) (detail) (line) :
    (State.failing s x r st detail line).2.memOk := by
  grind [State.failing, upCmd_memOk, forget_memOk]

theorem spoiling_memOk {f} (hf : UnitKeeps f) : UnitKeeps (spoiling f) := by
  intro x i s hm
  fun_cases spoiling f x i s <;> grind [UnitKeeps, blurRest_memOk, failing_memOk, keeps_error]

/-! ### Canonical memory: Chain -/

theorem chainStart_memOk {s : State} (hm : s.memOk) (x) : Keeps id (State.chainStart s x) := by
  grind [State.chainStart, upCmd_memOk, broken_memOk, lmRead_memOk, keeps_ok, keeps_error]

theorem blurElem_memOk {before : State} (_hm : before.memOk) {s : State} (hm' : s.memOk) (tag) (off) (e) :
    (State.blurElem before s tag off e).memOk := by
  grind [State.blurElem, drawBytes_memOk, poke_memOk]

theorem chainElems_memOk (t) (undef) (x) (x4) (x5) {x6 : State} (hm : x6.memOk) : Keeps id
    (State.chainElems t undef x x4 x5 x6) := by
  fun_induction State.chainElems t undef x x4 x5 x6 <;> grind [upCmd_memOk, rounding_memOk, elemLoad_memOk,
    elemStore_memOk, blurElem_memOk, keeps_ok, keeps_error]

theorem unitVchain_memOk : UnitKeeps (unitVchain) := by
  intro x i t hm
  fun_cases unitVchain x i t <;> grind [chainStart_memOk, chainElems_memOk]

/-! ### Canonical memory: Table -/

theorem tableStart_memOk {s : State} (hm : s.memOk) (e) (i) (o) : Keeps id (State.tableStart s e i o) := by
  grind [State.tableStart, upRegs_memOk, issue_memOk, keeps_ok]

theorem execTblstart_memOk (e) (o) {s : State} (hm : s.memOk) : Ends (execTblstart e o s) := by
  grind [execTblstart, retire_memOk, tableStart_memOk]

theorem tableStop_memOk {s : State} (hm : s.memOk) (e) : (State.tableStop s e).memOk := by
  grind [State.tableStop, upCmd_memOk, finishCmd_memOk]

theorem execTblstop_memOk (e) (o) {s : State} (hm : s.memOk) : Ends (execTblstop e o s) := by
  grind [execTblstop, advance_memOk, tableStop_memOk, ends_next]

theorem execTblbase_memOk (e) (o) {s : State} (hm : s.memOk) : Ends (execTblbase e o s) := by
  grind [execTblbase, retire_memOk, issue_memOk, keeps_error]

theorem upTable_memOk {s : State} (hm : s.memOk) (e) (f) : (State.upTable s e f).memOk :=
  hm

theorem badMicro_memOk {s : State} (hm : s.memOk) : Keeps id (badMicro s) :=
  hm

theorem microSeta_memOk (e) : MicroKeeps (microSeta e) := by
  intro x i t hm
  grind [microSeta, upTable_memOk, badMicro_memOk, keeps_ok]

theorem microAdda_memOk (e) : MicroKeeps (microAdda e) := by
  intro x i t hm
  grind [microAdda, upTable_memOk, badMicro_memOk, keeps_ok]

theorem microSetl_memOk (e) : MicroKeeps (microSetl e) := by
  intro x i t hm
  grind [microSetl, upTable_memOk, badMicro_memOk, keeps_ok]

theorem microBack_memOk (e) : MicroKeeps (microBack e) := by
  intro x i t hm
  grind [microBack, upTable_memOk, badMicro_memOk, keeps_ok]

theorem outside_memOk {s : State} (hm : s.memOk) : Keeps id (outside s) := by
  grind [outside, broken_memOk, keeps_error]

theorem microWrow_memOk : MicroKeeps (microWrow) := by
  intro x i t hm
  grind [microWrow, lmRead_memOk, upArrays_memOk, upTable_memOk, badMicro_memOk, outside_memOk, keeps_ok, keeps_error]

theorem microArow_memOk : MicroKeeps (microArow) := by
  intro x i t hm
  grind [microArow, countFor_memOk, rounding_memOk, lmRead_memOk, upArrays_memOk, upTable_memOk, badMicro_memOk,
    outside_memOk, keeps_ok, keeps_error]

theorem microSwap_memOk : MicroKeeps (microSwap) := by
  intro x i t hm
  grind [microSwap, upArrays_memOk, upTable_memOk, badMicro_memOk, keeps_ok]

theorem microZtile_memOk : MicroKeeps (microZtile) := by
  intro x i t hm
  grind [microZtile, upArrays_memOk, upTable_memOk, badMicro_memOk, keeps_ok]

theorem microProw_memOk : MicroKeeps (microProw) := by
  intro x i t hm
  grind [microProw, qrRow_memOk, upTable_memOk, badMicro_memOk, outside_memOk, keeps_ok]

theorem microPapp_memOk : MicroKeeps (microPapp) := by
  intro x i t hm
  grind [microPapp, applyRow_memOk, upTable_memOk, badMicro_memOk, outside_memOk, keeps_ok]

theorem microSeth_memOk : MicroKeeps (microSeth) := by
  intro x i t hm
  grind [microSeth, upTable_memOk, badMicro_memOk, keeps_ok]

theorem withSnap_memOk {s : State} (hm : s.memOk) (x) {check} (hcheck : ∀ t, t.memOk → Keeps (·.2) (check t)) : Keeps
    (·.2) (State.withSnap s x check) := by
  grind [State.withSnap, upRegs_memOk, keeps_ok, keeps_error]

theorem readSnap_memOk {s : State} (hm : s.memOk) (x) (h) (off) (n) (r) : Keeps (·.2) (State.readSnap s x h off n r)
    := by
  grind [State.readSnap, readHandle_memOk, withSnap_memOk]

theorem tileSnap_memOk {s : State} (hm : s.memOk) (x) (h) (tile) : Keeps (·.2) (State.tileSnap s x h tile) := by
  grind [State.tileSnap, openHandle_memOk, withSnap_memOk]

theorem setRunCursor_memOk {s : State} (hm : s.memOk) (x) (k) : (State.setRunCursor s x k).memOk :=
  hm

theorem pieceLoop_memOk {f} (hf : UnitKeeps f) (x) (x3) (x4) {x5 : State} (hm : x5.memOk) : Keeps id
    (State.pieceLoop f x x3 x4 x5) := by
  fun_induction State.pieceLoop f x x3 x4 x5 <;> grind [setRunCursor_memOk, UnitKeeps, keeps_ok]

theorem microMove_memOk : MicroKeeps (microMove) := by
  intro x i t hm
  fun_cases microMove x i t <;> grind [unitCpy_memOk, upTable_memOk, badMicro_memOk, readSnap_memOk, pieceLoop_memOk,
    keeps_ok, keeps_error]

theorem microDect_memOk : MicroKeeps (microDect) := by
  intro x i t hm
  fun_cases microDect x i t <;> grind [vwrite_memOk, decodeTile_memOk, upTable_memOk, badMicro_memOk, readSnap_memOk,
    tileSnap_memOk, keeps_ok, keeps_error]

theorem blurCopy_memOk {s : State} (hm : s.memOk) (x) (u) : (State.blurCopy s x u).memOk := by
  grind [State.blurCopy, blurView_memOk, blurRest_memOk]

theorem microRun_memOk {s : State} (hm : s.memOk) (e) (x) {r} (hr : Keeps id r) : (microRun s e x r).1.memOk := by
  fun_cases microRun s e x r <;> grind [keeps_ok, keeps_error, upTable_memOk, finishCmd_memOk, blurCopy_memOk,
    restCmd_memOk, unitRest_memOk]

theorem microOf_keeps {e op f} (found : microOf e op = some f) : MicroKeeps f := by
  unfold microOf at found
  split at found <;> simp only [Option.some.injEq, reduceCtorEq] at found <;> subst found
  exacts [microWrow_memOk, microArow_memOk, microSwap_memOk, microZtile_memOk, microProw_memOk, microPapp_memOk,
    microSeth_memOk, microMove_memOk, microDect_memOk, microSeta_memOk _, microAdda_memOk _, microSetl_memOk _,
    microBack_memOk _]

theorem tableTick_memOk {s : State} (hm : s.memOk) (e) (x) : (State.tableTick s e x).1.memOk := by
  fun_cases State.tableTick s e x with
  | case5 t limit y _ _ _ _ r u stopped =>
    have stopped' := lmRead_memOk hm (t.base + 4 * t.pos) 4
    rw [stopped] at stopped'
    exact restCmd_memOk stopped' _ _ _ _
  | case8 t limit y _ _ _ _ bs _ u _ f found => exact microRun_memOk hm _ _ (microOf_keeps found _ _ _ hm)
  | _ => grind [finishCmd_memOk, broken_memOk]

theorem tableRun_memOk (e) (x) (x3) {x4 : State} (hm : x4.memOk) : (State.tableRun e x x3 x4).memOk := by
  fun_induction State.tableRun e x x3 x4 <;> grind [tableTick_memOk]

theorem elemBlur_memOk {s : State} (hm : s.memOk) (tag) (off) (st) (strided) (i) :
    (State.elemBlur s tag off st strided i).memOk := by
  grind [State.elemBlur, drawOver_memOk, poke_memOk]

theorem blurStore_memOk {s : State} (hm : s.memOk) (o) (e) (n) {f} (hf : ∀ y1 t, t.memOk → (f y1 t).memOk) :
    (State.blurStore s o e n f).memOk := by
  grind [State.blurStore, foldl_memOk]

theorem blurUnit_memOk (x) (o) (tag) {s : State} (hm : s.memOk) (u) : (State.blurUnit x o tag s u).memOk := by
  grind [State.blurUnit, drawOver_memOk, loadUnit_memOk, keeps_ok]

theorem blurLoad_memOk {s : State} (hm : s.memOk) (x) (o) (tag) (u) (n) : (State.blurLoad s x o tag u n).memOk := by
  grind [State.blurLoad, blurUnit_memOk, foldl_memOk]

theorem blurLocal_memOk {s : State} (hm : s.memOk) (x) (u) (e) : (State.blurLocal s x u e).memOk := by
  grind [State.blurLocal, drawOver_memOk, poke_memOk, blurElem_memOk, elemBlur_memOk, blurStore_memOk, blurLoad_memOk,
    foldl_memOk]

theorem spoilingLocal_memOk (e) {f} (hf : UnitKeeps f) : UnitKeeps (spoilingLocal e f) := by
  intro x i s hm
  fun_cases spoilingLocal e f x i s <;> grind [UnitKeeps, blurLocal_memOk, keeps_error]

theorem matrixUnits_keeps (a) (c) : UnitKeeps (matrixUnits a c).2 := by
  fun_cases matrixUnits a c <;> grind [unitMlda_memOk, unitMldw_memOk, unitMmul_memOk, unitMmulc_memOk,
    unitMret_memOk, upArrays_memOk, UnitKeeps, keeps_ok]

theorem vectorUnits_keeps (s) (c) : UnitKeeps (vectorUnits s c).2 := by
  fun_cases vectorUnits s c <;> grind [unitArith_memOk, unitCmp_memOk, unitFn_memOk, unitLogic_memOk, unitMask_memOk,
    unitMpop_memOk, unitShift_memOk, unitSlide_memOk, unitVbcast_memOk, unitVchain_memOk, unitVcvt_memOk,
    unitVcvtBs_memOk, unitVextr_memOk, unitVgath_memOk, unitVins_memOk, unitViota_memOk, unitVld_memOk,
    unitVmov_memOk, unitVperm_memOk, unitVredm_memOk, unitVreds_memOk, unitVscale_memOk, unitVscan_memOk,
    unitVscat_memOk, unitVsel_memOk, unitVst_memOk, unitVunzip_memOk, unitVzip_memOk, once, UnitKeeps, keeps_ok]

theorem copyUnits_keeps (c) : UnitKeeps (copyUnits c).2 := by
  fun_cases copyUnits c <;> grind [unitAgent_memOk, unitBank_memOk, unitCpdec_memOk, unitCpfill_memOk, unitCpg_memOk,
    unitCps_memOk, unitCpy_memOk, unitCpym_memOk, unitGet_memOk, unitPut_memOk, UnitKeeps, keeps_ok]

theorem drainElement_keeps (o) : UnitKeeps (drainElement o) := fun _ _ _ hm => drainElement_memOk o _ _ hm

theorem applyPair_keeps (o) : UnitKeeps (applyPair o) := fun _ _ _ hm => applyPair_memOk o _ _ hm

theorem rotPair_keeps (o) : UnitKeeps (rotPair o) := fun _ _ _ hm => rotPair_memOk o _ _ hm

theorem vecOut_keeps (o) : UnitKeeps (vecOut o) := fun _ _ _ hm => vecOut_memOk o _ _ hm

theorem plaitUnits_keeps (c) : UnitKeeps (plaitUnits c).2 := by
  fun_cases plaitUnits c with
  | case7 => exact groupOf_memOk _ _ (drainElement_keeps _)
  | case9 => exact groupOf_memOk _ _ (applyPair_keeps _)
  | case10 => exact groupOf_memOk _ _ (rotPair_keeps _)
  | case11 => exact groupOf_memOk _ _ (vecOut_keeps _)
  | _ => grind [unitPlload_memOk, unitPlqr_memOk, unitPlsolve_memOk, unitPldrain_memOk, unitPlapply_memOk,
      upArrays_memOk, UnitKeeps, keeps_ok]

theorem unitsOf_keeps (s : State) (e) (c) : UnitKeeps (s.unitsOf e c).2 := by
  cases e with
  | matrix => exact spoilingLocal_memOk _ (matrixUnits_keeps _ _)
  | plait => exact spoilingLocal_memOk _ (plaitUnits_keeps _)
  | vector => exact spoilingLocal_memOk _ (vectorUnits_keeps _ _)
  | copy => exact spoiling_memOk (copyUnits_keeps _)

theorem startCmd_memOk {s : State} (hm : s.memOk) (e) (x) : (State.startCmd s e x).memOk := by
  grind [State.startCmd, upCore_memOk, upCmd_memOk, logStart_memOk, upTable_memOk]

theorem endStopped_memOk {s : State} (hm : s.memOk) (e) (x) (st) (det) : (State.endStopped s e x st det).memOk := by
  have ended (l : List Req) {t : State} (ht : t.memOk) : (l.head?.elim t fun r => (t.refusedRec r).loseOwn 1).memOk :=
    by
    cases l with
    | nil => exact ht
    | cons r l => exact loseOwn_memOk (refusedRec_memOk ht r) 1
  grind [State.endStopped, forget_memOk, poisonCmd_memOk, finishCmd_memOk]

theorem atTurn_memOk {s : State} (hm : s.memOk) (e) (x) {go} (hgo : ∀ y1 t, t.memOk → (go y1 t).memOk) :
    (State.atTurn s e x go).memOk := by
  grind [State.atTurn, finishCmd_memOk, upTable_memOk, startCmd_memOk, endStopped_memOk]

theorem runCmdFor_memOk (n) {s : State} (hm : s.memOk) (e) (x) : (State.runCmdFor n s e x).memOk :=
  atTurn_memOk hm e x fun y t ht => by
    grind [tableRun_memOk, runUnits_memOk, unitsOf_keeps]

theorem runCmd_memOk {s : State} (hm : s.memOk) (e) (x) : (State.runCmd s e x).memOk := by
  grind [State.runCmd, runCmdFor_memOk]

theorem stepCmd_memOk {s : State} (hm : s.memOk) (e) (x) : (State.stepCmd s e x).memOk :=
  atTurn_memOk hm e x fun y t ht => by
    grind [tableTick_memOk, runUnit_memOk, unitsOf_keeps]

theorem runEngine_memOk {s : State} (hm : s.memOk) (e) : (State.runEngine s e).memOk := by
  grind [State.runEngine, runCmd_memOk]

theorem unitAct_memOk {s : State} (hm : s.memOk) (e) (i) : (State.unitAct s e i).memOk := by
  grind [State.unitAct, stepCmd_memOk]

theorem microAct_memOk {s : State} (hm : s.memOk) (e) {f} (hf : MicroKeeps f) (m) : (State.microAct s e f m).memOk := by
  have carried (y : Cmd) {t : State} (ht : t.memOk) : (microRun t e y (f m.toNat y t)).1.memOk := microRun_memOk ht _
    _ (hf _ _ _ ht)
  grind [State.microAct, atTurn_memOk]

theorem execTableEnd_memOk (e) (m) {s : State} (hm : s.memOk) : Ends (execTableEnd e m s) := by
  grind [execTableEnd, finishCmd_memOk, ends_next]

theorem execTableSeta_memOk (e) (m) {s : State} (hm : s.memOk) : Ends (execTableSeta e m s) := by
  grind [execTableSeta, microSeta_memOk, microAct_memOk, ends_next]

theorem execTableAdda_memOk (e) (m) {s : State} (hm : s.memOk) : Ends (execTableAdda e m s) := by
  grind [execTableAdda, microAdda_memOk, microAct_memOk, ends_next]

theorem execWrow_memOk (m) {s : State} (hm : s.memOk) : Ends (execWrow m s) := by
  grind [execWrow, microWrow_memOk, microAct_memOk, ends_next]

theorem execArow_memOk (m) {s : State} (hm : s.memOk) : Ends (execArow m s) := by
  grind [execArow, microArow_memOk, microAct_memOk, ends_next]

theorem execTableSwap_memOk (m) {s : State} (hm : s.memOk) : Ends (execTableSwap m s) := by
  grind [execTableSwap, microSwap_memOk, microAct_memOk, ends_next]

theorem execZtile_memOk (m) {s : State} (hm : s.memOk) : Ends (execZtile m s) := by
  grind [execZtile, microZtile_memOk, microAct_memOk, ends_next]

theorem execTableSetl_memOk (e) (m) {s : State} (hm : s.memOk) : Ends (execTableSetl e m s) := by
  grind [execTableSetl, microSetl_memOk, microAct_memOk, ends_next]

theorem execTableBack_memOk (e) (m) {s : State} (hm : s.memOk) : Ends (execTableBack e m s) := by
  grind [execTableBack, microBack_memOk, microAct_memOk, ends_next]

theorem execProw_memOk (m) {s : State} (hm : s.memOk) : Ends (execProw m s) := by
  grind [execProw, microProw_memOk, microAct_memOk, ends_next]

theorem execPapp_memOk (m) {s : State} (hm : s.memOk) : Ends (execPapp m s) := by
  grind [execPapp, microPapp_memOk, microAct_memOk, ends_next]

theorem execSeth_memOk (m) {s : State} (hm : s.memOk) : Ends (execSeth m s) := by
  grind [execSeth, microSeth_memOk, microAct_memOk, ends_next]

theorem execMove_memOk (m) {s : State} (hm : s.memOk) : Ends (execMove m s) := by
  grind [execMove, microMove_memOk, microAct_memOk, ends_next]

theorem execDect_memOk (m) {s : State} (hm : s.memOk) : Ends (execDect m s) := by
  grind [execDect, microDect_memOk, microAct_memOk, ends_next]

theorem execVectorExecute_memOk (c) {s : State} (hm : s.memOk) : Ends (execVectorExecute c s) := by
  grind [execVectorExecute, on_memOk, runEngine_memOk, ends_next]

theorem execMatrixExecute_memOk (c) {s : State} (hm : s.memOk) : Ends (execMatrixExecute c s) := by
  grind [execMatrixExecute, on_memOk, runEngine_memOk, ends_next]

theorem execPlaitExecute_memOk (c) {s : State} (hm : s.memOk) : Ends (execPlaitExecute c s) := by
  grind [execPlaitExecute, on_memOk, runEngine_memOk, ends_next]

theorem execCopyStart_memOk (c) {s : State} (hm : s.memOk) : Ends (execCopyStart c s) := by
  grind [execCopyStart, on_memOk, atTurn_memOk, ends_next]

theorem execCopyComplete_memOk (c) (i) {s : State} (hm : s.memOk) : Ends (execCopyComplete c i s) := by
  grind [execCopyComplete, on_memOk, runCmd_memOk, ends_next]

/-! ### Canonical memory: Csr -/

theorem setTrapVec_memOk {s : State} (hm : s.memOk) (v) : (State.setTrapVec s v).memOk := by
  grind [State.setTrapVec, State.memOk]

theorem setCsr_memOk {s : State} (hm : s.memOk) (n) (v) : (State.setCsr s n v).memOk := by
  fun_cases State.setCsr s n v <;> grind [upCore_memOk, upRegs_memOk, setTrapVec_memOk]

theorem csrOp_memOk {s : State} (hm : s.memOk) (i) (o) (write) : Ends (State.csrOp s i o write) := by
  grind [State.csrOp, setS_memOk, advance_memOk, retire_memOk, setCsr_memOk, keeps_error, ends_next]

theorem execCsrrd_memOk (o) {s : State} (hm : s.memOk) : Ends (execCsrrd o s) := by
  grind [execCsrrd, csrOp_memOk]

theorem execCsrwr_memOk (o) {s : State} (hm : s.memOk) : Ends (execCsrwr o s) := by
  grind [execCsrwr, csrOp_memOk]

theorem execCsrset_memOk (o) {s : State} (hm : s.memOk) : Ends (execCsrset o s) := by
  grind [execCsrset, csrOp_memOk]

theorem execCsrclr_memOk (o) {s : State} (hm : s.memOk) : Ends (execCsrclr o s) := by
  grind [execCsrclr, csrOp_memOk]

/-! ### Canonical memory: Power -/

theorem packageReset_memOk (s : State) : s.packageReset.memOk := resetMemoryCanonical

theorem execPackageReset_memOk {s : State} (_hm : s.memOk) : Ends (execPackageReset s) := by
  grind [execPackageReset, packageReset_memOk, ends_next]

theorem execTrustCoreWatchdog_memOk {s : State} (_hm : s.memOk) : Ends (execTrustCoreWatchdog s) := by
  grind [execTrustCoreWatchdog, packageReset_memOk, ends_next]

theorem powerLost_memOk {s : State} (_hm : s.memOk) : (State.powerLost s).memOk := by
  grind [State.powerLost, packageReset_memOk, State.memOk]

theorem execPowerTrip_memOk {s : State} (hm : s.memOk) : Ends (execPowerTrip s) := by
  grind [execPowerTrip, powerLost_memOk, ends_next]

theorem execFirmwareVerified_memOk {s : State} (hm : s.memOk) : Ends (execFirmwareVerified s) := by
  grind [execFirmwareVerified, ends_next, State.memOk]

theorem trained_memOk {s : State} (hm : s.memOk) (mask) : (State.trained s mask).memOk := by
  grind [State.trained, startScrubSweep_memOk, State.memOk]

theorem execHbmTrainingDone_memOk (trained) {s : State} (hm : s.memOk) : Ends (execHbmTrainingDone trained s) := by
  grind [execHbmTrainingDone, trained_memOk, ends_next]

theorem execHostLinkConfigReady_memOk {s : State} (hm : s.memOk) : Ends (execHostLinkConfigReady s) := by
  grind [execHostLinkConfigReady, ends_next, State.memOk]

theorem loseAll_memOk {s : State} (hm : s.memOk) (f) (cause) : (State.loseAll s f cause).memOk := by
  grind [State.loseAll, loseContext_memOk, foldl_memOk]

theorem leaveRun_memOk {s : State} (hm : s.memOk) (f) : (State.leaveRun s f).memOk := by
  grind [State.leaveRun, upFn_memOk, recordsLeft_memOk, State.memOk]

theorem toError_memOk {s : State} (hm : s.memOk) (f) : (State.toError s f).memOk := by
  grind [State.toError, upFn_memOk, loseAll_memOk, leaveRun_memOk]

theorem execFunctionLevelReset_memOk (f) {s : State} (hm : s.memOk) : Ends (execFunctionLevelReset f s) := by
  grind [execFunctionLevelReset, loseAll_memOk, ends_next]

theorem execIdeFailure_memOk (f) {s : State} (hm : s.memOk) : Ends (execIdeFailure f s) := by
  grind [execIdeFailure, toError_memOk, ends_next]

/-! ### Canonical memory: Mailbox -/

theorem takeCommand_memOk {s : State} (hm : s.memOk) (f) : (State.takeCommand s f).memOk :=
  hm

theorem notice_memOk {s : State} (hm : s.memOk) (f) : (State.notice s f).memOk :=
  hm

theorem unknownCommand_memOk {s : State} (hm : s.memOk) (f) (r) : (State.unknownCommand s f r).memOk := by
  grind [State.unknownCommand, respond_memOk, takeCommand_memOk, notice_memOk]

theorem serveUnknown_memOk {s : State} (hm : s.memOk) (x2) : (State.serveUnknown s x2).memOk := by
  fun_induction State.serveUnknown s x2 <;> grind [unknownCommand_memOk]

theorem serve_memOk {s : State} (hm : s.memOk) (f) (code) {act} (hact : ∀ y1 t, t.memOk → (act y1 t).memOk) :
    (State.serve s f code act).memOk := by
  grind [State.serve, upFn_memOk, respond_memOk, takeCommand_memOk, notice_memOk, serveUnknown_memOk]

theorem hostWrite_memOk {s : State} (hm : s.memOk) {act} (hact : ∀ t, t.memOk → (act t).memOk) :
    (State.hostWrite s act).memOk := by
  grind [State.hostWrite]

theorem physOnly_memOk {s : State} (hm : s.memOk) (f) {act} (hact : ∀ t, t.memOk → (act t).memOk) :
    (State.physOnly s f act).memOk := by
  grind [State.physOnly, respond_memOk]

theorem execStatus_memOk (f) {s : State} (hm : s.memOk) : Ends (execStatus f s) := by
  grind [execStatus, respond_memOk, serve_memOk, ends_next]

theorem execReset_memOk (f) {s : State} (hm : s.memOk) : Ends (execReset f s) := by
  grind [execReset, packageReset_memOk, serve_memOk, physOnly_memOk, ends_next]

theorem loadFirmware_memOk {s : State} (hm : s.memOk) (img) : (State.loadFirmware s img).memOk :=
  hm

theorem execFwLoad_memOk (f) {s : State} (hm : s.memOk) : Ends (execFwLoad f s) := by
  grind [execFwLoad, respond_memOk, serve_memOk, physOnly_memOk, loadFirmware_memOk, ends_next]

theorem execDebugNonce_memOk (f) {s : State} (hm : s.memOk) : Ends (execDebugNonce f s) := by
  grind [execDebugNonce, respond_memOk, serve_memOk, physOnly_memOk, ends_next, State.memOk]

theorem lifecycleEffects_memOk {s : State} (hm : s.memOk) : (State.lifecycleEffects s).memOk := by
  grind [State.lifecycleEffects, raise_memOk, startScrubSweep_memOk, State.memOk, foldl_memOk]

theorem wipeCores_memOk (s : State) : s.wipeCores.memOk := resetMemoryCanonical

theorem enterLifecycle_memOk {s : State} (_hm : s.memOk) (l) : (State.enterLifecycle s l).memOk := by
  grind [State.enterLifecycle, lifecycleEffects_memOk, wipeCores_memOk, State.memOk]

theorem requestLifecycle_memOk {s : State} (hm : s.memOk) (f) (l) (token) : (State.requestLifecycle s f l token).memOk
    := by
  grind [State.requestLifecycle, upFn_memOk, respond_memOk, enterLifecycle_memOk, State.memOk]

theorem noticeAll_memOk {s : State} (hm : s.memOk) : (State.noticeAll s).memOk := by
  grind [State.noticeAll, upFn_memOk, foldl_memOk]

theorem loseForced_memOk {s : State} (hm : s.memOk) : (State.loseForced s).memOk := by
  grind [State.loseForced, loseContext_memOk, noticeAll_memOk, foldl_memOk]

theorem unlock_memOk {s : State} (hm : s.memOk) (f) (q) : (State.unlock s f q).memOk := by
  grind [State.unlock, respond_memOk, requestLifecycle_memOk, loseForced_memOk]

theorem lapse_memOk {s : State} (hm : s.memOk) : (State.lapse s).memOk :=
  hm

theorem execDebugUnlock_memOk (f) {s : State} (hm : s.memOk) : Ends (execDebugUnlock f s) := by
  grind [execDebugUnlock, serve_memOk, physOnly_memOk, unlock_memOk, lapse_memOk, ends_next]

theorem advanceLifecycle_memOk {s : State} (hm : s.memOk) (f) (q) : (State.advanceLifecycle s f q).memOk := by
  grind [State.advanceLifecycle, respond_memOk, requestLifecycle_memOk]

theorem execLifecycleAdvance_memOk (f) {s : State} (hm : s.memOk) : Ends (execLifecycleAdvance f s) := by
  grind [execLifecycleAdvance, serve_memOk, advanceLifecycle_memOk, ends_next]

theorem execLifecycleTransition_memOk {s : State} (hm : s.memOk) : Ends (execLifecycleTransition s) := by
  grind [execLifecycleTransition, respond_memOk, enterLifecycle_memOk, ends_next]

theorem tenantCmd_memOk {s : State} (hm : s.memOk) (f) (sess) {act} (hact : ∀ t, t.memOk → (act t).memOk) :
    (State.tenantCmd s f sess act).memOk := by
  grind [State.tenantCmd, respond_memOk]

theorem createCtx_memOk {s : State} (hm : s.memOk) (f) (q) : (State.createCtx s f q).memOk := by
  grind [State.createCtx, respond_memOk, State.memOk]

theorem execCtxCreate_memOk (f) (sess) {s : State} (hm : s.memOk) : Ends (execCtxCreate f sess s) := by
  grind [execCtxCreate, serve_memOk, tenantCmd_memOk, createCtx_memOk, ends_next]

theorem ctxCmd_memOk {s : State} (hm : s.memOk) (f) (len) (q) {act} (hact : ∀ y1 t, t.memOk → (act y1 t).memOk) :
    (State.ctxCmd s f len q act).memOk := by
  grind [State.ctxCmd, respond_memOk]

theorem endByTenant_memOk {s : State} (hm : s.memOk) (f) (n) : (State.endByTenant s f n).memOk := by
  grind [State.endByTenant, upFn_memOk, respond_memOk, endContext_memOk]

theorem execCtxEnd_memOk (f) (sess) {s : State} (hm : s.memOk) : Ends (execCtxEnd f sess s) := by
  grind [execCtxEnd, serve_memOk, tenantCmd_memOk, ctxCmd_memOk, endByTenant_memOk, ends_next]

theorem upCtx_memOk {s : State} (hm : s.memOk) (n) (f) : (State.upCtx s n f).memOk :=
  hm

theorem sweepCores_memOk {s : State} (hm : s.memOk) (ctx) (tenant) (e) (gen) : (s.sweepCores ctx tenant e gen).1.memOk
    :=
  List.foldlRecOn (motive := fun p : State × List Nat => p.1.memOk) _ _ (onCores_memOk hm _) fun p hp n _ => by
    dsimp only
    split
    · exact setCoreAt_memOk hp _ _
    · exact hp

theorem mint_memOk {s : State} (hm : s.memOk) (f) (q) (c) : (State.mint s f q c).memOk := by
  grind [State.mint, upFn_memOk, respond_memOk, logRec_memOk, upCtx_memOk, sweepCores_memOk]

theorem execHandleMint_memOk (f) (sess) {s : State} (hm : s.memOk) : Ends (execHandleMint f sess s) := by
  grind [execHandleMint, serve_memOk, tenantCmd_memOk, ctxCmd_memOk, mint_memOk, ends_next]

theorem execHandleRead_memOk (f) (sess) {s : State} (hm : s.memOk) : Ends (execHandleRead f sess s) := by
  grind [execHandleRead, respond_memOk, serve_memOk, tenantCmd_memOk, ctxCmd_memOk, ends_next]

theorem revoke_memOk {s : State} (hm : s.memOk) (f) (q) (c) : (State.revoke s f q c).memOk := by
  unfold State.revoke
  extract_lets e t risen u
  split
  · exact respond_memOk hm ..
  · split
    · exact respond_memOk hm ..
    · have swept := sweepCores_memOk (s := u) (upCtx_memOk hm ..) c.num c.tenant e risen.gen
      generalize State.sweepCores _ _ _ _ _ = r at swept ⊢
      obtain ⟨v, counts⟩ := r
      apply upFn_memOk
      exact dropWatchers_memOk swept _

theorem execHandleRevoke_memOk (f) (sess) {s : State} (hm : s.memOk) : Ends (execHandleRevoke f sess s) := by
  grind [execHandleRevoke, serve_memOk, tenantCmd_memOk, ctxCmd_memOk, revoke_memOk, ends_next]

theorem execRevocationEnd_memOk {s : State} (hm : s.memOk) : Ends (execRevocationEnd s) := by
  grind [execRevocationEnd, respond_memOk, raise_memOk, ends_next, State.memOk]

/-! ### Canonical memory: Launch -/

theorem sendRecord_memOk {s : State} (hm : s.memOk) (l) (c) (v) (bs) : (State.sendRecord s l c v bs).1.memOk := by
  grind [State.sendRecord, depart_memOk, State.memOk]

theorem headerRecord_memOk {s : State} (hm : s.memOk) (l) : ∀ u n, State.headerRecord s l = .ok (u, n) → u.memOk := by
  grind [State.headerRecord, ordWrite_memOk, sendRecord_memOk, keeps_ok, keeps_error]

theorem submitNode_memOk {s : State} (hm : s.memOk) (r) (j) : (State.submitNode s r j).memOk := by
  grind [State.submitNode, readPrio_memOk, State.memOk]

theorem upReplay_memOk {s : State} (hm : s.memOk) (n) (f) : (State.upReplay s n f).memOk :=
  hm

theorem tryNode_memOk {s : State} (hm : s.memOk) (n) (j) : (State.tryNode s n j).memOk := by
  fun_cases State.tryNode s n j <;> grind [unitRequest_memOk, marked_memOk, submitNode_memOk, upReplay_memOk]

theorem predDone_memOk {s : State} (hm : s.memOk) (n) (j) : (State.predDone s n j).memOk := by
  grind [State.predDone, upReplay_memOk, tryNode_memOk]

theorem replayEnd_memOk {s : State} (hm : s.memOk) (n) : (State.replayEnd s n).memOk := by
  grind [State.replayEnd, complete_memOk, State.memOk]

theorem tryNodes_memOk {s : State} (hm : s.memOk) : (State.tryNodes s).memOk := by
  grind [State.tryNodes, tryNode_memOk, replayEnd_memOk, foldl_memOk]

theorem nodeDone_memOk {s : State} (hm : s.memOk) (l) : (State.nodeDone s l).memOk := by
  grind [State.nodeDone, upReplay_memOk, predDone_memOk, foldl_memOk]

theorem closeLater_memOk {s : State} (hm : s.memOk) (l) (w) : (State.closeLater s l w).memOk :=
  hm

theorem ringRecord_memOk {s : State} (hm : s.memOk) (l) : (State.ringRecord s l).memOk := by
  grind [State.ringRecord, complete_memOk, replayEnd_memOk]

theorem closeLaunch_memOk {s : State} (hm : s.memOk) (l) : (State.closeLaunch s l).memOk := by
  grind [State.closeLaunch, unitRequest_memOk, headerRecord_memOk, closeLater_memOk, ringRecord_memOk]

theorem finishLaunch_memOk {s : State} (hm : s.memOk) (l) : (State.finishLaunch s l).memOk := by
  grind [State.finishLaunch, freeLaunch_memOk, nodeDone_memOk, closeLaunch_memOk, State.memOk]

theorem closeOne_memOk {s : State} (hm : s.memOk) (x) : (State.closeOne s x).memOk := by
  grind [State.closeOne, ringRecord_memOk, closeLaunch_memOk, State.memOk]

theorem closeWaiting_memOk {s : State} (hm : s.memOk) : (State.closeWaiting s).memOk := by
  grind [State.closeWaiting, closeOne_memOk, foldl_memOk]

theorem execLaunchComplete_memOk (l) {s : State} (hm : s.memOk) : Ends (execLaunchComplete l s) := by
  grind [execLaunchComplete, finishLaunch_memOk, closeWaiting_memOk, ends_next]

theorem writeRecord_memOk {s : State} (hm : s.memOk) (f) : (State.writeRecord s f).memOk := by
  grind [State.writeRecord, upFn_memOk, recordsLeft_memOk, raise_memOk, State.memOk]

theorem execCompletionRecordWrite_memOk (f) {s : State} (hm : s.memOk) : Ends (execCompletionRecordWrite f s) := by
  grind [execCompletionRecordWrite, writeRecord_memOk, ends_next]

theorem queuedOf_memOk {s : State} (hm : s.memOk) (slot) : (State.queuedOf s slot).2.memOk := by
  grind [State.queuedOf, readPrio_memOk]

theorem copySlots_memOk (f) (x2) {x3 : State} (hm : x3.memOk) : (State.copySlots f x2 x3).memOk := by
  fun_induction State.copySlots f x2 x3 <;> grind [upFn_memOk, complete_memOk, queuedOf_memOk, State.memOk]

theorem launchSubmit_memOk {s : State} (hm : s.memOk) (f) (tail) : (State.launchSubmit s f tail).memOk := by
  grind [State.launchSubmit, upFn_memOk, copySlots_memOk]

theorem execLaunchSubmit_memOk (f) (tail) {s : State} (hm : s.memOk) : Ends (execLaunchSubmit f tail s) := by
  grind [execLaunchSubmit, launchSubmit_memOk, ends_next]

theorem unqueue_memOk {s : State} (hm : s.memOk) (c) : (State.unqueue s c).memOk :=
  hm

theorem requeue_memOk {s : State} (hm : s.memOk) (c) (q) : (State.requeue s c q).memOk :=
  hm

theorem refuse_memOk {s : State} (hm : s.memOk) (q) (f) (status) (step) (h) : (State.refuse s q f status step h).memOk
    := by
  grind [State.refuse, finishLaunch_memOk]

theorem waitForPage_memOk {s : State} (hm : s.memOk) (c) (m) : ∀ u ∈ State.waitForPage s c m, u.memOk := by
  grind [State.waitForPage, unitRequest_memOk, requeue_memOk]

theorem take_memOk {s : State} (hm : s.memOk) (p) (c) (l) : (State.take s p c l).memOk :=
  hm

theorem takeOrHold_memOk {s : State} (hm : s.memOk) (p) (c) (l) : ∀ u ∈ State.takeOrHold s p c l, u.memOk := by
  grind [State.takeOrHold, requeue_memOk, take_memOk]

theorem takeReplay_memOk {s : State} (hm : s.memOk) (c) : ∀ u ∈ State.takeReplay s c, u.memOk := by
  grind [State.takeReplay, complete_memOk, marked_memOk, submitNode_memOk, unqueue_memOk, waitForPage_memOk,
    State.memOk]

theorem takeLaunch_memOk {s : State} (hm : s.memOk) (p) (c) : ∀ u ∈ State.takeLaunch s p c, u.memOk := by
  grind [State.takeLaunch, marked_memOk, unqueue_memOk, refuse_memOk, waitForPage_memOk, takeOrHold_memOk]

theorem takeOne_memOk {s : State} (hm : s.memOk) (p) (c) : ∀ u ∈ State.takeOne s p c, u.memOk := by
  grind [State.takeOne, takeReplay_memOk, takeLaunch_memOk]

theorem takeFrom_memOk {s : State} (hm : s.memOk) (p) (blocked) (x4) : (State.takeFrom s p blocked x4).memOk := by
  fun_induction State.takeFrom s p blocked x4 <;> grind [takeOne_memOk]

theorem fillQueues_memOk {s : State} (hm : s.memOk) (p) : (State.fillQueues s p).memOk := by
  grind [State.fillQueues, tryNodes_memOk, closeWaiting_memOk, copySlots_memOk, foldl_memOk]

theorem execLaunchTake_memOk (p) {s : State} (hm : s.memOk) : Ends (execLaunchTake p s) := by
  grind [execLaunchTake, takeFrom_memOk, fillQueues_memOk, ends_next]

/-! ### Canonical memory: Placement -/

theorem bindGroup_memOk {s : State} (hm : s.memOk) (l) (g) (cl) : (State.bindGroup s l g cl).memOk := by
  grind [State.bindGroup, upLaunch_memOk, wipe_memOk, State.memOk]

theorem execClusterGroupBind_memOk (l) {s : State} (hm : s.memOk) : Ends (execClusterGroupBind l s) := by
  grind [execClusterGroupBind, bindGroup_memOk, ends_next]

theorem execStrandGenerate_memOk (l) {s : State} (hm : s.memOk) : Ends (execStrandGenerate l s) := by
  grind [execStrandGenerate, upLaunch_memOk, ends_next, State.memOk]

theorem areaWrite_memOk (c) (no) (x3) (x4) {x5 : State} (hm : x5.memOk) : ∀ u ∈ State.areaWrite c no x3 x4 x5, u.memOk
    := by
  fun_induction State.areaWrite c no x3 x4 x5 <;> grind [ordWrite_memOk, keeps_ok]

theorem saveOut_memOk {s : State} (hm : s.memOk) (c) (ta) (n) : ∀ p ∈ State.saveOut s c ta n, p.2.memOk := by
  have drawn : ({ s with drawn := s.drawn + 1 } : State).memOk := hm
  fun_cases State.saveOut s c ta n with
  | case1 => simp
  | case2 l =>
    simp only [Option.mem_def, Option.map_eq_some_iff]
    rintro p ⟨t, written, rfl⟩
    exact areaWrite_memOk _ _ _ _ drawn _ written

theorem logArea_memOk {s : State} (hm : s.memOk) (c) (ta) (n) : (State.logArea s c ta n).memOk := by
  grind [State.logArea, logWalks_memOk]

theorem noteArea_memOk {s : State} (hm : s.memOk) (core) (l) : (State.noteArea s core l).memOk := by
  grind [State.noteArea, noteHeld_memOk, foldl_memOk]

theorem newShare_memOk {s : State} (hm : s.memOk) (c) (l) (cg) (alone) : ∀ p ∈ State.newShare s c l cg alone,
    p.2.memOk := by
  grind [State.newShare, wipe_memOk, State.memOk]

theorem boundShare_memOk {s : State} (hm : s.memOk) (l : Launch) (c : Nat) (r : Rec) {off t}
    (bound : (if r.scope = 0 then
        match s.shareFor c r with
        | some h => some (h.off, s)
        | none => s.newShare c l r.coreGroup none
      else s.newShare c l none (some r.strand)) = some (off, t)) : t.memOk := by
  have made (g a) := newShare_memOk hm c l g a (off, t)
  cases h : s.shareFor c r <;> simp only [h] at bound <;> split at bound <;> grind

theorem dispatch_memOk {s : State} (hm : s.memOk) (c) (r) : (State.dispatch s c r).memOk := by
  fun_cases State.dispatch s c r with
  | case3 => exact loseContext_memOk (logRec_memOk (marked_memOk hm _) _ _ _ _) _ _
  | case4 l _ x _ drop k =>
    have dropped : (drop s).memOk := hm
    exact on_memOk (setCoreAt_memOk dropped _ _) _ fun t ht => traceLoop_memOk ht _ _
  | case6 l _ x _ drop _ got off t bound u j k v =>
    have ht : t.memOk := boundShare_memOk hm l c r bound
    have hu : (drop u).memOk := by
      show u.memOk
      grind [upLaunch_memOk]
    exact setCoreAt_memOk hu _ _
  | case7 l _ x _ drop _ got off t bound u j k v =>
    have ht : t.memOk := boundShare_memOk hm l c r bound
    have hu : (drop u).memOk := by
      show u.memOk
      grind [upLaunch_memOk]
    exact on_memOk (setCoreAt_memOk hu _ _) _ fun t ht => traceLoop_memOk ht _ _
  | _ => exact hm

theorem noteRestores_memOk {s : State} (hm : s.memOk) (c) : (State.noteRestores s c).memOk := by
  grind [State.noteRestores, noteArea_memOk, foldl_memOk]

theorem execStrandDispatch_memOk (c) {s : State} (hm : s.memOk) : Ends (execStrandDispatch c s) := by
  grind [execStrandDispatch, dispatch_memOk, noteRestores_memOk, ends_next]

theorem execGangReserve_memOk (l) {s : State} (hm : s.memOk) : Ends (execGangReserve l s) := by
  grind [execGangReserve, upLaunch_memOk, ends_next]

theorem gangFirst_memOk {s : State} (hm : s.memOk) (x) : (State.gangFirst s x).memOk := by
  grind [State.gangFirst, upLaunch_memOk, bindGroup_memOk, dispatch_memOk, State.memOk, foldl_memOk]

theorem gangAgain_memOk {s : State} (hm : s.memOk) (x) : (State.gangAgain s x).memOk := by
  grind [State.gangAgain, upLaunch_memOk, dispatch_memOk, foldl_memOk]

theorem execGangStart_memOk (l) {s : State} (hm : s.memOk) : Ends (execGangStart l s) := by
  grind [execGangStart, noteRestores_memOk, gangFirst_memOk, gangAgain_memOk, ends_next, foldl_memOk]

theorem requestPreempt_memOk {s : State} (hm : s.memOk) (c) : (State.requestPreempt s c).memOk := by
  grind [State.requestPreempt, setCoreAt_memOk, onCores_memOk, gangSaved_memOk, foldl_memOk]

theorem execSliceEnd_memOk (c) {s : State} (hm : s.memOk) : Ends (execSliceEnd c s) := by
  grind [execSliceEnd, requestPreempt_memOk, ends_next]

theorem preemptFn_memOk {s : State} (hm : s.memOk) (f) : (State.preemptFn s f).memOk := by
  grind [State.preemptFn, gangSaved_memOk, requestPreempt_memOk, foldl_memOk]

theorem execBudgetExhausted_memOk (f) {s : State} (hm : s.memOk) : Ends (execBudgetExhausted f s) := by
  grind [execBudgetExhausted, preemptFn_memOk, ends_next]

theorem toRow_memOk {s : State} (hm : s.memOk) (x) : (s.toRow x).memOk :=
  foldl_memOk hm _ _ fun t k ht => by
    grind [runUnit_memOk, unitsOf_keeps]

theorem cutHere_memOk {s : State} (hm : s.memOk) : (State.cutHere s).memOk := by
  grind [State.cutHere, upCore_memOk, dropLines_memOk, stop_memOk, toRow_memOk, keeps_ok, keeps_error, foldl_memOk]

theorem preemptPoint_memOk {s : State} (hm : s.memOk) : (State.preemptPoint s).memOk := by
  grind [State.preemptPoint, upCore_memOk, boundary_memOk, stop_memOk, cutHere_memOk, keeps_ok, keeps_error]

theorem execPreemptPointReached_memOk (c) {s : State} (hm : s.memOk) : Ends (execPreemptPointReached c s) := by
  grind [execPreemptPointReached, on_memOk, orHeld_memOk, preemptPoint_memOk, ends_next]

theorem saveStrand_memOk {s : State} (hm : s.memOk) (j) (p) : (State.saveStrand s j p).memOk := by
  fun_cases State.saveStrand s j p with
  | case4 =>
    rename_i saved _ _ _
    refine gangSaved_memOk (upCore_memOk ?_ _) _
    exact saveOut_memOk hm _ _ _ _ saved
  | _ => grind [loseContext_memOk, logRec_memOk, noteArea_memOk, logArea_memOk]

theorem execPreemptSaveComplete_memOk (c) {s : State} (hm : s.memOk) : Ends (execPreemptSaveComplete c s) := by
  grind [execPreemptSaveComplete, on_memOk, saveStrand_memOk, ends_next]

theorem execPreemptDeadline_memOk (c) {s : State} (hm : s.memOk) : Ends (execPreemptDeadline c s) := by
  grind [execPreemptDeadline, on_memOk, upCore_memOk, rollBack_memOk, orHeld_memOk, cutHere_memOk, ends_next]

theorem blurStarted_memOk {s : State} (hm : s.memOk) : (State.blurStarted s).memOk := by
  grind [State.blurStarted, blurCopy_memOk, foldl_memOk]

theorem abandonHere_memOk {s : State} (hm : s.memOk) : (State.abandonHere s).memOk := by
  grind [State.abandonHere, blurStarted_memOk, State.memOk]

theorem abandon_memOk {s : State} (hm : s.memOk) (p) : (State.abandon s p).memOk := by
  grind [State.abandon, on_memOk, blurStarted_memOk, abandonHere_memOk, State.memOk, foldl_memOk]

theorem execWatchdog_memOk (c) {s : State} (hm : s.memOk) : Ends (execWatchdog c s) := by
  grind [execWatchdog, upLaunch_memOk, logRec_memOk, onceLoose_memOk, stopStrands_memOk, abandon_memOk, ends_next]

theorem execFunctionEvict_memOk (f) {s : State} (hm : s.memOk) : Ends (execFunctionEvict f s) := by
  grind [execFunctionEvict, upFn_memOk, hostWrite_memOk, preemptFn_memOk, ends_next]

theorem writeImages_memOk (c) (l) {s : State} (hm : s.memOk) : ∀ u ∈ State.writeImages c l s, u.memOk := by
  fun_induction State.writeImages c l s with
  | case1 => grind
  | case2 => grind
  | case3 s i l no t saved ih => exact ih (saveOut_memOk hm _ _ _ _ saved)

theorem evictCtx_memOk {s : State} (hm : s.memOk) (c) : (State.evictCtx s c).memOk := by
  grind [State.evictCtx, logRec_memOk, freeShares_memOk, freeCps_memOk, loseContext_memOk, logArea_memOk,
    writeImages_memOk, foldl_memOk]

theorem execEvictionDone_memOk (f) {s : State} (hm : s.memOk) : Ends (execEvictionDone f s) := by
  grind [execEvictionDone, upFn_memOk, noteArea_memOk, evictCtx_memOk, ends_next, State.memOk, foldl_memOk]

theorem reloadImage_memOk {s : State} (hm : s.memOk) (i) : (s.reloadImage i).memOk :=
  List.foldlRecOn (motive := fun m => Memory.wf m = true) _ _ (wipe_memOk hm _ _) fun m ok _ _ => memSet_wf m _ _ ok

theorem reload_memOk {s : State} (hm : s.memOk) (i) : (State.reload s i).memOk := by
  grind [State.reload, logRec_memOk, loseContext_memOk, marked_memOk, noteArea_memOk, reloadImage_memOk]

theorem execFunctionResume_memOk (f) {s : State} (hm : s.memOk) : Ends (execFunctionResume f s) := by
  grind [execFunctionResume, upFn_memOk, hostWrite_memOk, reload_memOk, ends_next, State.memOk, foldl_memOk]

theorem wakeHit_memOk {s : State} (hm : s.memOk) (w) : (State.wakeHit s w).memOk := by
  grind [State.wakeHit, dropWatchers_memOk]

theorem execWatchWake_memOk (i) {s : State} (hm : s.memOk) : Ends (execWatchWake i s) := by
  grind [execWatchWake, wakeHit_memOk, ends_next]

theorem routeSteal_memOk {s : State} (hm : s.memOk) (t) (x3) : (State.routeSteal s t x3).memOk := by
  fun_induction State.routeSteal s t x3 <;> grind [setCoreAt_memOk, State.memOk]

theorem execStealRequestArrive_memOk (i) {s : State} (hm : s.memOk) : Ends (execStealRequestArrive i s) := by
  grind [execStealRequestArrive, routeSteal_memOk, ends_next]

theorem execStealGrantArrive_memOk (i) {s : State} (hm : s.memOk) : Ends (execStealGrantArrive i s) := by
  grind [execStealGrantArrive, setCoreAt_memOk, ends_next, State.memOk]

theorem planRun_memOk {s : State} (hm : s.memOk) (l) (c) (p) (o) (n) : Keeps id (State.planRun s l c p o n) := by
  grind [State.planRun, ordRead_memOk, ordWrite_memOk, keeps_ok, keeps_error]

theorem planRuns_memOk (l) (c) (p) (i) (x5) {x6 : State} (hm : x6.memOk) : Keeps id (State.planRuns l c p i x5 x6) := by
  fun_induction State.planRuns l c p i x5 x6 <;> grind [planRun_memOk, keeps_ok]

theorem planLine_memOk {s : State} (hm : s.memOk) (l) (c) (p) (i) : Keeps id (State.planLine s l c p i) := by
  grind [State.planLine, planRuns_memOk]

theorem planLines_memOk {s : State} (hm : s.memOk) (l) (c) (p) (x5) (x6) : Keeps id (State.planLines s l c p x5 x6) :=
    by
  fun_induction State.planLines s l c p x5 x6 <;> grind [planLine_memOk, keeps_ok]

theorem planFails_memOk {s : State} (hm : s.memOk) (l) (k) (st) : (State.planFails s l k st).memOk := by
  grind [State.planFails, upLaunch_memOk, onceLoose_memOk, stopStrands_memOk, abandon_memOk]

theorem planWaits_memOk {s : State} (hm : s.memOk) (l) (k) (m) : (State.planWaits s l k m).memOk := by
  grind [State.planWaits, upLaunch_memOk, unitRequest_memOk]

theorem execExchangeStepIssue_memOk (l) (k) {s : State} (hm : s.memOk) : Ends (execExchangeStepIssue l k s) := by
  grind [execExchangeStepIssue, noteHeld_memOk, upLaunch_memOk, planLines_memOk, planFails_memOk, planWaits_memOk,
    keeps_ok, keeps_error, ends_next]

theorem execSstepRelease_memOk (l) {s : State} (hm : s.memOk) : Ends (execSstepRelease l s) := by
  grind [execSstepRelease, upLaunch_memOk, ends_next]

/-! ### Canonical memory: Spdm -/

theorem spdm_memOk {s : State} (hm : s.memOk) (f) (kind) (ok) {act} (hact : ∀ t, t.memOk → (act t).memOk) :
    (State.spdm s f kind ok act).memOk := by
  grind [State.spdm, respond_memOk, serve_memOk]

theorem setStage_memOk {s : State} (hm : s.memOk) (f) (st) : (State.setStage s f st).memOk :=
  hm

theorem execGetVersion_memOk (f) {s : State} (hm : s.memOk) : Ends (execGetVersion f s) := by
  grind [execGetVersion, spdm_memOk, setStage_memOk, ends_next]

theorem execGetCapabilities_memOk (f) {s : State} (hm : s.memOk) : Ends (execGetCapabilities f s) := by
  grind [execGetCapabilities, spdm_memOk, setStage_memOk, ends_next]

theorem execNegotiateAlgorithms_memOk (f) {s : State} (hm : s.memOk) : Ends (execNegotiateAlgorithms f s) := by
  grind [execNegotiateAlgorithms, spdm_memOk, setStage_memOk, ends_next]

theorem execGetDigests_memOk (f) {s : State} (hm : s.memOk) : Ends (execGetDigests f s) := by
  grind [execGetDigests, spdm_memOk, ends_next]

theorem execGetCertificate_memOk (f) {s : State} (hm : s.memOk) : Ends (execGetCertificate f s) := by
  grind [execGetCertificate, spdm_memOk, ends_next]

theorem execChallenge_memOk (f) {s : State} (hm : s.memOk) : Ends (execChallenge f s) := by
  grind [execChallenge, spdm_memOk, ends_next]

theorem execGetMeasurements_memOk (f) {s : State} (hm : s.memOk) : Ends (execGetMeasurements f s) := by
  grind [execGetMeasurements, spdm_memOk, ends_next]

theorem execKeyExchange_memOk (f) {s : State} (hm : s.memOk) : Ends (execKeyExchange f s) := by
  grind [execKeyExchange, spdm_memOk, setStage_memOk, ends_next]

theorem execFinish_memOk (f) {s : State} (hm : s.memOk) : Ends (execFinish f s) := by
  grind [execFinish, upFn_memOk, spdm_memOk, ends_next, State.memOk]

theorem execEndSession_memOk (f) {s : State} (hm : s.memOk) : Ends (execEndSession f s) := by
  grind [execEndSession, upFn_memOk, spdm_memOk, ends_next]

theorem execIdeKm_memOk (f) {s : State} (hm : s.memOk) : Ends (execIdeKm f s) := by
  grind [execIdeKm, upFn_memOk, respond_memOk, serve_memOk, ends_next]

theorem execLockInterfaceRequest_memOk (f) {s : State} (hm : s.memOk) : Ends (execLockInterfaceRequest f s) := by
  grind [execLockInterfaceRequest, upFn_memOk, spdm_memOk, ends_next]

theorem execStartInterfaceRequest_memOk (f) (sess) {s : State} (hm : s.memOk) : Ends
    (execStartInterfaceRequest f sess s) := by
  grind [execStartInterfaceRequest, upFn_memOk, spdm_memOk, ends_next]

theorem execStopInterfaceRequest_memOk (f) {s : State} (hm : s.memOk) : Ends (execStopInterfaceRequest f s) := by
  grind [execStopInterfaceRequest, upFn_memOk, respond_memOk, toError_memOk, serve_memOk, ends_next]

theorem execStopInterfaceComplete_memOk (f) {s : State} (hm : s.memOk) : Ends (execStopInterfaceComplete f s) := by
  grind [execStopInterfaceComplete, upFn_memOk, respond_memOk, ends_next]

/-! ### Canonical memory: HostRegs -/

theorem execPtCommit_memOk {s : State} (hm : s.memOk) : Ends (execPtCommit s) := by
  grind [execPtCommit, hostWrite_memOk, ends_next, State.memOk]

theorem installParts_memOk {s : State} (hm : s.memOk) : (State.installParts s).memOk :=
  hm

theorem execPtCommitDone_memOk {s : State} (hm : s.memOk) : Ends (execPtCommitDone s) := by
  unfold execPtCommitDone
  split
  · exact hm
  · cases s.commitFails with
    | none => exact installParts_memOk hm
    | some _ => exact hm

theorem calGo_memOk {s : State} (hm : s.memOk) : (State.calGo s).memOk := by
  grind [State.calGo, State.memOk]

theorem calPost_memOk {s : State} (hm : s.memOk) : (State.calPost s).memOk := by
  grind [State.calPost, State.memOk]

theorem execCalendarGo_memOk {s : State} (hm : s.memOk) : Ends (execCalendarGo s) := by
  grind [execCalendarGo, hostWrite_memOk, calGo_memOk, ends_next]

theorem execCalendarPost_memOk {s : State} (hm : s.memOk) : Ends (execCalendarPost s) := by
  grind [execCalendarPost, hostWrite_memOk, calPost_memOk, ends_next]

theorem execCalendarInstall_memOk {s : State} (hm : s.memOk) : Ends (execCalendarInstall s) := by
  grind [execCalendarInstall, ends_next, State.memOk]

theorem rotateLine_memOk {s : State} (hm : s.memOk) (t) (r) : (State.rotateLine s t r).memOk := by
  grind [State.rotateLine, mark_memOk, State.memOk]

theorem patrolStack_memOk {s : State} (hm : s.memOk) (p) : (State.patrolStack s p).memOk := by
  grind [State.patrolStack, mark_memOk, logRec_memOk, State.memOk]

theorem slotBurst_memOk {s : State} (hm : s.memOk) (p) (k) : (State.slotBurst s p k).memOk := by
  grind [State.slotBurst, countFor_memOk]

theorem execRefreshForced_memOk (p) (k) {s : State} (hm : s.memOk) : Ends (execRefreshForced p k s) := by
  unfold execRefreshForced
  cases s.slotCore <;> grind [ends_next, countFor_memOk, State.memOk]

theorem execPatChange_memOk (v) {s : State} (hm : s.memOk) : Ends (execPatChange v s) := by
  grind [execPatChange, hostWrite_memOk, ends_next, State.memOk]

theorem execPatChangeDone_memOk {s : State} (hm : s.memOk) : Ends (execPatChangeDone s) := by
  grind [execPatChangeDone, settleTids_memOk, ends_next, State.memOk]

theorem execXlinv_memOk (v) {s : State} (hm : s.memOk) : Ends (execXlinv v s) := by
  grind [execXlinv, hostWrite_memOk, ends_next, State.memOk]

theorem execXlinvComplete_memOk {s : State} (hm : s.memOk) : Ends (execXlinvComplete s) := by
  grind [execXlinvComplete, onCores_memOk, writeBackCores_memOk, onceLoose_memOk, ends_next, State.memOk]

theorem apertureDrop_memOk {s : State} (hm : s.memOk) (place) : (State.apertureDrop s place).memOk :=
  hm

theorem mendWalk_memOk {s : State} (hm : s.memOk) (line) (p) : (State.mendWalk s line p).memOk :=
  hm

theorem apertureWrite_memOk {s : State} (hm : s.memOk) (off) (b) : (State.apertureWrite s off b).memOk := by
  grind [State.apertureWrite, settleTids_memOk, apertureDrop_memOk, mendWalk_memOk, State.memOk]

theorem execWalkApertureWrite_memOk (off) (bytes) {s : State} (hm : s.memOk) : Ends
    (execWalkApertureWrite off bytes s) := by
  grind [execWalkApertureWrite, hostWrite_memOk, apertureWrite_memOk, ends_next]

theorem onAll_memOk {s : State} (hm : s.memOk) (f) : (State.onAll s f).memOk :=
  hm

theorem onWaiting_memOk {s : State} (hm : s.memOk) (e) (f) : (State.onWaiting s e f).memOk :=
  hm

theorem onFinishing_memOk {s : State} (hm : s.memOk) (e) (refused) : (State.onFinishing s e refused).memOk :=
  hm

theorem onPlans_memOk {s : State} (hm : s.memOk) (e) (refused) : (State.onPlans s e refused).memOk := by
  grind [State.onPlans, upLaunch_memOk, planFails_memOk, State.memOk, foldl_memOk]

theorem dropRequest_memOk {s : State} (hm : s.memOk) (e) : (State.dropRequest s e).memOk :=
  hm

theorem execPageRequestClose_memOk (e) {s : State} (hm : s.memOk) : Ends (execPageRequestClose e s) := by
  grind [execPageRequestClose, onCores_memOk, hostWrite_memOk, onAll_memOk, onWaiting_memOk, onFinishing_memOk,
    onPlans_memOk, dropRequest_memOk, ends_next]

theorem refusedPage_memOk {s : State} (hm : s.memOk) : (State.refusedPage s).memOk := by
  grind [State.refusedPage, upCore_memOk, trapEntry_memOk, failedEntry_memOk]

theorem execPageRequestRefuse_memOk (e) {s : State} (hm : s.memOk) : Ends (execPageRequestRefuse e s) := by
  grind [execPageRequestRefuse, on_memOk, hostWrite_memOk, onAll_memOk, onWaiting_memOk, onFinishing_memOk,
    onPlans_memOk, dropRequest_memOk, refusedPage_memOk, ends_next, foldl_memOk]

theorem upSave_memOk {s : State} (hm : s.memOk) (t) (f) : (State.upSave s t f).memOk :=
  hm

theorem execSaveAreaCheck_memOk (t) {s : State} (hm : s.memOk) : Ends (execSaveAreaCheck t s) := by
  grind [execSaveAreaCheck, hostWrite_memOk, upSave_memOk, ends_next]

theorem execSaveAreaCheckDone_memOk (t) {s : State} (hm : s.memOk) : Ends (execSaveAreaCheckDone t s) := by
  grind [execSaveAreaCheckDone, logWalks_memOk, upSave_memOk, ends_next]

theorem execPmevtWrite_memOk (f) (i) (v) {s : State} (hm : s.memOk) : Ends (execPmevtWrite f i v s) := by
  grind [execPmevtWrite, upFn_memOk, ends_next]

theorem doorbell_memOk {s : State} (hm : s.memOk) (f) (v) : (State.doorbell s f v).memOk := by
  grind [State.doorbell, upFn_memOk, serveUnknown_memOk]

theorem writeFnReg_memOk {s : State} (hm : s.memOk) (f) (off) (v) : (State.writeFnReg s f off v).memOk := by
  fun_cases State.writeFnReg s f off v <;> grind [upFn_memOk, toError_memOk, launchSubmit_memOk, doorbell_memOk,
    keeps_ok, keeps_error, ends_next]

theorem writeDbgReg_memOk {s : State} (hm : s.memOk) (off) (v) : (State.writeDbgReg s off v).memOk := by
  grind [State.writeDbgReg, State.memOk]

theorem writePhysReg_memOk {s : State} (hm : s.memOk) (off) (v) : (State.writePhysReg s off v).memOk := by
  fun_cases State.writePhysReg s off v <;> grind [upFn_memOk, toError_memOk, calGo_memOk, calPost_memOk, upSave_memOk,
    writeDbgReg_memOk, keeps_ok, keeps_error, ends_next, State.memOk]

theorem execRegisterWrite_memOk (f) (off) (v) {s : State} (hm : s.memOk) : Ends (execRegisterWrite f off v s) := by
  grind [execRegisterWrite, writeFnReg_memOk, writePhysReg_memOk, ends_next]

theorem hostEnds_memOk {s : State} (hm : s.memOk) (st) : (State.hostEnds s st).memOk :=
  hm

theorem hostAccess_memOk {s : State} (hm : s.memOk) (f) (pa) (wr) : (State.hostAccess s f pa wr).memOk := by
  fun_cases State.hostAccess s f pa wr <;> grind [ordRead_memOk, ordWrite_memOk, hostEnds_memOk, keeps_ok, keeps_error]

theorem hostServe_memOk {s : State} (hm : s.memOk) (p) : (State.hostServe s p).memOk := by
  grind [State.hostServe, hostAccess_memOk, State.memOk]

theorem hostServeAll_memOk (x1) {x2 : State} (hm : x2.memOk) : (State.hostServeAll x1 x2).memOk := by
  fun_induction State.hostServeAll x1 x2 <;> grind [hostServe_memOk]

theorem hostStalls_memOk {s : State} (hm : s.memOk) : s.hostStalls.memOk :=
  foldl_memOk hm _ _ fun t q ht => by
    cases t.hostWaits q <;> grind [noteHeld_memOk]

theorem execHostMemoryAccess_memOk (f) (pa) (wr) {s : State} (hm : s.memOk) : Ends (execHostMemoryAccess f pa wr s) :=
    by
  grind [execHostMemoryAccess, hostServeAll_memOk, hostStalls_memOk, ends_next, State.memOk]

/-! ### Canonical memory: Sweeps -/

theorem swResult_memOk {s : State} (hm : s.memOk) (c) : (State.swResult s c).memOk :=
  hm

theorem lowerCapacity_memOk {s : State} (hm : s.memOk) (n) : (State.lowerCapacity s n).memOk := by
  grind [State.lowerCapacity, swResult_memOk, State.memOk]

theorem execSwcap_memOk (v) {s : State} (hm : s.memOk) : Ends (execSwcap v s) := by
  grind [execSwcap, hostWrite_memOk, lowerCapacity_memOk, ends_next]

theorem startRetire_memOk {s : State} (hm : s.memOk) (v) : (State.startRetire s v).memOk := by
  grind [State.startRetire, swResult_memOk, State.memOk]

theorem execSwret_memOk (v) {s : State} (hm : s.memOk) : Ends (execSwret v s) := by
  grind [execSwret, hostWrite_memOk, startRetire_memOk, ends_next]

theorem moveLine_memOk {s : State} (hm : s.memOk) (g) : (State.moveLine s g).memOk := by
  grind [State.moveLine, mark_memOk, State.memOk]

theorem execGranuleMoveComplete_memOk {s : State} (hm : s.memOk) : Ends (execGranuleMoveComplete s) := by
  grind [execGranuleMoveComplete, ends_next, State.memOk]

theorem execStagingBlockMove_memOk {s : State} (hm : s.memOk) : Ends (execStagingBlockMove s) := by
  grind [execStagingBlockMove, platformWrite_memOk, ends_next, State.memOk]

theorem execRetirementEnd_memOk {s : State} (hm : s.memOk) : Ends (execRetirementEnd s) := by
  grind [execRetirementEnd, raise_memOk, ends_next, State.memOk]

theorem upRot_memOk {s : State} (hm : s.memOk) (t) (f) : (State.upRot s t f).memOk :=
  hm

theorem execKeyRotationStart_memOk (t) {s : State} (hm : s.memOk) : Ends (execKeyRotationStart t s) := by
  grind [execKeyRotationStart, hostWrite_memOk, upRot_memOk, ends_next, State.memOk]

theorem execKeyRotationEnd_memOk (t) {s : State} (hm : s.memOk) : Ends (execKeyRotationEnd t s) := by
  grind [execKeyRotationEnd, onCores_memOk, raise_memOk, upRot_memOk, ends_next, State.memOk]

theorem scrubLine_memOk {s : State} (hm : s.memOk) (line) : Memory.wf (State.scrubLine s line).cells = true := by
  grind [State.scrubLine, State.memOk]

theorem scrubMem_memOk {s : State} (hm : s.memOk) (e) : Memory.wf (State.scrubMem s e).cells = true :=
  hm

theorem scrubNext_memOk {s : State} (hm : s.memOk) (e) : (State.scrubNext s e).memOk := by
  grind [State.scrubNext, raise_memOk, scrubAt_memOk, startScrubSweep_memOk, settleTids_memOk, State.memOk]

theorem execScrubExtentDone_memOk {s : State} (hm : s.memOk) : Ends (execScrubExtentDone s) := by
  grind [execScrubExtentDone, dropWatchers_memOk, scrubMem_memOk, scrubNext_memOk, ends_next, State.memOk]

theorem scrubEarly_memOk {s : State} (hm : s.memOk) (line) : (State.scrubEarly s line).memOk := by
  grind [State.scrubEarly, scrubLine_memOk, State.memOk]

theorem scrubNextLine_memOk {s : State} (hm : s.memOk) : (State.scrubNextLine s).memOk := by
  grind [State.scrubNextLine, scrubLine_memOk, State.memOk]

theorem sweepSlot_memOk {s : State} (hm : s.memOk) (p) : (State.sweepSlot s p).memOk := by
  grind [State.sweepSlot, rotateLine_memOk, patrolStack_memOk, moveLine_memOk, scrubEarly_memOk, scrubNextLine_memOk]

theorem execCalendarSlot_memOk (p) (k) {s : State} (hm : s.memOk) : Ends (execCalendarSlot p k s) := by
  grind [execCalendarSlot, slotBurst_memOk, hostServe_memOk, sweepSlot_memOk, ends_next]

theorem execBankPatrol_memOk (u) (bad) {s : State} (hm : s.memOk) : Ends (execBankPatrol u bad s) := by
  grind [execBankPatrol, mark_memOk, logRec_memOk, ends_next, State.memOk, foldl_memOk]

theorem loseOn_memOk {s : State} (hm : s.memOk) (c) : (State.loseOn s c).memOk := by
  grind [State.loseOn, on_memOk, loseOwn_memOk]

theorem execSoftError_memOk (x) {s : State} (hm : s.memOk) : Ends (execSoftError x s) := by
  grind [execSoftError, setCoreAt_memOk, on_memOk, logRec_memOk, loseContext_memOk, rollBack_memOk,
    packageReset_memOk, loseOn_memOk, ends_next, State.memOk, foldl_memOk]

/-! ### Canonical memory: Hoop -/

theorem upPort_memOk {s : State} (hm : s.memOk) (p) (f) : (State.upPort s p f).memOk :=
  hm

theorem killReqs_memOk {s : State} (hm : s.memOk) (p) : (State.killReqs s p).memOk :=
  hm

theorem ackPosted_memOk {s : State} (hm : s.memOk) (r) (code) : (State.ackPosted s r code).memOk := by
  grind [State.ackPosted, loseContext_memOk, refusedRec_memOk, onAll_memOk]

theorem settlePosted_memOk {s : State} (hm : s.memOk) : (State.settlePosted s).memOk := by
  grind [State.settlePosted, ackPosted_memOk, State.memOk, foldl_memOk]

theorem peerDead_memOk {s : State} (hm : s.memOk) (pkg) (key) : (State.peerDead s pkg key).memOk := by
  grind [State.peerDead, dropWatchers_memOk, killReqs_memOk, settlePosted_memOk, State.memOk]

theorem packageDead_memOk {s : State} (hm : s.memOk) (pkg) : (State.packageDead s pkg).memOk := by
  grind [State.packageDead, killReqs_memOk, settlePosted_memOk, peerDead_memOk, State.memOk, foldl_memOk]

theorem portDown_memOk {s : State} (hm : s.memOk) (p) : (State.portDown s p).memOk := by
  grind [State.portDown, upPort_memOk, packageDead_memOk]

theorem execLinkPeerSignal_memOk (p) {s : State} (hm : s.memOk) : Ends (execLinkPeerSignal p s) := by
  grind [execLinkPeerSignal, upPort_memOk, ends_next]

theorem execLinkTrainingDone_memOk (p) (ok) (peer) {s : State} (hm : s.memOk) : Ends
    (execLinkTrainingDone p ok peer s) := by
  grind [execLinkTrainingDone, upPort_memOk, ends_next]

theorem execLinkSignalLoss_memOk (p) {s : State} (hm : s.memOk) : Ends (execLinkSignalLoss p s) := by
  grind [execLinkSignalLoss, portDown_memOk, ends_next]

theorem execAttestTimeout_memOk (p) {s : State} (hm : s.memOk) : Ends (execAttestTimeout p s) := by
  grind [execAttestTimeout, portDown_memOk, ends_next]

theorem execAllow_memOk (p) {s : State} (hm : s.memOk) : Ends (execAllow p s) := by
  grind [execAllow, hostWrite_memOk, upPort_memOk, ends_next, State.memOk]

theorem execDeny_memOk (p) {s : State} (hm : s.memOk) : Ends (execDeny p s) := by
  grind [execDeny, hostWrite_memOk, portDown_memOk, ends_next]

theorem execClose_memOk (p) {s : State} (hm : s.memOk) : Ends (execClose p s) := by
  grind [execClose, hostWrite_memOk, portDown_memOk, ends_next]

theorem execFlitGroupReceive_memOk (p) (tagOk) {s : State} (hm : s.memOk) : Ends (execFlitGroupReceive p tagOk s) := by
  grind [execFlitGroupReceive, logRec_memOk, upPort_memOk, packageDead_memOk, ends_next]

theorem execRankTableWrite_memOk (r) (v) {s : State} (hm : s.memOk) : Ends (execRankTableWrite r v s) := by
  grind [execRankTableWrite, hostWrite_memOk, ends_next, State.memOk]

theorem execAdmissionTableWrite_memOk (i) (v) {s : State} (hm : s.memOk) : Ends (execAdmissionTableWrite i v s) := by
  grind [execAdmissionTableWrite, hostWrite_memOk, ends_next, State.memOk]

theorem servedFor_memOk {s : State} (hm : s.memOk) (t) {f} (hf : ∀ t, t.memOk → Keeps (·.2) (f t)) : Keeps (·.2)
    (State.servedFor s t f) := by
  grind [State.servedFor, keeps_ok, keeps_error, State.memOk]

theorem command_perform_memOk {s : State} (hm : s.memOk) (x) (kind) (via) : Keeps (·.2) (State.perform_ s x kind via)
    := by
  fun_cases State.perform_ s x kind via <;> grind [ordRead_memOk, ordWrite_memOk, translate_memOk, agentAct_memOk,
    keeps_ok, keeps_error, ends_next, State.memOk]

theorem answer_memOk {s : State} (hm : s.memOk) (via) (y) : (State.answer s via y).memOk := by
  fun_cases State.answer s via y <;> grind [emit_memOk, emitFrame_memOk]

theorem acceptFlit_memOk {s : State} (hm : s.memOk) (x) (t) (via) : ∀ u, State.acceptFlit s x t via = .ok u → u.memOk
    := by
  grind [State.acceptFlit, logRec_memOk, servedFor_memOk, command_perform_memOk, answer_memOk, keeps_ok, keeps_error]

theorem circulate_memOk {s : State} (hm : s.memOk) (p) (x) : (State.circulate s p x).memOk := by
  grind [State.circulate, emitAt_memOk]

theorem refuseFlit_memOk {s : State} (hm : s.memOk) (p) (x) : (State.refuseFlit s p x).memOk := by
  grind [State.refuseFlit, circulate_memOk, State.memOk]

theorem requestFlit_memOk {s : State} (hm : s.memOk) (p) (x) (t) : (s.requestFlit p x t).memOk := by
  have free : ({ s with links := { s.links with refusals := s.links.withoutPair x } } : State).memOk := hm
  grind [State.requestFlit, circulate_memOk, refuseFlit_memOk, noteHeld_memOk, acceptFlit_memOk]

theorem responseFlit_memOk {s : State} (hm : s.memOk) (x) : (State.responseFlit s x).memOk := by
  grind [State.responseFlit, settlePosted_memOk, State.memOk]

theorem dropFlit_memOk {s : State} (hm : s.memOk) (x) (via) : (State.dropFlit s x via).memOk := by
  grind [State.dropFlit, answer_memOk, responseFlit_memOk, State.memOk]

theorem returnedFlit_memOk {s : State} (hm : s.memOk) (x) : (State.returnedFlit s x).memOk :=
  hm

theorem takeFlit_memOk {s : State} (hm : s.memOk) (p) (x) (t) : (State.takeFlit s p x t).memOk := by
  grind [State.takeFlit, emitAt_memOk, requestFlit_memOk, responseFlit_memOk, returnedFlit_memOk]

theorem execFlitReceive_memOk (p) (x) {s : State} (hm : s.memOk) : Ends (execFlitReceive p x s) := by
  grind [execFlitReceive, upPort_memOk, dropFlit_memOk, takeFlit_memOk, ends_next]

theorem execRequestRetry_memOk (i) {s : State} (hm : s.memOk) : Ends (execRequestRetry i s) := by
  grind [execRequestRetry, emitAt_memOk, ends_next, State.memOk, foldl_memOk]

theorem execRemoteWriteAck_memOk (c) (i) (code) {s : State} (hm : s.memOk) : Ends (execRemoteWriteAck c i code s) := by
  grind [execRemoteWriteAck, ackPosted_memOk, ends_next, State.memOk]

theorem execDeadContextNotice_memOk (pkg) (pkey) {s : State} (hm : s.memOk) : Ends (execDeadContextNotice pkg pkey s)
    := by
  grind [execDeadContextNotice, peerDead_memOk, ends_next]

theorem endpointDown_memOk {s : State} (hm : s.memOk) (e) : (State.endpointDown s e).memOk := by
  grind [State.endpointDown, upEndpoint_memOk, killReqs_memOk, settlePosted_memOk, State.memOk]

theorem execEndpointUnreachable_memOk (e) {s : State} (hm : s.memOk) : Ends (execEndpointUnreachable e s) := by
  grind [execEndpointUnreachable, endpointDown_memOk, ends_next]

theorem execRetransmissionTimeout_memOk (e) {s : State} (hm : s.memOk) : Ends (execRetransmissionTimeout e s) := by
  grind [execRetransmissionTimeout, upEndpoint_memOk, endpointDown_memOk, ends_next, State.memOk]

theorem takeOp_memOk {s : State} (hm : s.memOk) (e) (x) : ∀ u, State.takeOp s e x = .ok u → u.memOk := by
  grind [State.takeOp, acceptFlit_memOk, responseFlit_memOk, dropFlit_memOk]

theorem execScaleOutFrameReceive_memOk (port x) {s : State} (hm : s.memOk) : Ends (execScaleOutFrameReceive port x s)
    := by
  unfold execScaleOutFrameReceive
  split
  · exact hm
  · extract_lets e
    match x.body with
    | .pause _ _ => exact hm
    | .ack q => exact upEndpoint_memOk hm _ _
    | .op f =>
      dsimp only
      split
      · exact hm
      · split
        · next t taken =>
          refine takeOp_memOk ?_ _ _ _ taken
          exact hm
        · exact noteHeld_memOk hm _ _ _

theorem arrivalTurn_memOk {s : State} (hm : s.memOk) (i) : (State.arrivalTurn s i).memOk := by
  grind [State.arrivalTurn, arriveAt_memOk, State.memOk]

theorem addTurn_memOk {s : State} (hm : s.memOk) (i) : (State.addTurn s i).memOk := by
  fun_cases State.addTurn s i <;> grind [noteHeld_memOk, ordRead_memOk, ordWrite_memOk, answer_memOk, keeps_ok,
    keeps_error, State.memOk]

theorem execBarrierArrive_memOk (i) {s : State} (hm : s.memOk) : Ends (execBarrierArrive i s) := by
  grind [execBarrierArrive, arrivalTurn_memOk, ends_next]

theorem execRemoteCounterAdd_memOk (i) {s : State} (hm : s.memOk) : Ends (execRemoteCounterAdd i s) := by
  grind [execRemoteCounterAdd, addTurn_memOk, ends_next]

/-! ### Canonical memory: DebugPort -/

theorem dbgErr_memOk {s : State} (hm : s.memOk) : (State.dbgErr s).memOk :=
  hm

theorem dbgCommand_memOk {s : State} (hm : s.memOk) (c) {f} (hf : ∀ t, t.memOk → (f t).memOk) : Ends
    (State.dbgCommand s c f) := by
  grind [State.dbgCommand, dbgErr_memOk, ends_next, State.memOk]

theorem execDbgStop_memOk (c) {s : State} (hm : s.memOk) : Ends (execDbgStop c s) := by
  grind [execDbgStop, setCoreAt_memOk, dbgErr_memOk, dbgCommand_memOk]

theorem onStopped_memOk {s : State} (hm : s.memOk) (c) (f) : (State.onStopped s c f).memOk := by
  grind [State.onStopped, setCoreAt_memOk, dbgErr_memOk]

theorem execDbgResume_memOk (c) {s : State} (hm : s.memOk) : Ends (execDbgResume c s) := by
  grind [execDbgResume, dbgCommand_memOk, onStopped_memOk]

theorem execDbgStep_memOk (c) {s : State} (hm : s.memOk) : Ends (execDbgStep c s) := by
  grind [execDbgStep, dbgCommand_memOk, onStopped_memOk]

theorem execDbgLog_memOk (c) (e) {s : State} (hm : s.memOk) : Ends (execDbgLog c e s) := by
  grind [execDbgLog, setCoreAt_memOk, dbgErr_memOk, dbgCommand_memOk, State.memOk]

theorem execDbgLogoff_memOk (c) (e) {s : State} (hm : s.memOk) : Ends (execDbgLogoff c e s) := by
  grind [execDbgLogoff, setCoreAt_memOk, dbgCommand_memOk]

theorem execDbgReplay_memOk (c) (e) {s : State} (hm : s.memOk) : Ends (execDbgReplay c e s) := by
  grind [execDbgReplay, dbgErr_memOk, dbgCommand_memOk, State.memOk]

theorem setDbgItem_memOk {s : State} (hm : s.memOk) (reg) (v) : (State.setDbgItem s reg v).memOk := by
  grind [State.setDbgItem, upRegs_memOk, platformWrite_memOk, upArrays_memOk]

theorem execDebugDataRead_memOk {s : State} (hm : s.memOk) : Ends (execDebugDataRead s) := by
  grind [execDebugDataRead, dbgErr_memOk, ends_next, State.memOk]

theorem execDebugDataWrite_memOk (v) {s : State} (hm : s.memOk) : Ends (execDebugDataWrite v s) := by
  grind [execDebugDataWrite, on_memOk, dbgErr_memOk, setDbgItem_memOk, ends_next]

theorem execTraceEnable_memOk (v) {s : State} (hm : s.memOk) : Ends (execTraceEnable v s) := by
  grind [execTraceEnable, dbgErr_memOk, ends_next, State.memOk]

theorem replayCmd_memOk {s : State} (hm : s.memOk) (e) (sub) (x) : ∀ u ∈ State.replayCmd s e sub x, u.memOk := by
  grind [State.replayCmd, upCore_memOk, upTable_memOk, runCmdFor_memOk]

theorem replayAll_memOk {s : State} (hm : s.memOk) (e) (x3) : ∀ u ∈ State.replayAll s e x3, u.memOk := by
  fun_induction State.replayAll s e x3 <;> grind [replayCmd_memOk]

theorem replay_memOk {s : State} (hm : s.memOk) (n) (e) : ∀ u ∈ State.replay s n e, u.memOk := by
  simp only [State.replay, Option.mem_def, Option.map_eq_some_iff]
  rintro u ⟨t, ran, rfl⟩
  have focused : ({ s.focus n with dbg := { (s.focus n).dbg with err := false } } : State).memOk := focus_memOk hm n
  exact focus_memOk (upCore_memOk (replayAll_memOk focused _ _ t ran) _) _

theorem execDebugReplayDone_memOk (c) {s : State} (hm : s.memOk) : Ends (execDebugReplayDone c s) := by
  unfold execDebugReplayDone
  cases s.dbg.replaying with
  | none => exact hm
  | some p =>
    dsimp only
    split
    · exact hm
    · cases replayed : s.replay c p.2 with
      | none => exact hm
      | some t => exact replay_memOk hm _ _ t replayed

/-! ### Canonical memory: MatrixIssue -/

theorem issueMul_memOk {s : State} (hm : s.memOk) (i) (o) (cplx) : Keeps id (State.issueMul s i o cplx) := by
  grind [State.issueMul, checks_memOk, issueMatrix_memOk, chkLm_keeps, stepKeeps_ok, chk_keeps, stepKeeps_ok, keeps_ok]

theorem execMmul_memOk (o) {s : State} (hm : s.memOk) : Ends (execMmul o s) := by
  grind [execMmul, retire_memOk, issueMul_memOk]

theorem execMmulc_memOk (o) {s : State} (hm : s.memOk) : Ends (execMmulc o s) := by
  grind [execMmulc, retire_memOk, issueMul_memOk]

/-! ### Canonical memory: Dispatch -/

theorem exec_memOk (i) {s : State} (hm : s.memOk) : Ends (exec i s) := by
  cases i with
  | keyUpdate _ | budgetPeriodStart _ | qset _ | qand _ | qor _ | qnot _ | nop _ =>
    exact hm
  | add _ | sub _ | mul _ | mulhs _ | mulhu _ | and _ | or _ | xor _ | andn _ | shl _ | shrl _ | shra _ | rotl _
  | min _ | max _ | minu _ | maxu _ | cmpeq _ | cmplt _ | cmpltu _ | clz _ | ctz _ | popc _ | bext _ | bins _
  | sel _ _ | ktest _ | kstat _ =>
    exact (alu_memOk hm ..)
  | divs _ | divu _ | rems _ | remu _ =>
    exact (aluFlags_memOk hm ..)
  | addi _ | andi _ | ori _ | xori _ | cmpeqi _ | cmplti _ | shli _ | shrli _ | shrai _ =>
    exact (aluI_memOk hm ..)
  | fadd _ _ | fsub _ _ | fmul _ _ | ffma _ _ | fdiv _ _ | fsqrt _ _ | fmin _ _ | fmax _ _ | faddFp64 _ _
  | fsubFp64 _ _ | fmulFp64 _ _ | ffmaFp64 _ _ | fdivFp64 _ _ | fsqrtFp64 _ _ | fminFp64 _ _ | fmaxFp64 _ _ =>
    exact (fpWrite_memOk hm ..)
  | fcmp _ _ | fcmpFp64 _ _ =>
    exact (fpCompare_memOk hm ..)
  | fcvt _ _ | fcvtFp64 _ _ =>
    exact (fpConvert_memOk hm ..)
  | br _ =>
    exact (branch_memOk hm true _)
  | brEqz _ | brNez _ | brLtz _ | brGez _ | brGtz _ | brLez _ | brQ _ | brNq _ =>
    exact (branch_memOk hm ..)
  | loopInit _ _ | loopspInit _ _ =>
    exact (loopStart_memOk hm ..)
  | loop _ _ =>
    exact (retire_memOk (backEdge_memOk hm ..))
  | loopsp _ _ =>
    exact (retire_memOk (backEdgePipe_memOk hm ..))
  | brk _ =>
    exact (trapEntry_memOk hm ..)
  | syscall _ =>
    exact (trapNext_memOk hm ..)
  | ld _ =>
    exact (retire_memOk (load_memOk hm ..))
  | st _ =>
    exact (retire_memOk (store_memOk hm ..))
  | hdrop _ =>
    exact (dropHandle_memOk hm ..)
  | atomAdd _ _ _ | atomAnd _ _ _ | atomOr _ _ _ | atomXor _ _ _ | atomMin _ _ _ | atomMax _ _ _ | atomMinu _ _ _
  | atomMaxu _ _ _ | atomSwap _ _ _ | atomCas _ _ _ | atomFadd _ _ _ | atom2Swap _ _ _ | atom2Cas _ _ _ =>
    exact (retire_memOk (atomic_memOk hm ..))
  | kwait _ | kwaitAll _ =>
    exact (retire_memOk (tokenWait_memOk hm ..))
  | kstatClr _ =>
    exact (alu_memOk (clearTok_memOk hm ..) ..)
  | waitg _ | waitgAll _ =>
    exact (retire_memOk (groupWait_memOk hm ..))
  | vld _ | vlds _ =>
    exact (vecMem_memOk hm ..)
  | vst _ | vsts _ =>
    exact (vecStore_memOk hm ..)
  | vadd _ | vsub _ | vmul _ | vmin _ | vmax _ =>
    exact (vec2_memOk hm ..)
  | vfma _ | vfms _ =>
    exact (vec3_memOk hm ..)
  | vabs _ | vneg _ | vscan _ =>
    exact (vec1_memOk hm ..)
  | vand _ | vor _ | vxor _ | vsel _ =>
    exact (vecEq_memOk hm ..)
  | vshl _ | vshr _ | vshrA _ =>
    exact (vecShift_memOk hm ..)
  | vcmpEq _ | vcmpNe _ | vcmpLt _ | vcmpLe _ | vcmpGt _ | vcmpGe _ =>
    exact (vecCmp_memOk hm ..)
  | vreds _ | vredmMax _ | vredmMin _ =>
    exact (vecRed_memOk hm ..)
  | vslideUp _ | vslideDn _ =>
    exact (vecSlide_memOk hm ..)
  | vlog2 _ | vrcp _ | vrsq _ | vcos _ | vtanh _ | vsig _ =>
    exact (vecFn_memOk hm ..)
  | mswap _ | mzero _ | mretFree _ =>
    exact (retire_memOk (issueMatrix_memOk hm ..))
  | plclr _ | plswap _ =>
    exact (retire_memOk (issue_memOk hm ..))
  | plload _ | plqr _ | plsolve _ | pldrain _ | pldrainLm _ | plapply _ | plvec _ =>
    exact (retire_memOk (issuePlait_memOk hm ..))
  | plapplySw _ | plrot _ =>
    exact (retire_memOk (issuePairs_memOk hm ..))
  | packageReset => exact execPackageReset_memOk hm
  | trustCoreWatchdog => exact execTrustCoreWatchdog_memOk hm
  | firmwareVerified => exact execFirmwareVerified_memOk hm
  | hbmTrainingDone trained => exact execHbmTrainingDone_memOk trained hm
  | hostLinkConfigReady => exact execHostLinkConfigReady_memOk hm
  | functionLevelReset f => exact execFunctionLevelReset_memOk f hm
  | powerTrip => exact execPowerTrip_memOk hm
  | ideFailure f => exact execIdeFailure_memOk f hm
  | status f => exact execStatus_memOk f hm
  | reset f => exact execReset_memOk f hm
  | fwLoad f => exact execFwLoad_memOk f hm
  | debugNonce f => exact execDebugNonce_memOk f hm
  | debugUnlock f => exact execDebugUnlock_memOk f hm
  | lifecycleAdvance f => exact execLifecycleAdvance_memOk f hm
  | lifecycleTransition => exact execLifecycleTransition_memOk hm
  | ctxCreate f sess => exact execCtxCreate_memOk f sess hm
  | ctxEnd f sess => exact execCtxEnd_memOk f sess hm
  | handleMint f sess => exact execHandleMint_memOk f sess hm
  | handleRevoke f sess => exact execHandleRevoke_memOk f sess hm
  | handleRead f sess => exact execHandleRead_memOk f sess hm
  | getVersion f => exact execGetVersion_memOk f hm
  | getCapabilities f => exact execGetCapabilities_memOk f hm
  | negotiateAlgorithms f => exact execNegotiateAlgorithms_memOk f hm
  | getDigests f => exact execGetDigests_memOk f hm
  | getCertificate f => exact execGetCertificate_memOk f hm
  | challenge f => exact execChallenge_memOk f hm
  | getMeasurements f => exact execGetMeasurements_memOk f hm
  | keyExchange f => exact execKeyExchange_memOk f hm
  | finish f => exact execFinish_memOk f hm
  | endSession f => exact execEndSession_memOk f hm
  | ideKm f => exact execIdeKm_memOk f hm
  | lockInterfaceRequest f => exact execLockInterfaceRequest_memOk f hm
  | startInterfaceRequest f sess => exact execStartInterfaceRequest_memOk f sess hm
  | stopInterfaceRequest f => exact execStopInterfaceRequest_memOk f hm
  | stopInterfaceComplete f => exact execStopInterfaceComplete_memOk f hm
  | launchSubmit f tail => exact execLaunchSubmit_memOk f tail hm
  | launchTake p => exact execLaunchTake_memOk p hm
  | clusterGroupBind l => exact execClusterGroupBind_memOk l hm
  | strandGenerate l => exact execStrandGenerate_memOk l hm
  | strandDispatch c => exact execStrandDispatch_memOk c hm
  | gangReserve l => exact execGangReserve_memOk l hm
  | gangStart l => exact execGangStart_memOk l hm
  | sliceEnd c => exact execSliceEnd_memOk c hm
  | budgetExhausted f => exact execBudgetExhausted_memOk f hm
  | watchWake xi => exact execWatchWake_memOk xi hm
  | stealRequestArrive xi => exact execStealRequestArrive_memOk xi hm
  | stealGrantArrive xi => exact execStealGrantArrive_memOk xi hm
  | exchangeStepIssue l k => exact execExchangeStepIssue_memOk l k hm
  | sstepRelease l => exact execSstepRelease_memOk l hm
  | launchComplete l => exact execLaunchComplete_memOk l hm
  | completionRecordWrite f => exact execCompletionRecordWrite_memOk f hm
  | ptCommit => exact execPtCommit_memOk hm
  | calendarGo => exact execCalendarGo_memOk hm
  | calendarPost => exact execCalendarPost_memOk hm
  | calendarInstall => exact execCalendarInstall_memOk hm
  | patChange v => exact execPatChange_memOk v hm
  | xlinv v => exact execXlinv_memOk v hm
  | xlinvComplete => exact execXlinvComplete_memOk hm
  | walkApertureWrite off bytes => exact execWalkApertureWrite_memOk off bytes hm
  | pageRequestClose e => exact execPageRequestClose_memOk e hm
  | pageRequestRefuse e => exact execPageRequestRefuse_memOk e hm
  | functionEvict f => exact execFunctionEvict_memOk f hm
  | evictionDone f => exact execEvictionDone_memOk f hm
  | functionResume f => exact execFunctionResume_memOk f hm
  | saveAreaCheck t => exact execSaveAreaCheck_memOk t hm
  | swcap v => exact execSwcap_memOk v hm
  | swret v => exact execSwret_memOk v hm
  | granuleMoveComplete => exact execGranuleMoveComplete_memOk hm
  | stagingBlockMove => exact execStagingBlockMove_memOk hm
  | retirementEnd => exact execRetirementEnd_memOk hm
  | keyRotationStart t => exact execKeyRotationStart_memOk t hm
  | keyRotationEnd t => exact execKeyRotationEnd_memOk t hm
  | revocationEnd => exact execRevocationEnd_memOk hm
  | scrubExtentDone => exact execScrubExtentDone_memOk hm
  | calendarSlot p k => exact execCalendarSlot_memOk p k hm
  | refreshForced p k => exact execRefreshForced_memOk p k hm
  | bankPatrol u bad => exact execBankPatrol_memOk u bad hm
  | linkPeerSignal p => exact execLinkPeerSignal_memOk p hm
  | linkTrainingDone p ok peer => exact execLinkTrainingDone_memOk p ok peer hm
  | linkSignalLoss p => exact execLinkSignalLoss_memOk p hm
  | attestTimeout p => exact execAttestTimeout_memOk p hm
  | allow p => exact execAllow_memOk p hm
  | deny p => exact execDeny_memOk p hm
  | close p => exact execClose_memOk p hm
  | flitGroupReceive p tagOk => exact execFlitGroupReceive_memOk p tagOk hm
  | flitReceive p x => exact execFlitReceive_memOk p x hm
  | requestRetry xi => exact execRequestRetry_memOk xi hm
  | remoteWriteAck c xi code => exact execRemoteWriteAck_memOk c xi code hm
  | deadContextNotice pkg pkey => exact execDeadContextNotice_memOk pkg pkey hm
  | endpointUnreachable e => exact execEndpointUnreachable_memOk e hm
  | preemptPointReached c => exact execPreemptPointReached_memOk c hm
  | preemptSaveComplete c => exact execPreemptSaveComplete_memOk c hm
  | preemptDeadline c => exact execPreemptDeadline_memOk c hm
  | watchdog c => exact execWatchdog_memOk c hm
  | softError x => exact execSoftError_memOk x hm
  | barrierArrive xi => exact execBarrierArrive_memOk xi hm
  | remoteCounterAdd xi => exact execRemoteCounterAdd_memOk xi hm
  | vectorExecute c => exact execVectorExecute_memOk c hm
  | matrixExecute c => exact execMatrixExecute_memOk c hm
  | plaitExecute c => exact execPlaitExecute_memOk c hm
  | copyStart c => exact execCopyStart_memOk c hm
  | copyComplete c xi => exact execCopyComplete_memOk c xi hm
  | dbgStop c => exact execDbgStop_memOk c hm
  | dbgResume c => exact execDbgResume_memOk c hm
  | dbgStep c => exact execDbgStep_memOk c hm
  | dbgLog c e => exact execDbgLog_memOk c e hm
  | dbgReplay c e => exact execDbgReplay_memOk c e hm
  | dbgLogoff c e => exact execDbgLogoff_memOk c e hm
  | debugDataWrite v => exact execDebugDataWrite_memOk v hm
  | debugDataRead => exact execDebugDataRead_memOk hm
  | traceEnable v => exact execTraceEnable_memOk v hm
  | pmevtWrite f xi v => exact execPmevtWrite_memOk f xi v hm
  | rankTableWrite r v => exact execRankTableWrite_memOk r v hm
  | admissionTableWrite xi v => exact execAdmissionTableWrite_memOk xi v hm
  | registerWrite f off v => exact execRegisterWrite_memOk f off v hm
  | jmp o => exact execJmp_memOk o hm
  | call o => exact execCall_memOk o hm
  | ret o => exact execRet_memOk o hm
  | exit o => exact execExit_memOk o hm
  | trapf o => exact execTrapf_memOk o hm
  | rgn o => exact execRgn_memOk o hm
  | suspend sc o => exact execSuspend_memOk sc o hm
  | suspendYield sc o => exact execSuspendYield_memOk sc o hm
  | watch sc o => exact execWatch_memOk sc o hm
  | spawn o => exact execSpawn_memOk o hm
  | launch o => exact execLaunch_memOk o hm
  | splitchk o => exact execSplitchk_memOk o hm
  | sstep o => exact execSstep_memOk o hm
  | csrrd o => exact execCsrrd_memOk o hm
  | csrwr o => exact execCsrwr_memOk o hm
  | csrset o => exact execCsrset_memOk o hm
  | csrclr o => exact execCsrclr_memOk o hm
  | hload o => exact execHload_memOk o hm
  | hquery o => exact execHquery_memOk o hm
  | acq sc o => exact execAcq_memOk sc o hm
  | rel sc o => exact execRel_memOk sc o hm
  | relK sc o => exact execRelK_memOk sc o hm
  | fence sc o => exact execFence_memOk sc o hm
  | binit o => exact execBinit_memOk o hm
  | barrive o => exact execBarrive_memOk o hm
  | bwait o => exact execBwait_memOk o hm
  | btest o => exact execBtest_memOk o hm
  | commit o => exact execCommit_memOk o hm
  | tblstart e o => exact execTblstart_memOk e o hm
  | tblstop e o => exact execTblstop_memOk e o hm
  | tblbase e o => exact execTblbase_memOk e o hm
  | eret o => exact execEret_memOk o hm
  | halt o => exact execHalt_memOk o hm
  | icinv o => exact execIcinv_memOk o hm
  | codepatch o => exact execCodepatch_memOk o hm
  | dbgstop o => exact execDbgstop_memOk o hm
  | vgath o => exact execVgath_memOk o hm
  | vscat o => exact execVscat_memOk o hm
  | vmov o => exact execVmov_memOk o hm
  | vbcast o => exact execVbcast_memOk o hm
  | vextr o => exact execVextr_memOk o hm
  | vins o => exact execVins_memOk o hm
  | vnot o => exact execVnot_memOk o hm
  | vcvt o => exact execVcvt_memOk o hm
  | vcvtBs o => exact execVcvtBs_memOk o hm
  | vscale o => exact execVscale_memOk o hm
  | vperm o => exact execVperm_memOk o hm
  | vzip o => exact execVzip_memOk o hm
  | vunzip o => exact execVunzip_memOk o hm
  | viota o => exact execViota_memOk o hm
  | vexp2 o => exact execVexp2_memOk o hm
  | vsin o => exact execVsin_memOk o hm
  | mand o => exact execMand_memOk o hm
  | mor o => exact execMor_memOk o hm
  | mnot o => exact execMnot_memOk o hm
  | mpop o => exact execMpop_memOk o hm
  | vchain o => exact execVchain_memOk o hm
  | mcfg o => exact execMcfg_memOk o hm
  | mldw o => exact execMldw_memOk o hm
  | mmul o => exact execMmul_memOk o hm
  | mmulc o => exact execMmulc_memOk o hm
  | mlda o => exact execMlda_memOk o hm
  | mret o => exact execMret_memOk o hm
  | tableEnd e m => exact execTableEnd_memOk e m hm
  | tableSeta e m => exact execTableSeta_memOk e m hm
  | tableAdda e m => exact execTableAdda_memOk e m hm
  | wrow m => exact execWrow_memOk m hm
  | arow m => exact execArow_memOk m hm
  | tableSwap m => exact execTableSwap_memOk m hm
  | ztile m => exact execZtile_memOk m hm
  | tableSetl e m => exact execTableSetl_memOk e m hm
  | tableBack e m => exact execTableBack_memOk e m hm
  | prow m => exact execProw_memOk m hm
  | papp m => exact execPapp_memOk m hm
  | seth m => exact execSeth_memOk m hm
  | move m => exact execMove_memOk m hm
  | dect m => exact execDect_memOk m hm
  | cpy o => exact execCpy_memOk o hm
  | cpym o => exact execCpym_memOk o hm
  | cpg o => exact execCpg_memOk o hm
  | cps o => exact execCps_memOk o hm
  | cpredAdd o => exact execCpredAdd_memOk o hm
  | cpredMin o => exact execCpredMin_memOk o hm
  | cpredMax o => exact execCpredMax_memOk o hm
  | cpdec o => exact execCpdec_memOk o hm
  | cpfill o => exact execCpfill_memOk o hm
  | cpremPut o => exact execCpremPut_memOk o hm
  | cpremGet o => exact execCpremGet_memOk o hm
  | cpagentCas128 o => exact execCpagentCas128_memOk o hm
  | cpagentCas256 o => exact execCpagentCas256_memOk o hm
  | cpagentEnq o => exact execCpagentEnq_memOk o hm
  | cpagentChase o => exact execCpagentChase_memOk o hm
  | bmupdAdd o => exact execBmupdAdd_memOk o hm
  | bmupdMul o => exact execBmupdMul_memOk o hm
  | bmupdMin o => exact execBmupdMin_memOk o hm
  | bmupdMax o => exact execBmupdMax_memOk o hm
  | bmupdFma o => exact execBmupdFma_memOk o hm
  | bmupdSet o => exact execBmupdSet_memOk o hm
  | hostMemoryAccess f pa wr => exact execHostMemoryAccess_memOk f pa wr hm
  | scaleOutFrameReceive port x => exact execScaleOutFrameReceive_memOk port x hm
  | retransmissionTimeout e => exact execRetransmissionTimeout_memOk e hm
  | ptCommitDone => exact execPtCommitDone_memOk hm
  | patChangeDone => exact execPatChangeDone_memOk hm
  | saveAreaCheckDone t => exact execSaveAreaCheckDone_memOk t hm
  | debugReplayDone c => exact execDebugReplayDone_memOk c hm

/-! ### Canonical memory: Fetch -/

theorem codeLine_memOk {s : State} (hm : s.memOk) (c) (line) (info) : Keeps (·.2) (State.codeLine s c line info) := by
  grind [State.codeLine, upCore_memOk, ordRead_memOk, translate_memOk, keeps_ok, keeps_error]

theorem fetchWord_memOk {s : State} (hm : s.memOk) (c) (i) : Keeps (·.2) (State.fetchWord s c i) := by
  grind [State.fetchWord, codeLine_memOk, keeps_ok, keeps_error]

theorem readInstr_memOk (c) (x2) {x3 : State} (hm : x3.memOk) (x4) : Keeps (·.2.2) (State.readInstr c x2 x3 x4) := by
  fun_induction State.readInstr c x2 x3 x4 <;> grind [fetchWord_memOk, keeps_ok, keeps_error]

theorem fetch_memOk {s : State} (hm : s.memOk) : Keeps (·.2) (State.fetch s) := by
  grind [State.fetch, readInstr_memOk, keeps_ok, keeps_error]

/-! ### Canonical memory: Turn -/

theorem heldFor_memOk {s : State} (hm : s.memOk) (c) (n) : (State.heldFor s c n).memOk := by
  grind [State.heldFor, upFn_memOk]

theorem tick_memOk {s : State} (hm : s.memOk) : (State.tick s).memOk := by
  grind [State.tick, heldFor_memOk, State.memOk, foldl_memOk]

theorem engineTurn?_memOk {s : State} (hm : s.memOk) : ∀ u ∈ s.engineTurn?, u.memOk := by
  intro u turned
  simp only [State.engineTurn?, Option.mem_def, Option.or_eq_some_iff] at turned
  rcases turned with asked | ⟨-, ran⟩
  · obtain ⟨e, -, found⟩ := List.exists_of_findSome?_eq_some asked
    obtain ⟨x, -, found⟩ := List.exists_of_findSome?_eq_some found
    exact askCmd_memOk hm _ _ _ found
  · obtain ⟨e, -, found⟩ := List.exists_of_findSome?_eq_some ran
    grind [runCmd_memOk]

theorem engineTurn_memOk {s : State} (hm : s.memOk) : s.engineTurn.memOk := by
  cases h : s.engineTurn? <;> grind [State.engineTurn, engineTurn?_memOk]

theorem haltTurn_memOk {s : State} (hm : s.memOk) (status) : (State.haltTurn s status).memOk := by
  grind [State.haltTurn, noteHeld_memOk, stop_memOk, haltNow_memOk, keeps_ok, keeps_error]

theorem decay_memOk {s : State} (hm : s.memOk) (line) (meta_) : (State.decay s line meta_).memOk := by
  grind [State.decay, mark_memOk, State.memOk]

theorem walkDecay_memOk {s : State} (hm : s.memOk) (line) : (State.walkDecay s line).memOk := by
  grind [State.walkDecay, State.memOk]

theorem counted_memOk {s : State} (hm : s.memOk) {r} (hr : Ends r) : Ends (counted s r) := by
  fun_cases counted s r <;> grind [ends_next, orStalls_memOk, countFor_memOk]

/-- Canonical memory stays so in the state of a turn, if it has one. -/
def TurnKeeps : Turn → Prop
  | .off => True
  | .act t | .event _ t | .run _ t => t.memOk

theorem fetchTurn_memOk {s : State} (hm : s.memOk) : TurnKeeps s.fetchTurn := by
  fun_cases State.fetchTurn s <;> grind [TurnKeeps, runEngine_memOk, fetch_memOk, upCore_memOk, orStalls_memOk,
    fetchStop_memOk, keeps_ok, keeps_error]

theorem coreTurn_memOk {s : State} (hm : s.memOk) : TurnKeeps s.coreTurn := by
  have turned := engineTurn?_memOk hm
  have asked := askAgain_memOk hm
  have halted (st : Nat) := haltTurn_memOk hm st
  cases h : s.engineTurn? <;> cases k : s.askAgain <;>
    fun_cases State.coreTurn s <;> grind [TurnKeeps, engineTurn_memOk, orHeld_memOk, preemptPoint_memOk,
      fetchTurn_memOk]

theorem ownTurn_memOk {s : State} (hm : s.memOk) : TurnKeeps s.ownTurn := by
  fun_cases State.ownTurn s <;> grind [TurnKeeps, arrivalTurn_memOk, addTurn_memOk, wakeHit_memOk, coreTurn_memOk]

theorem turn_memOk {s : State} (hm : s.memOk) : TurnKeeps s.turn := by
  unfold State.turn
  split
  · split
    · exact ownTurn_memOk (tick_memOk hm)
    · trivial
  · next x l _ =>
    split
    · trivial
    · have ticked : ({ s with inputs := l } : State).tick.memOk := tick_memOk hm
      cases x with
      | event i => exact ticked
      | decay line m => exact decay_memOk ticked _ _
      | walkDecay line => exact walkDecay_memOk ticked _
      | sensors p m i =>
        dsimp only
        split
        · exact powerLost_memOk ticked
        · exact ticked
      | run n => exact coreTurn_memOk (focus_memOk ticked _)
      | unit c e i => exact on_memOk ticked _ fun t ht => unitAct_memOk ht _ _

/-! ### Canonical memory: Step -/

theorem step_memOk {s : State} (hm : s.memOk) : Ends (step s) := by
  have next := turn_memOk hm
  fun_cases step s <;> grind [TurnKeeps, exec_memOk, counted_memOk, Ends]

/-- Settles O47: no step leaves memory that is not canonical. -/
theorem memoryStaysCanonical : Obligations.MemoryStaysCanonical := by
  unfold Obligations.MemoryStaysCanonical
  intro s t wf next
  have ends := step_memOk wf
  rwa [next] at ends

end Sys2Proof.Machine
end

section
/-! Atomics on another package (15 R383, 16 R385): requests are numbered one after the other, but a state may hold two
requests of one number. The atomic sent is then the one with the response, and the request awaited the other. -/

namespace Sys2Proof.Machine

/-- A request with number 0 of the core 0 for 8 bytes at place 0 of rank 0. -/
def requestZero (op : HoopOp) (resp : Option (BitVec 8 × List Byte)) : Req where
  id := 0
  core := 0
  cmd := none
  piece := 0
  op := op
  rank := 0
  ext := false
  addr := 0
  bytes := []
  len := 8
  tries := 0
  returned := false
  posted := false
  resp := resp
  ctx := 0
  pkey := 0
  tenant := 0
  ddie := 0
  dpkg := 0
  endpt := 0
  port := 0

/-- The machine after reset, awaiting request 0: a read without a response stands before an atomic with one. -/
def twoRequests : State :=
  { State.reset.upCore (fun c => { c with remote := some 0 }) with
    links := { State.reset.links with reqs := [requestZero .read none, requestZero .atomic (some (0, []))] } }

/-- ATOM.add of one byte. -/
def byteAtomic : OpM := ⟨0, 0, 0, 0, 0, 0, 0, 0⟩

theorem twoRequests_settled : twoRequests.settled := ⟨rfl, rfl, rfl, rfl⟩

/-- The atomic sent is the second request. -/
theorem twoRequests_sent : twoRequests.sentAtomic = some (requestZero .atomic (some (0, []))) := rfl

/-- The atomic waits for the first one at its instruction. -/
theorem exec_byteAtomic : ∃ t, exec (.atomAdd byteAtomic 0 0) twoRequests = .next t ∧ t.core.remote = some 0 :=
    ⟨_, rfl, rfl⟩

/-- Refutes O27: where two requests share a number, the response of the atomic sent is not the one awaited; the atomic
waits on, where the statement has it complete. -/
theorem not_atomicResults : ¬ Obligations.AtomicResults := by
  unfold Obligations.AtomicResults
  intro ⟨_, _, elsewhere⟩
  obtain ⟨words, -⟩ := elsewhere byteAtomic 0 0 twoRequests twoRequests (twoRequests.ownView 0 0) []
  obtain ⟨-, completes⟩ := words (.atomAdd byteAtomic 0 0, 0) (List.mem_cons_self ..)
  obtain ⟨t, next, -, -, -, -, remote, -⟩ := completes ⟨twoRequests_settled, _, twoRequests_sent, rfl⟩
  obtain ⟨w, waits, awaited⟩ := exec_byteAtomic
  have same : t = w := by
    rw [waits] at next
    cases next
    rfl
  rw [same, awaited] at remote
  cases remote

end Sys2Proof.Machine
end

section
/-! Privileged instructions that a strand's supervisor and a debugger use: ERET, DBGSTOP, ICINV and CODEPATCH (20 R424;
23 R462, R467). -/

namespace Sys2Proof.Machine

/-! ### Privileged instructions -/

/-- In privileged mode a privileged instruction acts. -/
theorem privOnly_privileged {s : State} (privileged : s.core.priv = true) (w : W32) (csr : Nat) (r : Res State) :
    s.privOnly w csr r = retire r := by
  rw [State.privOnly, if_pos privileged]

/-- Settles O17: only in state DEBUG is the mark set before the program counter moves on. -/
theorem debugStop : Obligations.DebugStop := by
  unfold Obligations.DebugStop
  intro o s privileged
  have arm := privOnly_privileged privileged (firstWord (.dbgstop o)) 0
  refine ⟨fun debug => ⟨_, arm _, ?_⟩, fun other => ⟨_, arm _, ?_⟩⟩
  · rw [if_pos debug]
    rfl
  · rw [if_neg other]
    rfl

/-- Settles O15: EPC is admitted, and between the two regions only mode and program counter change. -/
theorem returnFromTrap : Obligations.ReturnFromTrap := by
  unfold Obligations.ReturnFromTrap
  intro o s j privileged empty job aligned inside
  have length : s.launchCodeLength = j.code.length := by rw [State.launchCodeLength, job]
  have admitted : ¬(s.core.epc.toNat % 4 ≠ 0 ∨ s.launchCodeLength < s.core.epc.toNat + 4) := by omega
  have returns : exec (.eret o) s = retire (s.between (fun s => .ok (s.upCore (fun c =>
      { c with priv := false, pc := BitVec.ofNat 48 c.epc.toNat })))) := by
    show s.privOnly _ _ s.returnFromTrap = _
    rw [privOnly_privileged privileged, State.returnFromTrap, if_neg admitted]
  exact gives_drained returns (by rw [empty]; rfl) rfl
    ⟨rfl, rfl, rfl, rfl, rfl, rfl, rfl, rfl, rfl, rfl, rfl, rfl, rfl, rfl⟩

/-! ### Changes of code -/

/-- A write of good lines that has to wait for nothing changes memory alone (R350). -/
theorem ordWrite_writes {s : State} {dom : Nat → Nat} {a : Nat} {bs : List Byte} {info : Word}
    (still : s.writeWaits a bs.length = none) (good : ∀ l ∈ linesOf a bs.length, s.bad dom l = false) :
    ∃ m, s.ordWrite dom a bs info = .ok { s with mem := m } ∧ m.cells = memWrite s.mem.cells a bs := by
  rw [State.ordWrite, still, List.find?_eq_none.mpr (fun l hl => by simp [good l hl])]
  dsimp only
  unfold State.wake
  split
  · exact ⟨_, rfl, rfl⟩
  · obtain ⟨w, e⟩ := wakeBy_only_watchers { s with mem := _ } _
    rw [e]
    exact ⟨_, rfl, rfl⟩

/-- A line of the instruction caches is one of a tenant that holds an address. -/
def ILine.holds (l : ILine) (tenant a : Nat) : Prop := l.tenant = tenant ∧ l.line = a / 64 * 64

/-- A core whose code was dropped holds no line of it (R467). -/
theorem not_holds_of_mem_dropCode {c : Core} {tenant a : Nat} {l : ILine} (mem : l ∈ (c.dropCode tenant a).icache) :
    ¬l.holds tenant a := by
  rintro ⟨owner, line⟩
  have kept := (List.mem_filter.mp mem).2
  simp [owner, line] at kept

/-- The cores within a scope of the acting one (R466), as CodePatch's operand names it. -/
theorem within_scope {s : State} {b n : Nat}
    (scope : b % 4 = 3 ∨ b % 4 = 2 ∧ n / 96 = s.coreId / 96 ∨ b % 4 = 1 ∧ n / 4 = s.coreId / 4) :
    s.within (b % 4) n = true := by
  obtain all | ⟨die, same⟩ | ⟨cluster, same⟩ := scope
  · rw [all]
    rfl
  · rw [die]
    exact beq_iff_eq.mpr same
  · rw [cluster]
    exact beq_iff_eq.mpr same

/-- Code dropped within a scope is dropped on every parked core of it (R467). -/
theorem not_holds_of_parked {s : State} {sc tenant a : Nat} {p : Nat × Core} {l : ILine}
    (parked : p ∈ (s.dropCodeIn sc tenant a).parked) (inside : s.within sc p.1 = true) (mem : l ∈ p.2.icache) :
    ¬l.holds tenant a := by
  obtain ⟨q, -, e⟩ := List.mem_map.mp parked
  split at e
  · subst e
    exact not_holds_of_mem_dropCode mem
  · next outside =>
    subst e
    exact absurd inside outside

/-- The state in which the region after a change of code starts. -/
abbrev State.codeDropped (w : State) (b a n : Nat) (again : Bool) : State :=
  ((w.dropCodeIn (b % 4) w.tenant a).advance n).upCore (fun c => c.reopen again)

/-- A change of code drops the lines of the strand's tenant within the scope of the strand's core. -/
theorem codeDropped_drops {s w : State} (core : w.coreId = s.coreId) (tenant : w.tenant = s.tenant) (b a n : Nat)
    (again : Bool) :
    (∀ l ∈ (w.codeDropped b a n again).core.icache, ¬l.holds s.tenant a) ∧
      ∀ p ∈ (w.codeDropped b a n again).parked,
        (b % 4 = 3 ∨ b % 4 = 2 ∧ p.1 / 96 = s.coreId / 96 ∨ b % 4 = 1 ∧ p.1 / 4 = s.coreId / 4) →
        ∀ l ∈ p.2.icache, ¬l.holds s.tenant a := by
  rw [← core, ← tenant]
  exact ⟨fun l mem => not_holds_of_mem_dropCode (c := w.core) mem,
    fun p parked scope l mem => not_holds_of_parked parked (within_scope scope) mem⟩

/-- A change of code whose handle passes is what it writes, between two regions, and then the code dropped. -/
theorem gives_codePatch {i : Instr} {s u w : State} {o : OpA} {word : Option W32} {v : View} {p : State → Prop}
    (arm : exec i s = retire (s.codePatch o word))
    (read : s.readHandle o.a.toNat ((s.opB o).toNat - (s.opB o).toNat % 4) 4 (if word.isSome then .cwx else .rdx) 0 =
      .ok (v, u))
    (empty : u.core.sbuf = [])
    (writes : ∀ x, word = some x → ∃ a y, u.leftRegion.accessPlace v 2
        (accessInfo ((s.opB o).toNat - (s.opB o).toNat % 4) 0 o.a.toNat) = .ok (a, y) ∧ y.core.lines = [] ∧
        v.local_ = true ∧ y.ordWrite y.domain a (leBytes 4 x.toNat)
          (accessInfo ((s.opB o).toNat - (s.opB o).toNat % 4) 0 o.a.toNat) = .ok w)
    (unwritten : word = none → w = u.leftRegion)
    (hp : p (w.codeDropped (s.opB o).toNat (v.base + ((s.opB o).toNat - (s.opB o).toNat % 4)) o.len u.core.closed)) :
    Gives i s p := by
  refine ⟨_, ?_, hp⟩
  rw [arm, State.codePatch]
  dsimp only
  rw [read]
  dsimp only
  rw [between_nil _ _ empty]
  cases word with
  | none => rw [unwritten rfl]; rfl
  | some x =>
    obtain ⟨a, y, place, clear, here, written⟩ := writes x rfl
    dsimp only
    rw [place]
    dsimp only
    rw [State.dropTarget, dropLines_nil _ _ _ clear, ite_self]
    dsimp only
    rw [if_pos here, written]
    rfl

/-- The low bytes of a number do not depend on those above. -/
theorem leBytes_mod (n v : Nat) : leBytes n (v % 256 ^ n) = leBytes n v := by
  induction n generalizing v with
  | zero => rfl
  | succ n ih =>
    rw [leBytes, leBytes, Nat.pow_succ', Nat.mod_mul_right_div_self, ih]
    congr 1
    apply BitVec.eq_of_toNat_eq
    rw [BitVec.toNat_ofNat, BitVec.toNat_ofNat]
    exact Nat.mod_mul_right_mod v 256 (256 ^ n)

theorem leBytes_setWidth (w : Word) : leBytes 4 (w.setWidth 32).toNat = leBytes 4 w.toNat := by
  rw [BitVec.toNat_setWidth]
  exact leBytes_mod 4 w.toNat

/-- Settles O19: with the store buffer empty the two regions meet at the change, which drops the code after its write.
-/
theorem codeChanges : Obligations.CodeChanges := by
  unfold Obligations.CodeChanges
  intro o s u x v a privileged b off info dropped
  refine ⟨fun read empty => ?_, fun wf read empty clear here placed good => ?_⟩
  · obtain ⟨looks, -⟩ := readHandle_looksUp read
    have core : u.coreId = s.coreId := by obtain ⟨_, _, _, _, _, rfl⟩ := looks; rfl
    have tenant : u.tenant = s.tenant := by obtain ⟨_, _, _, _, _, rfl⟩ := looks; rfl
    have drops := codeDropped_drops (w := u.leftRegion) core tenant b (v.base + off) o.len u.core.closed
    refine gives_codePatch (word := none) (privOnly_privileged privileged _ _ _) read empty (fun _ h => nomatch h)
      (fun _ => rfl) ?_
    exact ⟨drops, rfl, rfl, rfl, rfl, rfl, rfl, rfl, rfl, rfl⟩
  · obtain ⟨looks, at_⟩ := readHandle_looksUp read
    have looks' := viewPlace_looksUp placed
    have clear' : x.leftRegion.core.lines = [] := (congrArg Core.lines looks'.core_eq).trans clear
    have core : x.coreId = s.coreId := by obtain ⟨_, _, _, _, _, rfl⟩ := looks.trans looks'; rfl
    have tenant : x.tenant = s.tenant := by obtain ⟨_, _, _, _, _, rfl⟩ := looks.trans looks'; rfl
    have place : u.leftRegion.accessPlace v 2 info = .ok (a, x.leftRegion) :=
      accessPlace_here here (at_ ▸ viewPlace_leftRegion placed)
    have good : x.leftRegion.writableAt a 4 := by obtain ⟨_, _, _, _, _, rfl⟩ := looks'; exact good
    have length : (leBytes 4 ((s.getS o.d.toNat).setWidth 32).toNat).length = 4 := leBytes_length ..
    obtain ⟨m, written, cells⟩ := ordWrite_writes (dom := x.leftRegion.domain) (info := info) (length.symm ▸ good.2)
      (length.symm ▸ good.1)
    have put : BytesPut u { x.leftRegion with mem := m } a _ := bytesPut_of_cells wf (by
      obtain ⟨_, _, _, _, _, rfl⟩ := looks'
      exact cells)
    rw [BytesPut, leBytes_length, leBytes_setWidth] at put
    have drops := codeDropped_drops (w := { x.leftRegion with mem := m }) core tenant b (v.base + off) o.len
      u.core.closed
    refine gives_codePatch (word := some _) (privOnly_privileged privileged _ _ _) read empty ?_ (fun h => nomatch h)
      (w := { x.leftRegion with mem := m }) ?_
    · intro word named
      cases named
      exact ⟨a, x.leftRegion, place, clear', here, written⟩
    · obtain ⟨_, _, _, _, _, rfl⟩ := looks'
      exact ⟨drops, rfl, rfl, put.1, put.2, rfl, rfl, rfl, rfl, rfl, rfl⟩

end Sys2Proof.Machine
end

section
/-! Waits for tokens, and their status (15 R370 to R372). -/

namespace Sys2Proof.Machine

/-! ### Lists of numbers in rising order -/

theorem mem_insertNum_iff {l : List Nat} {n m : Nat} : m ∈ insertNum l n ↔ m = n ∨ m ∈ l := by
  induction l with
  | nil => simp [insertNum]
  | cons k l ih =>
    unfold insertNum
    split
    · exact List.mem_cons
    · split
      · next same => simp [same]
      · rw [List.mem_cons, ih, List.mem_cons]
        tauto

theorem insertNum_rises {l : List Nat} (rises : l.Pairwise (· < ·)) (n : Nat) : (insertNum l n).Pairwise (· < ·) := by
  induction l with
  | nil => exact List.pairwise_singleton _ n
  | cons k l ih =>
    obtain ⟨first, rest⟩ := List.pairwise_cons.mp rises
    unfold insertNum
    split
    · next low =>
      exact List.pairwise_cons.mpr ⟨List.forall_mem_cons.mpr ⟨low, fun m hm => low.trans (first m hm)⟩, rises⟩
    · split
      · exact rises
      · refine List.pairwise_cons.mpr ⟨fun m hm => ?_, ih rest⟩
        obtain rfl | inside := mem_insertNum_iff.mp hm
        · omega
        · exact first m inside

theorem sort3_rises (a b c : Nat) : (sort3 a b c).Pairwise (· < ·) :=
  insertNum_rises (insertNum_rises (insertNum_rises .nil a) b) c

theorem mem_sort3 {a b c n : Nat} : n ∈ sort3 a b c ↔ n ∈ [a, b, c] := by
  simp only [sort3, mem_insertNum_iff, List.mem_cons, List.not_mem_nil, or_false]
  tauto

/-- In a rising list the first number that meets a condition is the lowest. -/
theorem find?_lowest {l : List Nat} {p : Nat → Bool} {n : Nat} (rises : l.Pairwise (· < ·)) (mem : n ∈ l)
    (meets : p n = true) (lowest : ∀ m ∈ l, m < n → p m = false) : l.find? p = some n := by
  induction l with
  | nil => cases mem
  | cons k l ih =>
    obtain ⟨first, rest⟩ := List.pairwise_cons.mp rises
    obtain rfl | inside := List.mem_cons.mp mem
    · exact List.find?_cons_of_pos meets
    · rw [List.find?_cons_of_neg (Bool.eq_false_iff.mp (lowest k (List.mem_cons_self ..) (first n inside)))]
      exact ih rest inside fun m hm => lowest m (List.mem_cons_of_mem _ hm)

/-! ### Token waits -/

/-- An instruction whose operation completes leaves what the operation leaves. -/
theorem gives_completed {i : Instr} {s t : State} {r : Res State} {p : State → Prop} (arm : exec i s = retire r)
    (ok : r = .ok t) (hp : p t) : Gives i s p :=
  ⟨t, by rw [arm, ok]; rfl, hp⟩

/-- An instruction whose operation stops leaves what the stop leaves. -/
theorem gives_stopped {i : Instr} {s t : State} {r : Res State} {e : Stop} {p : State → Prop}
    (arm : exec i s = retire r)
    (stops : r = .error (e, t)) (hp : p (t.stop e)) : Gives i s p :=
  ⟨_, by rw [arm, stops]; rfl, hp⟩

/-- What a wait for the tokens of a list does, in whatever order the statement names them (R370). -/
theorem tokenWait_cases {i : Instr} {s : State} {ks named : List Nat} (arm : exec i s = retire (s.tokenWait ks 1))
    (rises : ks.Pairwise (· < ·)) (same : ∀ n, n ∈ ks ↔ n ∈ named) :
    ((∀ n ∈ named, (s.getK n).pend = false ∧ (s.getK n).status = 0) →
      Gives i s (fun t => PcOnly s t (s.core.pc + 4))) ∧
    (∀ vec n, s.trapReady vec → (∀ m ∈ named, (s.getK m).pend = false) → n ∈ named → (s.getK n).status ≠ 0 →
      (∀ m ∈ named, m < n → (s.getK m).status = 0) →
      Gives i s (fun t => TrapTaken s t (trapCauseWord (s.getK n).status.toNat false true)
        (statusWord n (s.getK n) false) s.core.pc vec)) ∧
    ((∃ n ∈ named, (s.getK n).pend = true) →
      Gives i s (fun t => t = { s with core := { s.core with stall := .busy } })) := by
  simp only [← same]
  have settled (still : ∀ n ∈ ks, (s.getK n).pend = false) : ks.any (fun k => (s.getK k).pend) = false :=
    List.any_eq_false.mpr fun n hn => by simp [still n hn]
  refine ⟨fun done => ?_, fun vec n ready still mem bad lowest => ?_, fun ⟨n, mem, pending⟩ => ?_⟩
  · have none_ : s.firstError ks = none := List.find?_eq_none.mpr fun n hn => by simp [(done n hn).2]
    refine gives_completed arm (t := s.advance 1) ?_ rfl
    rw [State.tokenWait, settled fun n hn => (done n hn).1, none_]
    rfl
  · have first : s.firstError ks = some n :=
      find?_lowest rises mem (bne_iff_ne.mpr bad) fun m hm low => by simp [lowest m hm low]
    refine gives_stopped arm (e := .trapTok _ _) ?_ (trapEntry_ready s vec _ true _ s.core.pc ready)
    rw [State.tokenWait, settled still, first]
    rfl
  · have any : ks.any (fun k => (s.getK k).pend) = true := List.any_eq_true.mpr ⟨n, mem, pending⟩
    refine gives_stopped arm (e := .wait .busy) ?_ rfl
    rw [State.tokenWait, if_pos any]

/-- The status word of a token, its fields named one by one (R372). -/
theorem statusWord_eq (n : Nat) (t : Tok) : statusWord n t false = BitVec.ofNat 64
    ((if t.pend then 0 else t.detail.toNat * 2 ^ 24 + t.status.toNat * 2 ^ 16) + (if t.pend then 256 else 0) + n) := by
  rw [statusWord]
  cases t.pend <;> simp [b2n]

theorem trapCauseWord_token (c : Nat) : trapCauseWord c false true = BitVec.ofNat 64 (512 + c) := by
  rw [trapCauseWord, Nat.add_comm 512 c]
  rfl

/-! ### KSTAT.clr -/

/-- A complete token's status cleared, and nothing else (R372); k0 is complete without one. -/
theorem clearTok_clears (s : State) (k : Nat) :
    (s.clearTok k).getK k = (if (s.getK k).pend then s.getK k else { s.getK k with status := 0, detail := 0 }) ∧
      (∀ n, n ≠ s.core.physK k → (s.clearTok k).core.live.k.getD n Tok.reset = s.core.live.k.getD n Tok.reset) ∧
      s.clearTok k = { s with core := { s.core with
        live := { s.core.live with k := (s.clearTok k).core.live.k } } } := by
  have zero : s.core.physK 0 = 0 := if_neg (by omega)
  have other : k ≠ 0 → s.core.physK k ≠ 0 := fun named => by
    rw [Core.physK]
    split <;> omega
  unfold State.clearTok
  dsimp only
  split
  · exact ⟨rfl, fun _ _ => rfl, rfl⟩
  · by_cases named : k = 0
    · simp only [named, Regs.setTok, if_pos zero]
      exact ⟨rfl, fun _ _ => rfl, rfl⟩
    · simp only [State.getK, Regs.setTok, if_neg named, if_neg (other named), State.upRegs_core, getD_upd]
      exact ⟨if_pos rfl, fun n hn => if_neg hn, rfl⟩

/-- Settles O29: the waits look at their tokens in rising order; the others report one token. -/
theorem tokenResults : Obligations.TokenResults := by
  unfold Obligations.TokenResults
  intro o s ks3 k word
  refine ⟨?_, gives_alu _ s o _ _ rfl ?_, gives_alu _ s o _ _ rfl (statusWord_eq ..), ?_⟩
  · simp only [word, ← statusWord_eq, ← trapCauseWord_token, List.forall_mem_cons, List.not_mem_nil, false_implies,
      implies_true, and_true]
    exact ⟨tokenWait_cases rfl (sort3_rises ..) fun n => mem_sort3, tokenWait_cases rfl List.pairwise_lt_range fun n
      => .rfl⟩
  · cases k.pend <;> rfl
  · obtain ⟨token, others, rest⟩ := clearTok_clears s o.a.toNat
    exact ⟨_, rfl, _, statusWord_eq o.a.toNat k ▸ scalar_ok _ _ _ _, token, others, rest⟩

end Sys2Proof.Machine
end

section
/-! Groups of copies: COMMIT and the waits for closed groups (15 R373). -/

namespace Sys2Proof.Machine

/-- The registers once the open group, if it has members, is closed: the outstanding ones of them make a closed group
(R373). -/
def Regs.shut (g : Regs) (left : List Nat) : Regs :=
  if g.openGroup = [] then g else { g with
    openGroup := []
    closedGroups := if left = [] then g.closedGroups else g.closedGroups ++ [(g.nextGroup.toNat, left)]
    nextGroup := g.nextGroup + 1 }

/-- The state with the open group closed. -/
abbrev State.shutGroup (s : State) : State :=
  s.upRegs (fun g => g.shut (outstanding s.core.cq g.openGroup))

theorem closeGroup_room {s : State} (room : s.core.live.openGroup = [] ∨ s.core.live.closedGroups.length < 32) :
    s.closeGroup = .ok s.shutGroup := by
  unfold State.closeGroup State.shutGroup State.upRegs Regs.shut
  dsimp only
  split
  · rfl
  · next members => rw [if_neg (Nat.not_le.mpr (room.resolve_left members))]

theorem closeGroup_full {s : State} (members : s.core.live.openGroup ≠ [])
    (full : 32 ≤ s.core.live.closedGroups.length) :
    s.closeGroup = .error (.wait .busy, s) := by
  rw [State.closeGroup, if_neg members, if_pos full]

/-- A wait for closed groups closes the open one, then passes when none of those it asks for is outstanding. -/
theorem gives_groupWait {i : Instr} {s : State} {p : Nat → Bool} {n : Nat} (arm : exec i s = retire (s.groupWait p n))
    (room : s.core.live.openGroup = [] ∨ s.core.live.closedGroups.length < 32) :
    ((∀ g ∈ s.shutGroup.core.live.closedGroups, p g.1 = false) → Gives i s (fun t => t = s.shutGroup.advance n)) ∧
      ((∃ g ∈ s.shutGroup.core.live.closedGroups, p g.1 = true) →
        Gives i s (fun t => t = s.shutGroup.stop (.wait .busy))) := by
  refine ⟨fun none_ => gives_completed arm ?_ rfl, fun some_ => gives_stopped arm (e := .wait .busy) ?_ rfl⟩
  · have none_ : s.shutGroup.core.live.closedGroups.any (fun g => p g.1) = false :=
      List.any_eq_false.mpr fun g hg => by simp [none_ g hg]
    simp only [State.groupWait, closeGroup_room room, none_, Bool.false_eq_true, if_false]
  · have some_ : s.shutGroup.core.live.closedGroups.any (fun g => p g.1) = true := List.any_eq_true.mpr some_
    simp only [State.groupWait, closeGroup_room room, some_, if_true]

/-- A group number lies at or before a ticket as its distance below it, modulo 2^32, is short (R373). -/
theorem atOrBefore_iff (g : Nat) (w : Word) :
    atOrBefore g (w.setWidth 32) = true ↔ (w.toNat % 2 ^ 32 + 2 ^ 32 - g % 2 ^ 32) % 2 ^ 32 < 2 ^ 31 := by
  simp only [atOrBefore, decide_eq_true_eq, BitVec.toNat_sub, BitVec.toNat_setWidth, BitVec.toNat_ofNat]
  constructor <;> intro h <;> omega

/-- Settles O30: each of the instructions first closes the open group, once there is room for another. -/
theorem groupResults : Obligations.GroupResults := by
  unfold Obligations.GroupResults
  intro o s g left early shut u waits
  refine ⟨fun room => ?_, fun members full => ?_⟩
  · obtain ⟨pass, wait⟩ := gives_groupWait (i := .waitg o) rfl room
    obtain ⟨passAll, waitAll⟩ := gives_groupWait (i := .waitgAll o) rfl room
    refine ⟨gives_completed rfl (by rw [closeGroup_room room]; rfl) (scalar_ok u _ _ 1), fun none_ => ?_,
      fun ⟨n, hn, h⟩ => ?_, fun none_ => ?_, fun some_ => ?_⟩
    · exact pass fun n hn => Bool.eq_false_iff.mpr fun h => none_ n hn ((atOrBefore_iff ..).mp h)
    · exact wait ⟨n, hn, (atOrBefore_iff ..).mpr h⟩
    · exact passAll fun n (hn : n ∈ shut.closedGroups) => by
        rw [none_] at hn
        cases hn
    · obtain ⟨n, hn⟩ := List.exists_mem_of_ne_nil _ some_
      exact waitAll ⟨n, hn, rfl⟩
  · have stops : s.closeGroup = .error (.wait .busy, s) := closeGroup_full members full
    have waitsFor (p : Nat → Bool) (n : Nat) : s.groupWait p n = .error (.wait .busy, s) := by rw
      [State.groupWait, stops]
    simp only [List.forall_mem_cons, List.not_mem_nil, false_implies, implies_true, and_true]
    exact ⟨gives_stopped rfl (e := .wait .busy) (by rw [stops]) rfl,
      gives_stopped (r := s.groupWait _ _) rfl (e := .wait .busy) (waitsFor _ _) rfl,
      gives_stopped (r := s.groupWait _ _) rfl (e := .wait .busy) (waitsFor _ _) rfl⟩

end Sys2Proof.Machine
end

section
/-! Arrival barriers (15 R374 to R378). -/

namespace Sys2Proof.Machine

/-! ### The bytes of a barrier -/

theorem leNat_eq_zero {l : List Byte} (zero : leNat l = 0) : l = List.replicate l.length 0 := by
  induction l with
  | nil => rfl
  | cons b l ih =>
    rw [leNat] at zero
    have first : b = 0 := BitVec.eq_of_toNat_eq (show b.toNat = 0 by omega)
    rw [List.length_cons, List.replicate_succ, first, ← ih (by omega)]

/-- Into clean bytes a barrier's fields are put as its bytes (R374). -/
theorem into_clean {b : Barrier} {bs : List Byte} (clean : barrierClean bs = true) (size : bs.length = 16) :
    b.into bs = b.bytes := by
  simp only [barrierClean, Bool.and_eq_true, beq_iff_eq] at clean
  obtain ⟨⟨arm, early⟩, rest⟩ := clean
  have tail : bs.drop 11 = List.replicate 5 0 := by
    have all : (bs.drop 11).take 5 = bs.drop 11 := List.take_of_length_le (by rw [List.length_drop, size])
    rw [field, all] at rest
    have zero := leNat_eq_zero rest
    rwa [List.length_drop, size] at zero
  rw [Barrier.into, arm, early, tail, Nat.zero_mul, Nat.zero_add, Nat.zero_add, Barrier.bytes]

theorem bytes_length (b : Barrier) : b.bytes.length = 16 := by simp [Barrier.bytes]

/-- Reads of bytes that are the same give the same. -/
theorem memRead_congr {m m' : List Host.Cell} {a n : Nat} (same : ∀ c, a ≤ c → c < a + n → memGet m c = memGet m' c) :
    memRead m a n = memRead m' a n :=
  List.map_congr_left fun i hi => same (a + i) (Nat.le_add_right a i) (Nat.add_lt_add_left (List.mem_range.mp hi) a)

theorem first_mem_linesOf {n : Nat} (a : Nat) (some_ : n ≠ 0) : a / 64 ∈ linesOf a n := by
  rw [linesOf, if_neg some_]
  exact List.mem_map.mpr ⟨0, List.mem_range.mpr (by omega), rfl⟩

/-! ### A barrier of the share -/

/-- A barrier of the share in good lines, its reserved bits zero, is read as its bytes give it (R374). -/
theorem readBarrier_good {s : State} {j : Job} {off : Nat} (job : s.core.job = some j) (aligned : off % 16 = 0)
    (inside : off + 16 ≤ j.lmBytes) (good : s.goodAt (lmPlace s.coreId (j.lmBase + off)) 16)
    (clean : barrierClean (memRead s.mem.cells (lmPlace s.coreId (j.lmBase + off)) 16) = true) :
    s.readBarrier off = .ok (Barrier.read (memRead s.mem.cells (lmPlace s.coreId (j.lmBase + off)) 16), s) := by
  have offset : barrierOffOk off s.lmBytes = true := by
    rw [State.lmBytes, job]
    exact Bool.and_eq_true_iff.mpr ⟨beq_iff_eq.mpr aligned, decide_eq_true inside⟩
  have place : s.lmAt off = lmPlace s.coreId (j.lmBase + off) := by rw [State.lmAt, job]
  rw [State.readBarrier, offset, place, ordRead_good good.2 good.1]
  exact if_pos clean

theorem phasePassed_eq (ph t : Nat) :
    phasePassed ph t = decide (1 ≤ (ph + 256 - t) % 256 ∧ (ph + 256 - t) % 256 ≤ 127) := (Bool.decide_and ..).symm

/-- An idle barrier with no more early arrivals than those it is set up for is armed, or already complete (R376). -/
theorem armBarrier_good {s : State} {b : Barrier} {off n d : Nat} (read : s.readBarrier off = .ok (b, s))
    (some_ : 1 ≤ n)
    (count : n ≤ 0xFFFFFFFF) (unarmed : b.arm = false) (early : b.arr ≤ n) :
    s.armBarrier off n d = .ok ((s.setS d b.ticket).writeBarrier off
      (if b.arr = n then ⟨n, 0, (b.ph + 1) % 256, false, false⟩ else ⟨n, b.arr, b.ph, true, false⟩)) := by
  have fits : ¬(n = 0 ∨ 0xFFFFFFFF < n ∨ b.arm = true ∨ n < b.arr) := by
    simp only [unarmed, Bool.false_eq_true, false_or]
    omega
  rw [State.armBarrier, read]
  dsimp only
  rw [if_neg fits]
  congr 2
  split
  · next same => simp [Barrier.complete, same]
  · rfl

theorem ticket_eq (b : Barrier) :
    b.ticket = BitVec.ofNat 64 (b.arr * 2 ^ 32 + (if b.early then 256 else 0) + b.ph) := by
  rw [Barrier.ticket]
  cases b.early <;> rfl

/-! ### BARRIVE -/

/-- An arrival at a barrier in a good line writes its bytes (R375). -/
theorem arriveAt_good {s : State} {p n : Nat} (good : s.bad s.domain (p / 64) = false)
    (clean : barrierClean (memRead s.mem.cells p 16) = true) :
    s.arriveAt p n = { s with mem := { s.mem with
      cells := memWrite s.mem.cells p ((Barrier.read (memRead s.mem.cells p 16)).arrive n).bytes } } := by
  rw [State.arriveAt, good, if_neg Bool.false_ne_true]
  dsimp only
  rw [into_clean clean (memRead_length ..)]

/-- Arrivals at disjoint barriers: each takes its own, and every other byte of memory stays. -/
theorem arrivals {n : Nat} (ps : List Nat) {s : State} (wf : s.memOk)
    (good : ∀ p ∈ ps, s.bad s.domain (p / 64) = false)
    (clean : ∀ p ∈ ps, barrierClean (memRead s.mem.cells p 16) = true)
    (disjoint : ps.Pairwise (fun p q => p + 16 ≤ q ∨ q + 16 ≤ p)) :
    ∃ cells, ps.foldl (fun s p => s.arriveAt p n) s = { s with mem := { s.mem with cells := cells } } ∧
      (∀ p ∈ ps, memRead cells p 16 = ((Barrier.read (memRead s.mem.cells p 16)).arrive n).bytes) ∧
      ∀ c, (∀ p ∈ ps, c < p ∨ p + 16 ≤ c) → memGet cells c = memGet s.mem.cells c := by
  induction ps generalizing s with
  | nil => exact ⟨s.mem.cells, rfl, List.forall_mem_nil _, fun _ _ => rfl⟩
  | cons p ps ih =>
    obtain ⟨apart, disjoint⟩ := List.pairwise_cons.mp disjoint
    obtain ⟨goodP, good⟩ := List.forall_mem_cons.mp good
    obtain ⟨cleanP, clean⟩ := List.forall_mem_cons.mp clean
    let b := (Barrier.read (memRead s.mem.cells p 16)).arrive n
    let s' : State := { s with mem := { s.mem with cells := memWrite s.mem.cells p b.bytes } }
    have stays (c : Nat) (out : c < p ∨ p + 16 ≤ c) : memGet s'.mem.cells c = memGet s.mem.cells c :=
      memGet_memWrite_outside _ _ _ _ (by rwa [bytes_length])
    have reads (q : Nat) (hq : q ∈ ps) : memRead s'.mem.cells q 16 = memRead s.mem.cells q 16 :=
      memRead_congr fun c low high => stays c (by have := apart q hq; omega)
    obtain ⟨cells, fold, written, outside⟩ := ih (s := s') (memWrite_wf _ _ _ wf) good
      (fun q hq => (reads q hq).symm ▸ clean q hq) disjoint
    refine ⟨cells, ?_, List.forall_mem_cons.mpr ⟨?_, fun q hq => (written q hq).trans (by rw [reads q hq])⟩, fun c out
      => ?_⟩
    · rw [List.foldl_cons, arriveAt_good goodP cleanP]
      exact fold
    · have own := memRead_memWrite s.mem.cells p b.bytes wf
      rw [bytes_length] at own
      rw [← own]
      exact memRead_congr fun c low high => outside c fun q hq => by have := apart q hq; omega
    · obtain ⟨first, rest⟩ := List.forall_mem_cons.mp out
      exact (outside c rest).trans (stays c first)

/-- BARRIVE of a strand that holds nothing back arrives at every barrier its mask names (R377). -/
theorem arriveAll_settled {s : State} {off n mask : Nat} {ps : List Nat} (offset : barrierOffOk off s.lmBytes = true)
    (count : n ≤ 0xFFFFFFFF) (held : s.settled) (places : s.barrierPlaces off (s.maskCores mask) = some ps)
    (good : ∀ p ∈ ps, s.bad s.domain (p / 64) = false)
    (clean : ∀ p ∈ ps, barrierClean (memRead s.mem.cells p 16) = true) :
    s.arriveAll mask off n = .ok (if n = 0 then s else ps.foldl (fun s p => s.arriveAt p n) s) := by
  have sound : ps.find? (fun p => s.bad s.domain (p / 64)) = none :=
    List.find?_eq_none.mpr fun p hp => by simp [good p hp]
  have tidy : ps.any (fun p => !barrierClean (memRead s.mem.cells p 16)) = false :=
    List.any_eq_false.mpr fun p hp => by simp [clean p hp]
  simp only [State.arriveAll, offset, Bool.not_true, Bool.false_eq_true, if_false, if_neg (Nat.not_lt.mpr count),
    fenceLines_settled s 0 held, places, sound, tidy]

/-- The end of a region keeps the shares that receive for the strand's cluster group. -/
theorem barrierPlaces_leftRegion (s : State) (off : Nat) (cores : List Nat) :
    s.leftRegion.barrierPlaces off cores = s.barrierPlaces off cores := by
  induction cores with
  | nil => rfl
  | cons c cores ih =>
    rw [State.barrierPlaces, State.barrierPlaces, ih]
    rfl

/-- The program counter moved past an instruction that succeeded. -/
def thenAdvance (o : OpA) (r : Res State) : Res State :=
  match r with
  | .error e => .error e
  | .ok s => .ok (s.advance o.len)

theorem lmAt_setS (s : State) (d : Nat) (v : Word) (off : Nat) : (s.setS d v).lmAt off = s.lmAt off := by
  unfold State.setS
  split <;> rfl

/-- A barrier written between two regions, with its ticket: the register, its bytes, and the next region. -/
theorem barrierWritten {s : State} {off a : Nat} (wf : s.memOk) (place : s.lmAt off = a) (d : Nat) (v : Word)
    (b : Barrier)
    (n : Nat) (again : Bool) :
    let t := (((s.leftRegion.setS d v).writeBarrier off b).advance n).upCore (fun c => c.reopen again)
    RegSet s t d v ∧ BytesPut s t a b.bytes ∧ t.core.pc = s.core.pc + BitVec.ofNat 48 (4 * n) ∧ NextRegion s t := by
  have set : RegSet s (s.leftRegion.setS d v) d v := regSet_of_live rfl rfl _ _
  refine ⟨set, bytesPut_of_cells wf ?_, ?_, nextRegion_reopen _ ?_ ?_⟩
  · show memWrite (State.setS _ _ _).mem.cells (State.lmAt _ off) _ = _
    rw [lmAt_setS, State.setS_mem]
    exact congrArg (memWrite s.mem.cells · _) place
  · exact congrArg (· + BitVec.ofNat 48 (4 * n)) (State.setS_core_pc ..)
  · exact State.setS_core_rseq ..
  · exact State.setS_core_sbuf ..

/-- Settles O31: the barrier is read where the offset lies in the share; BINIT and BARRIVE write it between two
regions. -/
theorem barrierResults : Obligations.BarrierResults := by
  unfold Obligations.BarrierResults
  intro o s j job off n at_ bs b d wf aligned inside
  have place : s.lmAt off = at_ := by rw [State.lmAt, job]
  have offset : barrierOffOk off s.lmBytes = true := by
    rw [State.lmBytes, job]
    exact Bool.and_eq_true_iff.mpr ⟨beq_iff_eq.mpr aligned, decide_eq_true inside⟩
  refine ⟨fun ps held count places ok disjoint => ?_, fun good clean =>
    ⟨fun empty some_ count unarmed early => ?_, ?_, ?_, ?_⟩⟩
  · have good (p : Nat) (hp : p ∈ ps) : s.bad s.domain (p / 64) = false :=
      (ok p hp).1.1 _ (first_mem_linesOf p (by decide))
    have clean (p : Nat) (hp : p ∈ ps) := (ok p hp).2
    have arrive := arriveAll_settled (s := s.leftRegion) (n := n) (mask := bits o.d.toNat 3 0) offset count
      (emptied_shut_settled s held) ((barrierPlaces_leftRegion s off _).trans places) good clean
    have act : thenAdvance o (s.leftRegion.arriveAll (bits o.d.toNat 3 0) off n) = .ok _ := congrArg (thenAdvance o)
      arrive
    refine gives_drained (act := fun s => thenAdvance o (s.arriveAll (bits o.d.toNat 3 0) (s.opA o).toNat
      (s.opB o).toNat))
      rfl (by rw [held.1]; rfl) act ?_
    by_cases zero : n = 0
    · rw [if_pos zero]
      exact ⟨fun _ _ h => absurd zero h, fun _ _ => rfl, rfl, rfl, rfl, rfl, rfl, rfl, rfl, rfl⟩
    · obtain ⟨cells, fold, written, outside⟩ := arrivals (n := n) ps (s := s.leftRegion) wf good clean disjoint
      rw [if_neg zero, fold]
      exact ⟨fun p hp _ => written p hp, fun c out => outside c (out.resolve_left zero), rfl, rfl, rfl, rfl, rfl, rfl,
        rfl,
        rfl⟩
  · have read := readBarrier_good (s := s.leftRegion) job aligned inside good clean
    have arms := armBarrier_good (d := o.d.toNat) read some_ count unarmed early
    refine gives_drained (act := fun s => thenAdvance o (s.armBarrier (s.opA o).toNat (s.opB o).toNat o.d.toNat))
      rfl (by rw [empty]; rfl) (congrArg (thenAdvance o) arms) ?_
    rw [← ticket_eq]
    exact barrierWritten wf place _ _ _ _ _
  all_goals have read : s.readBarrier off = .ok (b, s) := readBarrier_good job aligned inside good clean
  · have value : b2w (phasePassed b.ph (s.ticketOf o)) = if 1 ≤ d ∧ d ≤ 127 then 1 else 0 := by
      rw [phasePassed_eq, b2w]
      exact if_congr decide_eq_true_iff rfl rfl
    refine gives_completed rfl (by rw [read]) ?_
    rw [← value]
    exact scalar_ok s o.d.toNat _ o.len
  · intro low high
    refine gives_completed rfl (t := s.advance o.len) ?_ rfl
    rw [read]
    exact if_pos ((phasePassed_eq ..).trans (decide_eq_true ⟨low, high⟩))
  · intro out
    refine gives_stopped rfl (e := .wait .busy) ?_ rfl
    rw [read]
    exact if_neg (Bool.eq_false_iff.mp ((phasePassed_eq ..).trans (decide_eq_false out)))

end Sys2Proof.Machine
end

section
/-! The micro-orders of a copy table's run (13 R344, R346). -/

namespace Sys2Proof.Machine

/-- A copy run stands at the piece that its command notes (R329, R346). -/
theorem runCursor_inRun {s : State} {x : Cmd} (run : InRun s .copy x) : s.runCursor x = x.cursor := by
  obtain ⟨-, -, -, here⟩ := run
  rw [State.runCursor, here]
  rfl

/-- A copy run at its next step, its source address raised and then its destination's, where the micro-order says so
(R346). -/
def TableRun.passed (up : Bool) (i n j k : Nat) (r : TableRun) : TableRun :=
  (bumped up j k (2 ^ 42) (bumped up i n (2 ^ 42) r)).next

theorem passed_eq (up : Bool) (i n j k : Nat) (r : TableRun) :
    r.passed up i n j k = bumped up j k (2 ^ 42) (bumped up i n (2 ^ 42) r.next) := by
  rw [TableRun.passed, next_bumped, next_bumped]

/-- A micro-order of a copy run that leaves it at its next step, its addresses raised. -/
theorem gives_passing {i : Instr} {s u : State} {x : Cmd} {f : MicroFn} {m : BitVec 27} {up : Bool} {a n b k : Nat}
    (arm : exec i s = .next (s.microAct .copy f m)) (run : InRun s .copy x) (same : u.table .copy = s.table .copy)
    (ok : f m.toNat x s = .ok (u.upTable .copy (TableRun.passed up a n b k))) :
    Gives i s (fun t =>
      Stepped s t .copy (bumped up b k (2 ^ 42) (bumped up a n (2 ^ 42) (s.table .copy).next)) ∧ t.mem = u.mem) :=
  gives_micro arm run ok same (passed_eq ..) (by rw [steps_bumped, steps_bumped]; rfl) fun _ stepped _ mem =>
    ⟨stepped, mem⟩

/-- What the run of a copy table raises is its addresses, each by what the row or tile takes (R346). -/
theorem passed_raises (up : Bool) (i n j k : Nat) :
    TableRun.passed up i n j k = fun t : TableRun => (if up then
      (t.setAddr i ((t.addr i + n) % 2 ^ 42)).setAddr j
        (((t.setAddr i ((t.addr i + n) % 2 ^ 42)).addr j + k) % 2 ^ 42) else t).next := by
  funext t
  cases up <;> rfl

/-- MOVE of a row between handles of this package whose pieces pass (R346). -/
theorem microMove_moves {s u : State} {x : Cmd} {v w : View} {m n src dst : Nat} (run : InRun s .copy x)
    (row : 64 * (bits m 14 7 + 1) = n) (from_ : (s.table .copy).addr (mA m) = src)
    (to_ : (s.table .copy).addr (bits m 24 23) = dst) (field : bits m 5 0 = 0)
    (source : s.readSnap x (bits m 22 19) src n .rd = .ok (v, s))
    (target : s.readSnap x (bits m 18 15) dst n .w = .ok (w, s)) (here : v.local_ = true) (there : w.local_ = true)
    (moved : State.pieceLoop unitCpy { x with
      views := [v, w]
      scal := [src, n, 1, n, dst, n, 0, 0].map (BitVec.ofNat 64) } (n / 64 - x.cursor) x.cursor s = .ok u) :
    microMove m x s = .ok (u.upTable .copy (.passed (bit m 6) (mA m) n (bits m 24 23) n)) := by
  simp only [microMove, row, from_, to_, field, ne_eq, not_true_eq_false, if_false, source, target, here, there,
    Bool.not_true, Bool.or_self, Bool.false_eq_true, runCursor_inRun run, moved, passed_raises]

/-- DECT of a tile of a compressed range of this package into local memory (R346). -/
theorem microDect_decodes {s u y : State} {x : Cmd} {v w : View} {q : Param} {bs sc : List Byte} {m tile src dst : Nat}
    (size : 64 * memBytes q.tag 64 = tile) (from_ : (s.table .copy).addr (mA m) = src)
    (to_ : (s.table .copy).addr (bits m 24 23) = dst) (one : bits m 14 7 = 0) (field : bits m 5 0 = 0)
    (source : s.tileSnap x (bits m 22 19) src = .ok (v, s)) (here : v.local_ = true) (param : v.param = some q)
    (compressed : q.cmp = true) (target : s.readSnap x (bits m 18 15) dst tile .w = .ok (w, s)) (lm : w.kind = 0)
    (low : src < q.tiles) (decoded : s.decodeTile v { q with bs := false } src = .ok (bs, sc, y))
    (written : y.vwrite w x.prod dst bs = .ok u) :
    microDect m x s = .ok (u.upTable .copy (.passed (bit m 6) (mA m) 1 (bits m 24 23) tile)) := by
  have coded : ¬(!q.cmp) = true := by simp [compressed]
  simp only [microDect, from_, to_, one, field, ne_eq, not_true_eq_false, or_self, if_false, source, param, size,
    target,
    here, if_neg coded, lm, Bool.not_true, Bool.false_eq_true, if_neg (Nat.not_le.mpr low), decoded, written,
      passed_raises]

/-- Settles O42: each micro-order passes its checks, does what its rules say, and leaves the run at its next step. -/
theorem copyMicroOrders : Obligations.CopyMicroOrders := by
  unfold Obligations.CopyMicroOrders
  intro m s u y x v w q bs sc run f a b r next src dst n tile up
  refine ⟨fun field => gives_runOnly rfl run (if_neg (not_not_intro field)) rfl rfl, fun field same here =>
    ⟨fun there source target moved => ?_, fun one source param compressed target lm low decoded written => ?_⟩⟩
  · exact gives_passing rfl run same (microMove_moves run rfl rfl rfl field source target here there moved)
  · exact gives_passing rfl run same
      (microDect_decodes rfl rfl rfl one field source here param compressed target lm low decoded written)

end Sys2Proof.Machine
end

section
/-! Issue of the copy commands (13 R325 to R345): the views of the footprints, a command's own checks, and its entry into the
queue and the open group, in its region or between two. -/

namespace Sys2Proof.Machine

/-! ### Footprints that pass -/

theorem copyView_covers {s : State} {h off n opw : Nat} {r : Right} {loc : Bool} {v : View}
    (covers : Covers s h off n r opw loc v) : s.copyView ⟨h, off, n, r, opw, true⟩ = .ok (v, s) := by
  obtain ⟨read, -⟩ := covers
  unfold State.copyView
  split
  · next none_ =>
    dsimp only at none_ ⊢
    rw [if_pos none_, none_] at read
    exact read
  · next some_ =>
    rw [if_neg some_] at read
    exact read

/-- The side that an index list or a tile names: known only as the command runs, unless it moves no byte (R336). -/
theorem copyView_reaches {s : State} {h off n opw : Nat} {r : Right} {v : View}
    (reaches : if n = 0 then Covers s h 0 0 r opw true v else s.openHandle h off r opw = .ok (v, s) ∧ v.local_ = true) :
    s.copyView ⟨h, off, n, r, opw, false⟩ = .ok (v, s) ∧ v.local_ = true := by
  unfold State.copyView
  split at reaches
  · next none_ => exact ⟨(if_pos none_).trans reaches.1, reaches.2⟩
  · next some_ => exact ⟨(if_neg some_).trans reaches.1, reaches.2⟩

theorem footprints_ok {s : State} {fs : List Foot} {vs : List View}
    (found : List.Forall₂ (fun f v => s.copyView f = .ok (v, s)) fs vs) : s.footprints fs = .ok (vs, s) := by
  induction found with
  | nil => rfl
  | cons first _ ih => simp only [State.footprints, first, ih]

theorem sides_ok {s : State} {l : List (View × Bool)} (here : ∀ p ∈ l, p.1.local_ = p.2) : s.sides l = .ok s := by
  have none_ : l.find? (fun p => p.1.local_ != p.2 && !p.1.absent) = none :=
    List.find?_eq_none.mpr fun p hp => by simp [here p hp]
  rw [State.sides, none_]

/-- The views of footprints that pass, each on its side (R326). -/
theorem copyViews_ok {s : State} {fs : List Foot} {vs : List View} {loc : List Bool}
    (found : List.Forall₂ (fun f v => s.copyView f = .ok (v, s)) fs vs) (here : ∀ p ∈ vs.zip loc, p.1.local_ = p.2) :
    s.copyViews fs loc = .ok (vs.take loc.length, s) := by
  rw [State.copyViews, footprints_ok found]
  dsimp only
  rw [sides_ok here]

/-! ### Entry into the copy queue -/

/-- With room in its queue and its token free, an instruction issued enters as a command, and only there (R154). -/
theorem issue_enters {s : State} {e : Eng} {kd : Nat} (h : Room s e kd) (i : Instr) (cons : List Nat) (scal : List Word)
    (views : List View) (len : Nat) (tags : List (Nat × Nat)) (snap : List HReg) :
    ∃ x : Cmd, s.issue e i kd cons scal views len tags snap = .ok (s.entered e kd x len) ∧ x.instr = i ∧
      x.prod = s.core.prod ∧ x.rseq = s.core.rseq ∧ x.started = false := by
  obtain ⟨room, free⟩ := h
  unfold State.issue queueEntries
  rw [if_neg (Nat.not_le.mpr room), if_neg (Bool.eq_false_iff.mp free)]
  exact ⟨_, rfl, rfl, rfl, rfl, rfl⟩

/-- `t` is `s` after copy command `i` of `n` words entered the queue and joined the open group (R325). -/
def CopyEntered (s t : State) (o : OpE) (i : Instr) (n : Nat) : Prop :=
  Enqueued s t .copy i o.kd.toNat n ∧ t.core.live.openGroup = s.core.live.openGroup ++ [s.core.prod]

/-- Entry into the copy queue leaves the open group, the region and the store buffer. -/
theorem entered_copy (s : State) (kd : Nat) (x : Cmd) (n : Nat) :
    (s.entered .copy kd x n).core.live.openGroup = s.core.live.openGroup ∧
      (s.entered .copy kd x n).core.rseq = s.core.rseq ∧ (s.entered .copy kd x n).core.sbuf = s.core.sbuf := by
  rw [entered_core]
  exact ⟨rfl, rfl, rfl⟩

/-- A copy command issued joins the open group; the region stays (R325). -/
theorem issueCopy_enters {s : State} {o : OpE} (room : Room s .copy o.kd.toNat) (i : Instr) (n : Nat) (scal : List Nat)
    (views : List View) : ∃ t, s.issueCopy i o n scal views = .ok t ∧ CopyEntered s t o i (1 + n + litLen o.x) ∧
      t.core.rseq = s.core.rseq ∧ t.core.sbuf = s.core.sbuf := by
  obtain ⟨x, issued, rfl, prod, rseq, waits⟩ := issue_enters room i o.cons (scal.map (BitVec.ofNat 64)) views
    (cmdLen n true o) [] []
  have enqueued := enqueued_entered (s := s) prod rseq waits .copy o.kd.toNat (cmdLen n true o)
  obtain ⟨group, region, buffer⟩ := entered_copy s o.kd.toNat x (cmdLen n true o)
  exact ⟨_, by rw [State.issueCopy, issued], ⟨enqueued_joined enqueued, congrArg (· ++ [s.core.prod]) group⟩, region,
    buffer⟩

/-- A copy command that lies between two regions joins the group of the region before (R330). -/
theorem copyEntered_between {s t : State} {o : OpE} {i : Instr} {n : Nat} (entered : CopyEntered s.leftRegion t o i n)
    (again : Bool) : CopyEntered s (t.upCore (fun c => c.reopen again)) o i n := entered

/-- A copy command whose checks pass enters the queue in its region. -/
theorem gives_copy {s : State} {o : OpE} {i : Instr} {n : Nat} {scal : List Nat} {views : List View}
    (room : Room s .copy o.kd.toNat) (arm : exec i s = retire (s.issueCopy i o n scal views)) :
    Gives i s (fun t => CopyEntered s t o i (1 + n + litLen o.x) ∧ t.core.rseq = s.core.rseq) := by
  obtain ⟨t, issued, entered, rseq, -⟩ := issueCopy_enters room i n scal views
  exact gives_completed arm issued ⟨entered, rseq⟩

/-- A copy command whose checks pass, and that lies between two regions, enters the queue there (R330). -/
theorem gives_copyBetween {s : State} {o : OpE} {i : Instr} {n : Nat} {scal : List Nat} {views : List View}
    (room : Room s .copy o.kd.toNat) (empty : s.core.sbuf = [])
    (arm : exec i s = retire (s.between (fun s => s.issueCopy i o n scal views))) :
    Gives i s (fun t => CopyEntered s t o i (1 + n + litLen o.x) ∧ NextRegion s t) := by
  obtain ⟨t, issued, entered, rseq, drained⟩ := issueCopy_enters (s := s.leftRegion) room i n scal views
  exact gives_drained arm (by rw [empty]; rfl) issued ⟨copyEntered_between entered _, nextRegion_reopen _ rseq drained⟩

/-- A row command whose footprints pass enters the queue (R326, R334). -/
theorem gives_rows {s : State} {o : OpE} {i : Instr} {fs : List Foot} {vs : List View} {loc : List Bool}
    (room : Room s .copy o.kd.toNat) (arm : exec i s = retire (s.issueRows i o fs loc))
    (found : List.Forall₂ (fun f v => s.copyView f = .ok (v, s)) fs vs) (here : ∀ p ∈ vs.zip loc, p.1.local_ = p.2) :
    Gives i s (fun t => CopyEntered s t o i (4 + litLen o.x) ∧ t.core.rseq = s.core.rseq) := by
  simp only [State.issueRows, copyViews_ok found here] at arm
  exact gives_copy (n := 3) room arm

/-- An update at the bank whose view is as it asks passes its own checks (R339). -/
theorem bankOk_updatable {s : State} {w : View} {off : Nat} (updatable : Updatable w off) : s.bankOk w off = .ok s := by
  obtain ⟨kind, tag, aligned⟩ := updatable
  simp only [State.bankOk, kind, tag, aligned, ne_eq, not_true_eq_false, if_false, Bool.not_true, Bool.false_eq_true]

/-- CPYM whose footprints pass is issued at once without the arrival bit, and between two regions with it
(R330, R335). -/
theorem exec_cpym {s : State} {o : OpE} {vs : List View}
    (views : s.copyViews [s.foot1 o .rd, s.foot2 o 0 .w] [true, true] = .ok (vs, s)) :
    (arrivalBit o = false → exec (.cpym o) s = retire (s.issueCopy (.cpym o) o 3 (s.rowArgs o) vs)) ∧
      (arrivalBit o = true → barrierOffOk (s.cC o.w3).toNat s.lmBytes = true →
        exec (.cpym o) s = retire (s.between (fun t => t.issueCopy (.cpym o) o 3 (s.rowArgs o) vs))) := by
  refine ⟨fun plain => ?_, fun arrival offset => ?_⟩
  · show execCpym o s = _
    simp only [execCpym, views, plain, Bool.not_false, if_true]
  · show execCpym o s = _
    simp only [execCpym, views, arrival, offset, Bool.not_true, Bool.false_eq_true, if_false]

/-- CPREM.put likewise; with the arrival bit its view is of bank memory and has room for the counter word (R338). -/
theorem exec_cpremPut_plain {s : State} {o : OpE} {vs : List View} (plain : arrivalBit o = false)
    (views : s.copyViews [s.foot1 o .rd, s.foot2 o (vH o.w2) .mcw] [true, false] = .ok (vs, s)) :
    exec (.cpremPut o) s = retire (s.issueCopy (.cpremPut o) o 3 (s.rowArgs o) vs) := by
  show execCpremPut o s = _
  simp only [execCpremPut, plain, Bool.false_eq_true, if_false, views, Bool.not_false, if_true]

theorem exec_cpremPut_arrival {s : State} {o : OpE} {v w : View} (arrival : arrivalBit o = true)
    (views : s.copyViews [s.foot1 o .rd, s.foot2 o (vH o.w2) .mcwat] [true, false] = .ok ([v, w], s))
    (kind : w.kind = 2)
    (aligned : (s.cC o.w3).toNat % 8 = 0) (inside : (s.cC o.w3).toNat + 8 ≤ w.length) :
    exec (.cpremPut o) s = retire (s.between (fun t => t.issueCopy (.cpremPut o) o 3 (s.rowArgs o) [v, w])) := by
  have fits : ¬(¬(s.cC o.w3).toNat % 8 = 0 ∨ w.length < (s.cC o.w3).toNat + 8) := by omega
  show execCpremPut o s = _
  simp only [execCpremPut, arrival, if_true, views, Bool.not_true, Bool.false_eq_true, if_false, List.getD_cons_succ,
    List.getD_cons_zero, kind, ne_eq, not_true_eq_false, if_neg fits]

/-- CPFILL whose footprint passes enters the queue (R337). -/
theorem gives_cpfill {s : State} {o : OpE} {w : View} (room : Room s .copy o.kd.toNat)
    (target : Covers s (vH o.w1) (s.cX1 o) (spanOf (s.cRows o) (s.strideOf o.w1 (s.cL o.w2)) (s.cL o.w2)) .w 1 true w) :
    Gives (.cpfill o) s (fun t => CopyEntered s t o (.cpfill o) (3 + litLen o.x) ∧ t.core.rseq = s.core.rseq) := by
  have views := copyViews_ok (loc := [true]) (.cons (copyView_covers target) .nil) (by simp [target.2])
  have arm : exec (.cpfill o) s = execCpfill o s := rfl
  simp only [execCpfill, views] at arm
  exact gives_copy (n := 2) room arm

/-- CPRED whose footprints pass enters the queue between two regions (R339). -/
theorem gives_cpred {s : State} {o : OpE} {i : Instr} {v w d : View} (room : Room s .copy o.kd.toNat)
    (empty : s.core.sbuf = []) (arm : exec i s = retire (s.issueRed i o))
    (checked : s.checkHandle (vH o.w2) (s.cX2 o) 2 = .ok (d, s))
    (source : Covers s (vH o.w1) (s.cX1 o) (s.cL o.w3 * d.width) .rd 1 true v)
    (target : Covers s (vH o.w2) (s.cX2 o) (s.cL o.w3 * d.width) .wat 2 true w) (updatable : Updatable w (s.cX2 o)) :
    Gives i s (fun t => CopyEntered s t o i (4 + litLen o.x) ∧ NextRegion s t) := by
  have views := copyViews_ok (loc := [true, true]) (.cons (copyView_covers source)
    (.cons (copyView_covers target) .nil))
    (by simp [source.2, target.2])
  simp only [State.issueRed, State.bankFoot, checked, views, List.length_cons, List.length_nil, List.take_succ_cons,
    List.take_zero, List.getD_cons_succ, List.getD_cons_zero, bankOk_updatable updatable] at arm
  exact gives_copyBetween (n := 3) room empty arm

/-- BMUPD whose footprint passes enters the queue between two regions (R339). -/
theorem gives_bmupd {s : State} {o : OpE} {i : Instr} {w d : View} (room : Room s .copy o.kd.toNat)
    (empty : s.core.sbuf = []) (arm : exec i s = retire (s.issueUpd i o))
    (checked : s.checkHandle (vH o.w1) (s.cX1 o) 1 = .ok (d, s))
    (target : Covers s (vH o.w1) (s.cX1 o) (s.cL o.w2 * d.width) .wat 1 true w) (updatable : Updatable w (s.cX1 o)) :
    Gives i s (fun t => CopyEntered s t o i (3 + litLen o.x) ∧ NextRegion s t) := by
  have views := copyViews_ok (loc := [true]) (.cons (copyView_covers target) .nil) (by simp [target.2])
  simp only [State.issueUpd, State.bankFoot, checked, views, List.length_cons, List.length_nil, List.take_succ_cons,
    List.take_zero, List.getD_cons_zero, bankOk_updatable updatable] at arm
  exact gives_copyBetween (n := 2) room empty arm

theorem copyRows : CopyRows := by
  intro o s v w kd reg h1 h2 n l st x1 x2 z c bar l2 a b joined ix room
  constructor
  · simp only [List.forall_mem_cons, List.not_mem_nil, false_implies, implies_true, and_true]
    refine ⟨?cpy, ?cpym, ?cpg, ?cps, ?cpfill, ?put, ?get⟩
    case cpy =>
      rintro ⟨source, target⟩
      exact gives_rows room rfl (.cons (copyView_covers source) (.cons (copyView_covers target) .nil))
        (by simp [source.2, target.2])
    case cpym =>
      rintro ⟨source, target, plain⟩
      have views := copyViews_ok (loc := [true, true]) (.cons (copyView_covers source)
        (.cons (copyView_covers target) .nil))
        (by simp [source.2, target.2])
      exact gives_copy (n := 3) room ((exec_cpym views).1 plain)
    case cpg =>
      rintro ⟨source, target, y, list⟩
      obtain ⟨view, side⟩ := copyView_reaches source
      exact gives_rows room rfl (.cons view (.cons (copyView_covers target) (.cons (copyView_covers list) .nil)))
        (by simp [side, target.2])
    case cps =>
      rintro ⟨source, target, y, list⟩
      obtain ⟨view, side⟩ := copyView_reaches target
      exact gives_rows room rfl (.cons (copyView_covers source) (.cons view (.cons (copyView_covers list) .nil)))
        (by simp [source.2, side])
    case cpfill =>
      exact gives_cpfill room
    case put =>
      rintro ⟨source, target, plain⟩
      have views := copyViews_ok (loc := [true, false])
        (.cons (copyView_covers source) (.cons (copyView_covers target) .nil)) (by simp [source.2, target.2])
      exact gives_copy (n := 3) room (exec_cpremPut_plain plain views)
    case get =>
      rintro ⟨source, target⟩
      exact gives_rows room rfl (.cons (copyView_covers source) (.cons (copyView_covers target) .nil))
        (by simp [source.2, target.2])
  · intro empty
    refine ⟨fun source target arrival aligned inside => ?_, fun source target arrival kind aligned inside => ?_,
      fun d checked source target updatable => ?_, fun d checked target updatable => ?_⟩
    · have views := copyViews_ok (loc := [true, true])
        (.cons (copyView_covers source) (.cons (copyView_covers target) .nil)) (by simp [source.2, target.2])
      have offset : barrierOffOk c s.lmBytes = true :=
        Bool.and_eq_true_iff.mpr ⟨beq_iff_eq.mpr aligned, decide_eq_true inside⟩
      exact gives_copyBetween (n := 3) room empty ((exec_cpym views).2 arrival offset)
    · have views := copyViews_ok (loc := [true, false])
        (.cons (copyView_covers source) (.cons (copyView_covers target) .nil)) (by simp [source.2, target.2])
      exact gives_copyBetween (n := 3) room empty (exec_cpremPut_arrival arrival views kind aligned inside)
    · simp only [List.forall_mem_cons, List.not_mem_nil, false_implies, implies_true, and_true]
      and_intros <;> exact gives_cpred room empty rfl checked source target updatable
    · simp only [List.forall_mem_cons, List.not_mem_nil, false_implies, implies_true, and_true]
      and_intros <;> exact gives_bmupd room empty rfl checked target updatable

/-! ### CPDEC and the agent operations -/

theorem memBytes_row_pos (t : Nat) : 0 < memBytes t 64 := by
  have bits : 4 ≤ memBits t := by
    unfold memBits elemBits
    split
    · decide
    · split
      · decide
      · split
        · decide
        · split <;> decide
  rw [memBytes]
  omega

theorem spanOf_ne_zero {n y l : Nat} (rows : n ≠ 0) (bytes : l ≠ 0) : spanOf n y l ≠ 0 := by
  rw [spanOf, if_neg (not_or.mpr ⟨rows, bytes⟩)]
  omega

theorem copyView_read {s : State} {h off n opw : Nat} {r : Right} {v : View} (some_ : n ≠ 0)
    (read : s.readHandle h off n r opw = .ok (v, s)) : s.copyView ⟨h, off, n, r, opw, true⟩ = .ok (v, s) :=
  (if_neg some_).trans read

theorem gives_cpdec {s : State} {o : OpE} {v w y : View} {q : Param} (room : Room s .copy o.kd.toNat)
    (opens : s.openHandle (vH o.w1) (s.cX1 o) .rd 1 = .ok (v, s)) (here : v.local_ = true) (param : v.param = some q)
    (compressed : q.cmp = true) (low : s.cX1 o < q.tiles)
    (target : s.readHandle (vH o.w2) (s.cX2 o)
      (spanOf 64 (s.strideOf o.w2 (memBytes q.tag 64)) (memBytes q.tag 64)) .w 2 = .ok (w, s)) (lm : w.kind = 0)
    (scales : q.bs = true → s.readHandle (vH o.w2) (s.wordS o.w2 15 10).toNat 128 .w 2 = .ok (y, s)) :
    Gives (.cpdec o) s (fun t => Enqueued s t .copy (.cpdec o) o.kd.toNat (3 + litLen o.x)) := by
  have record : v.recordOf = q := by rw [View.recordOf, param]; rfl
  have first := copyView_read (spanOf_ne_zero (by decide) (memBytes_row_pos q.tag).ne') target
  have coded : ¬(!q.cmp) = true := by simp [compressed]
  obtain ⟨ws, views⟩ : ∃ ws, s.footprints (⟨vH o.w2, s.cX2 o,
      spanOf 64 (s.strideOf o.w2 (memBytes q.tag 64)) (memBytes q.tag 64), .w, 2, true⟩ ::
        (if q.bs then [⟨vH o.w2, (s.wordS o.w2 15 10).toNat, 128, .w, 2, true⟩] else [])) = .ok (w :: ws, s) := by
    cases scaled : q.bs with
    | false => exact ⟨[], footprints_ok (.cons first .nil)⟩
    | true => exact ⟨[y], footprints_ok (.cons first (.cons (copyView_read (by decide) (scales scaled)) .nil))⟩
  have sides : s.sides [(v, true)] = .ok s := sides_ok (by simp [here])
  have arm : exec (.cpdec o) s = execCpdec o s := rfl
  simp only [execCpdec, opens, record, views, sides, List.headD_cons, lm, ne_eq, not_true_eq_false, if_false,
    if_neg (Nat.not_le.mpr low), if_neg coded] at arm
  obtain ⟨t, ok, entered, -⟩ := gives_copy (n := 2) room arm
  exact ⟨t, ok, entered.1⟩

/-- An agent operation whose three views pass enters the queue between two regions (R345). -/
theorem gives_agent {s : State} {o : OpE} {i : Instr} {v w y : View} {op tw al ow rw_ : Nat}
    (room : Room s .copy o.kd.toNat) (empty : s.core.sbuf = [])
    (arm : exec i s = retire (s.issueAgent i o op tw al ow rw_)) (lm : w.kind = 0) (bank : 2 ≤ v.kind)
    (target : (if tw = 0 then s.openHandle (vH o.w1) (s.cX1 o) .at 1
      else s.readHandle (vH o.w1) (s.cX1 o) tw .at 1) = .ok (v, s))
    (operand : s.readHandle (vH o.w2) (s.wordS o.w2 15 10).toNat ow .rd 2 = .ok (y, s))
    (result : s.readHandle (vH o.w2) (s.cX2 o) rw_ .w 2 = .ok (w, s)) (aligned : s.cX1 o % al = 0)
    (steps : op = 3 → 1 ≤ (s.cC o.w3).toNat ∧ (s.cC o.w3).toNat ≤ 255) :
    Gives i s (fun t => Enqueued s t .copy i o.kd.toNat (4 + litLen o.x) ∧ NextRegion s t) := by
  have count : ¬(op = 3 ∧ ((s.cC o.w3).toNat = 0 ∨ 255 < (s.cC o.w3).toNat)) := by omega
  simp only [State.issueAgent, target, operand, result, if_neg (Nat.not_le.mpr bank), lm, ne_eq, not_true_eq_false,
    if_false, aligned, if_neg count] at arm
  obtain ⟨t, ok, entered, next⟩ := gives_copyBetween (n := 3) room empty arm
  exact ⟨t, ok, entered.1, next⟩

theorem copyAgents : CopyAgents := by
  intro o s v w y q kd reg h1 h2 x d z c rb st room
  refine ⟨fun reaches param compressed low target lm scales =>
    gives_cpdec room reaches.1 reaches.2 param compressed low target lm scales, fun empty lm bank => ?_⟩
  simp only [List.forall_mem_cons, List.not_mem_nil, false_implies, implies_true, and_true]
  refine ⟨fun target operand result aligned _ => ?_, fun target operand result aligned _ => ?_,
    fun target operand result aligned _ => ?_, fun target operand result aligned steps => ?_⟩
  · exact gives_agent (op := 0) room empty rfl lm bank target operand result aligned (fun h => nomatch h)
  · exact gives_agent (op := 1) room empty rfl lm bank target operand result aligned (fun h => nomatch h)
  · exact gives_agent (op := 2) room empty rfl lm bank target operand result aligned (fun h => nomatch h)
  · exact gives_agent (op := 3) room empty rfl lm bank target operand result aligned (fun _ => steps)

/-- Settles O38: every copy command is issued once its views have passed, at once or between two regions. -/
theorem copyIssue : Obligations.CopyIssue := ⟨copyRows, copyAgents⟩

end Sys2Proof.Machine
end

section
/-! The links between packages (16 R392): what a rack port keeps as its training ends. -/

namespace Sys2Proof.Machine

/-! ### A training port whose peer has yet to be told the measurement slots -/

/-- A rack port in TRAINING, as it is at reset but for that. -/
def trainingPort : Port := { Port.reset with state := .training }

/-- A package after reset with one measurement slot extended and its first rack port in TRAINING. -/
def measuredTraining : State :=
  { State.reset with
    trust := { Trust.reset with slots := [[1]] }
    links := { Links.reset with ports := [trainingPort] } }

/-- LINK_TRAINING_DONE reports the package's measurement slots to the peer, and the port keeps what it reported. -/
theorem linkTrainingDone_tells {s t : State} {p : Nat} {x : Port} {peer : PeerRecord} (hx : s.links.ports[p]? = some x)
    (hst : x.state = .training) (hlc : s.trust.lcNow ≠ .retired) (ht : exec (.linkTrainingDone p true peer) s = .next
    t) :
    t.links.ports[p]? =
      some { x with state := .attesting, peer := BitVec.ofNat 5 peer.pkg, rec_ := peer, told := s.trust.slots } := by
  have hp : s.port p = x := by rw [State.port, List.getD_eq_getElem?_getD, hx, Option.getD_some]
  have hlt : p < s.links.ports.length := (List.getElem?_eq_some_iff.1 hx).1
  have he : exec (.linkTrainingDone p true peer) s = execLinkTrainingDone p true peer s := rfl
  simp only [he, execLinkTrainingDone, hp, hst, State.upPort, hx, Host.Outcome.next.injEq, ne_eq, not_true_eq_false,
    if_false,
    Bool.true_and, bne_iff_ne, hlc, not_false_eq_true, if_true] at ht
  rw [← ht, List.getElem?_set_self hlt]

/-- Refutes O58: the statement says that a port that ends TRAINING keeps all but its state and its peer's record, but
the port also records the measurement slots reported to the peer (R36); here it had reported none, and the package
has one. -/
theorem not_linkEvents : ¬ Obligations.LinkEvents := by
  unfold Obligations.LinkEvents
  intro h
  obtain ⟨hports, -⟩ := h
  obtain ⟨-, htraining, -⟩ := hports 0 trainingPort ⟨0, 0, 0, []⟩ measuredTraining rfl
  obtain ⟨hdone, -, -⟩ := htraining rfl
  have hlc : measuredTraining.trust.lcNow ≠ .retired := by decide
  obtain ⟨t, ht, hport⟩ := hdone hlc
  have htold := linkTrainingDone_tells (s := measuredTraining) (p := 0) rfl rfl hlc ht
  exact absurd (hport.symm.trans htold) (by decide)

end Sys2Proof.Machine
end

section
/-! The sweeps and soft errors: stack retirement, key rotation, scrub, the slots of the calendars, patrol (12 R305, R309,
R315; 16 R397; 20 R434; 21 R435 to R458). -/

namespace Sys2Proof.Machine

/-! ### Stack retirement -/

/-- SWCAP lowers CAPACITY when no refusal of R437 applies. -/
theorem lowerCapacity_passes {s : State} {n : Nat} (fits : n ≤ s.xl.capacity / 2 ^ 25) (floor : 16384 ≤ n)
    (free : ∀ x ∈ s.xl.extents, n ≤ x.1 → x.1 < 32768 → x.2.owner = 0) (still : s.sweep.retiringNow = false) :
    s.lowerCapacity n = ({ s with xl := { s.xl with capacity := n * 2 ^ 25 } } : State).swResult 0 := by
  have none_owned : ¬s.xl.extents.any (fun p => decide (n ≤ p.1) && decide (p.1 < 32768) && p.2.owner != 0) = true := by
    simpa [List.any_eq_true] using fun a b h h1 h2 => free (a, b) h h1 h2
  rw [State.lowerCapacity, if_neg (by omega), if_neg none_owned, still, if_neg Bool.false_ne_true]

theorem gives_swcap {s : State} {v : Word} (up : s.mailOpen 32 = true) (go : v.getLsbD 63 = true)
    (fits : bits v.toNat 15 0 ≤ s.xl.capacity / 2 ^ 25) (floor : 16384 ≤ bits v.toNat 15 0)
    (free : ∀ x ∈ s.xl.extents, bits v.toNat 15 0 ≤ x.1 → x.1 < 32768 → x.2.owner = 0)
    (still : s.sweep.retiringNow = false) :
    Gives (.swcap v) s (fun x => x.xl.capacity = bits v.toNat 15 0 * 2 ^ 25 ∧ x.sweep.swCode = 0 ∧ x.mem = s.mem) := by
  refine gives_hostWrite rfl up ?_
  simp only [go, if_true, lowerCapacity_passes fits floor free still]
  exact ⟨rfl, rfl, rfl⟩

/-- Granules enter an empty window from the top until it holds 15 or reaches the staging block (R440). -/
theorem fill_window {w : Sweep} (empty : w.win = 0) :
    w.fill.win = min 15 (w.gran - 256) ∧ w.fill.win + w.fill.gran = w.gran := by
  simp only [Sweep.fill, empty]
  omega

theorem gives_swret {s : State} {v : Word} (up : s.mailOpen 32 = true) (go : v.getLsbD 63 = true)
    (passes : s.retireCheck (bits v.toNat 3 0) (bits v.toNat 24 16) = 0) :
    Gives (.swret v) s (fun x => x.sweep.phaseNum = s.sweep.phaseNum + 1 ∧
      x.sweep.retiring = some (bits v.toNat 3 0) ∧ x.sweep.swBusy = true ∧ x.sweep.stalled = 0 ∧ x.sweep.refused = 0 ∧
      x.sweep.win = min 15 (s.xl.capacity / 4096 - 256) ∧ x.sweep.win + x.sweep.gran = s.xl.capacity / 4096) := by
  refine gives_hostWrite rfl up ?_
  simp only [go, if_true, State.startRetire, passes, ne_eq, not_true_eq_false, if_false]
  exact ⟨rfl, rfl, rfl, rfl, rfl, fill_window rfl⟩

/-- The uppermost granule leaves the window once all its lines are written (R440). -/
theorem gives_granuleMoveComplete {s : State} (running : s.sweep.retiringNow = true) (unstaged : s.sweep.staged = false)
    (granules : s.sweep.staging = false) (some_ : 0 < s.sweep.win)
    (written : s.sweep.done (s.sweep.gran + s.sweep.win - 1) = 128) :
    Gives .granuleMoveComplete s (fun x =>
      x = { s with sweep := ({ s.sweep with win := s.sweep.win - 1 } : Sweep).release.fill.toStaging }) := by
  refine ⟨_, rfl, if_pos ?_⟩
  simp [running, unstaged, granules, some_, written]

theorem gives_granuleMoveComplete_window {s : State} (running : s.sweep.retiringNow = true)
    (unstaged : s.sweep.staged = false) (above : 256 < s.sweep.gran) (full : s.sweep.win = 15) :
    (s.sweep.done (s.sweep.gran + 14) = 128 → Gives .granuleMoveComplete s (fun x =>
      x.sweep.gran = s.sweep.gran - 1 ∧ x.sweep.win = 15 ∧ x.mem = s.mem)) ∧
    (s.sweep.done (s.sweep.gran + 14) ≠ 128 → Gives .granuleMoveComplete s (fun x => x = s)) := by
  have top : s.sweep.gran + s.sweep.win - 1 = s.sweep.gran + 14 := by omega
  have granules : s.sweep.staging = false := by simp [Sweep.staging, full]
  refine ⟨fun written => ?_, fun unwritten => ⟨_, rfl, if_neg ?_⟩⟩
  · obtain ⟨t, ht, rfl⟩ := gives_granuleMoveComplete running unstaged granules (by omega) (by rw [top, written])
    refine ⟨_, ht, ?_⟩
    have room : min 1 (s.sweep.gran - 256) = 1 := by omega
    simp [Sweep.toStaging, Sweep.fill, Sweep.release, full, room]
  · simp [top, unwritten]

/-- After the last granule above it the staging block enters transit. -/
theorem gives_granuleMoveComplete_last {s : State} (running : s.sweep.retiringNow = true)
    (unstaged : s.sweep.staged = false) (low : s.sweep.gran = 256) (one : s.sweep.win = 1)
    (written : s.sweep.done 256 = 128) :
    Gives .granuleMoveComplete s (fun x => x.sweep.gran = 0 ∧ x.sweep.win = 256 ∧ x.mem = s.mem) := by
  have granules : s.sweep.staging = false := by simp [Sweep.staging, one]
  obtain ⟨t, ht, rfl⟩ := gives_granuleMoveComplete running unstaged granules (by omega)
    (by rw [low, one]; exact written)
  refine ⟨_, ht, ?_⟩
  simp [Sweep.toStaging, Sweep.fill, Sweep.release, low, one]

/-- A platform write of whole lines puts its bytes. -/
theorem platformWrite_lines (s : State) {a : Nat} {bs : List Byte} (first : a % 64 = 0) (last : bs.length % 64 = 0) :
    (s.platformWrite a bs).mem.cells = memWrite s.mem.cells a bs ∧ (s.platformWrite a bs).sweep = s.sweep := by
  have covers : ∀ l ∈ linesOf a bs.length, coversLine a bs.length l = true := by
    intro l hl
    unfold linesOf at hl
    split at hl
    · exact absurd hl List.not_mem_nil
    · obtain ⟨i, hi, rfl⟩ := List.mem_map.1 hl
      have := List.mem_range.1 hi
      simp only [coversLine, Bool.and_eq_true, decide_eq_true_eq]
      omega
  have none_part : (linesOf a bs.length).find? (fun l => !coversLine a bs.length l &&
      (s.mem.poison.contains l || s.mem.faulty.contains l)) = none :=
    List.find?_eq_none.2 fun l hl => by simp [covers l hl]
  rw [State.platformWrite, none_part]
  exact ⟨rfl, rfl⟩

theorem stageBytes_length (s : State) : s.stageBytes.length = 2 ^ 20 := by simp [State.stageBytes]

theorem stageBytes_getD (s : State) {i : Nat} (h : i < 2 ^ 20) : s.stageBytes.getD i 0 = Config.stageByte s.drawn i :=
    by
  rw [List.getD_eq_getElem?_getD, State.stageBytes, List.getElem?_map, List.getElem?_range h]
  rfl

/-- The machine once the staging block has left transit, its bytes still to be put. -/
def State.unstage (s : State) : State :=
  { s with sweep := ({ s.sweep with win := 0, staged := true } : Sweep).release, drawn := s.drawn + 1 }

theorem exec_stagingBlockMove {s : State} (running : s.sweep.retiringNow = true) (unstaged : s.sweep.staged = false)
    (staging : s.sweep.staging = true) (written : ∀ g, g < 256 → s.sweep.done g = 128) :
    exec .stagingBlockMove s = .next (s.unstage.platformWrite (bmBase + s.sweep.stage * 2 ^ 25) s.stageBytes) := by
  have all : (List.range 256).all (fun g => s.sweep.done g == 128) = true :=
    List.all_eq_true.2 fun g hg => by simp [written g (List.mem_range.1 hg)]
  have arm : exec .stagingBlockMove s = execStagingBlockMove s := rfl
  simp only [arm, execStagingBlockMove, running, staging, unstaged, all, Bool.and_self, Bool.not_false, if_true,
    State.unstage]

/-- The lowest 256 granules go through the staging area, whose first 1 MiB hold their ciphertext (R440, log 37). -/
theorem gives_stagingBlockMove {s : State} (running : s.sweep.retiringNow = true) (unstaged : s.sweep.staged = false)
    (bottom : s.sweep.gran = 0) (block : s.sweep.win = 256) (written : ∀ g, g < 256 → s.sweep.done g = 128)
    (canonical : s.memOk) :
    Gives .stagingBlockMove s (fun x => x.sweep.staged = true ∧ x.sweep.win = 0 ∧
      SameOutside s x (bmBase + s.sweep.stage * 2 ^ 25) (2 ^ 20) ∧
      ∀ a, a < 2 ^ 20 → memGet x.mem.cells (bmBase + s.sweep.stage * 2 ^ 25 + a) = Config.stageByte s.drawn a) := by
  have staging : s.sweep.staging = true := by simp [Sweep.staging, bottom, block]
  have first : (bmBase + s.sweep.stage * 2 ^ 25) % 64 = 0 := by rw [bmBase]; omega
  obtain ⟨cells, sweep⟩ := platformWrite_lines s.unstage first (bs := s.stageBytes)
    (by rw [stageBytes_length]; norm_num)
  have wf : Memory.wf s.unstage.mem.cells = true := canonical
  refine ⟨_, exec_stagingBlockMove running unstaged staging written, ?_, ?_, fun c hc => ?_, fun a ha => ?_⟩
  · rw [sweep]; rfl
  · rw [sweep]; rfl
  · rw [cells, memGet_memWrite_outside _ _ _ _ (by rwa [stageBytes_length])]; rfl
  · rw [cells, memGet_memWrite_inside _ _ _ _ (by rwa [stageBytes_length]) wf, stageBytes_getD s ha]

/-- New homes for the slices of the retiring stack leave those of the others (R445). -/
theorem foldl_upd_other {t : Nat} {f : List Nat → Nat} (l : List Nat) (h : List Nat) {i : Nat}
    (other : h.getD i 0 ≠ t) :
    (l.foldl (fun h i => if h.getD i 0 = t then upd 0 h i (f h) else h) h).getD i 0 = h.getD i 0 := by
  induction l generalizing h with
  | nil => rfl
  | cons j l ih =>
    have step : (if h.getD j 0 = t then upd 0 h j (f h) else h).getD i 0 = h.getD i 0 := by
      split
      · next same => rw [getD_upd, if_neg]; rintro rfl; exact other same
      · rfl
    rw [List.foldl_cons, ih _ (by rwa [step]), step]

theorem gives_retirementEnd {s : State} {t : Nat} (stack : s.sweep.retiring = some t)
    (running : s.sweep.retiringNow = true) (staged : s.sweep.staged = true) :
    Gives .retirementEnd s (fun x =>
      x.sweep.phaseNum = s.sweep.phaseNum + 1 ∧ x.xl.surv = s.xl.surv.filter (fun y => y != t) ∧
        (∀ i, s.xl.whome.getD i 0 ≠ t → x.xl.whome.getD i 0 = s.xl.whome.getD i 0) ∧ x.sweep.swBusy = false ∧
        x.cal.staged = some (s.calAfter t) ∧ x.mem = s.mem) := by
  refine ⟨_, rfl, ?_⟩
  simp only [stack, running, staged, Bool.and_self, Bool.not_true, Bool.false_eq_true, if_false]
  refine ⟨rfl, rfl, fun i other => ?_, rfl, rfl, rfl⟩
  rw [State.raise_xl]
  dsimp only
  rw [foldl_upd_other (f := fun h => adopter (s.xl.surv.filter (fun x => x != t)) (h.filter (fun x => x != t)) t)
    (List.range 16) _ other]

/-! ### Slots of the sweep class -/

/-- A slot of the sweep class does the work of the sweep engines (R436). -/
theorem exec_sweepSlot {s : State} {p k : Nat} (code : (calBytes s.cal.installed p).getD k 0xFF = 0xC1) :
    exec (.calendarSlot p k) s = .next (s.sweepSlot p) := by
  have arm : exec (.calendarSlot p k) s = execCalendarSlot p k s := rfl
  rw [arm, execCalendarSlot, code]
  rfl

theorem sweepSlot_asked {s : State} {p l : Nat} (asked : s.askedAt p = some l) : s.sweepSlot p = s.scrubEarly l := by
  rw [State.sweepSlot, asked]

theorem sweepSlot_moves {s : State} {p g : Nat} (unasked : s.askedAt p = none) (moves : s.moveAt p = some g) :
    s.sweepSlot p = s.moveLine g := by
  rw [State.sweepSlot, unasked, moves]

theorem sweepSlot_rotates {s : State} {p t : Nat} {r : Rotation} (unasked : s.askedAt p = none)
    (still : s.moveAt p = none) (rotates : s.sweep.rot.find? (fun x => s.rotatesAt p x.2) = some (t, r)) :
    s.sweepSlot p = s.rotateLine t r := by
  rw [State.sweepSlot, unasked, still, rotates]

theorem sweepSlot_scrubs {s : State} {p : Nat} (unasked : s.askedAt p = none) (still : s.moveAt p = none)
    (unrotated : s.sweep.rot.find? (fun x => s.rotatesAt p x.2) = none) (scrubs : s.scrubsAt p = true) :
    s.sweepSlot p = s.scrubNextLine := by
  rw [State.sweepSlot, unasked, still, unrotated]
  exact if_pos scrubs

/-- The line of a granule that a slot moves is counted; one whose read fails arrives marked (R440). -/
theorem moveLine_spec (s : State) (g : Nat) :
    (s.moveLine g).sweep.done g = s.sweep.done g + 1 ∧ (s.moveLine g).mem.cells = s.mem.cells ∧
      (s.sweep.done g < 64 → 64 * g + s.sweep.done g ∈ s.mem.faulty →
        s.unscrubbed (64 * g + s.sweep.done g) = false → 64 * g + s.sweep.done g ∈ (s.moveLine g).mem.poison) := by
  refine ⟨?_, ?_, fun read fails scrubbed => ?_⟩
  · simp only [State.moveLine, Sweep.done, lookup_insertKey_self, Option.getD_some]
  · simp only [State.moveLine]
    split <;> rfl
  · simp only [State.moveLine, read, List.contains_iff_mem.2 fails, scrubbed, and_self, if_true]
    exact mem_insertNum _ _

/-- A scrubbed line holds no mark, and its bytes stay (R454). -/
theorem scrubLine_clean {s : State} {l : Nat} (unscrubbed : s.unscrubbed l = true) :
    (s.scrubLine l).cells = s.mem.cells ∧ l ∉ (s.scrubLine l).poison ∧ l ∉ (s.scrubLine l).faulty := by
  rw [State.scrubLine, if_pos unscrubbed]
  exact ⟨rfl, by simp [eraseNum], by simp [eraseNum]⟩

/-- A line scrubbed out of order is scrubbed and asked for no more (R455). -/
theorem scrubEarly_spec {s : State} {l : Nat} (unscrubbed : s.unscrubbed l = true) :
    (s.scrubEarly l).unscrubbed l = false ∧ l ∉ (s.scrubEarly l).sweep.asked ∧
      (s.scrubEarly l).mem.cells = s.mem.cells ∧ l ∉ (s.scrubEarly l).mem.poison ∧
      l ∉ (s.scrubEarly l).mem.faulty := by
  refine ⟨?_, by simp [State.scrubEarly, eraseNum], scrubLine_clean unscrubbed⟩
  have early : (s.scrubEarly l).sweep.early.contains l = true := List.contains_iff_mem.2 (mem_insertNum _ _)
  simp only [State.unscrubbed, early, Bool.not_true, Bool.and_false]

theorem unscrubbed_of_askedAt {s : State} {p l : Nat} (asked : s.askedAt p = some l) : s.unscrubbed l = true := by
  have := List.find?_some asked
  simp only [Bool.and_eq_true] at this
  exact this.2

/-- A rotation goes on to the next line of its extent (R448). -/
theorem rotateLine_spec {s : State} {t : Nat} {r : Rotation} (next : r.line + 1 < 2 ^ 19) :
    (s.rotateLine t r).rotation t = { r with line := r.line + 1 } ∧ (s.rotateLine t r).mem.cells = s.mem.cells := by
  refine ⟨?_, ?_⟩
  · simp only [State.rotation, State.rotateLine, lookup_insertKey_self, Option.getD_some, Rotation.advance, next,
      if_true]
  · simp only [State.rotateLine]
    split <;> rfl

theorem scrubNextLine_eq {s : State} {e : Nat} (extent : s.sweep.scrExt = some e) : s.scrubNextLine =
    { s with
      mem := s.scrubLine (e * 2 ^ 19 + s.sweep.scrLine)
      sweep := { s.sweep with scrLine := s.sweep.scrLine + 1 } } := by
  rw [State.scrubNextLine, extent]

/-! ### Slots of the host and of the clusters -/

/-- A slot of a cluster's burst counts it for a function at most (R472). -/
theorem slotBurst_counts (s : State) (p k : Nat) : s.slotBurst p k = { s with fns := (s.slotBurst p k).fns } := by
  have count (j : Option Job) (id : Nat) : s.countFor j id 1 = { s with fns := (s.countFor j id 1).fns } := by
    cases j <;> rfl
  unfold State.slotBurst
  split
  · rfl
  · dsimp only
    split
    · exact count _ _
    · split
      · exact count _ _
      · rfl

theorem exec_burstSlot {s : State} {p k : Nat} (sweep : (calBytes s.cal.installed p).getD k 0xFF ≠ 0xC1)
    (host : (calBytes s.cal.installed p).getD k 0xFF ≠ 0xC3) :
    exec (.calendarSlot p k) s = .next (s.slotBurst p k) := by
  have arm : exec (.calendarSlot p k) s = execCalendarSlot p k s := rfl
  have hs : ((calBytes s.cal.installed p).getD k 0xFF).toNat ≠ 0xC1 := fun e => sweep (BitVec.eq_of_toNat_eq e)
  have hh : ((calBytes s.cal.installed p).getD k 0xFF).toNat ≠ 0xC3 := fun e => host (BitVec.eq_of_toNat_eq e)
  rw [arm, execCalendarSlot]
  split
  · next e => exact absurd e hs
  · next e => exact absurd e hh
  · rfl

/-- A host slot serves the access that waits for its pseudo-channel (R397). -/
theorem gives_hostSlot {s : State} {p k f a : Nat} (code : (calBytes s.cal.installed p).getD k 0xFF = 0xC3)
    (fn : f ≤ 32)
    (waits : s.host.queue = [(f, a, none)]) (ready : s.hostReady (f, a, none) = true) (here : s.homeOf (a / 64) = p)
    (within_ : a + 64 ≤ s.xl.capacity) (good : ∀ l ∈ linesOf a 64, s.bad (s.hostKey f) l = false) :
    Gives (.calendarSlot p k) s (fun x => x.host.queue = [] ∧ x.host.access = 0 ∧ x.mem = s.mem) := by
  have below : ¬s.xl.capacity < a + hostSize (f, a, none) := by simpa [hostSize] using within_
  obtain ⟨-, free⟩ := ((hostReady_iff _ _).1 ready).resolve_left below
  have still : s.transit? a 64 = none := by simpa [State.hostWaits, below, within_, hostSize] using free
  have read : (s.served f).ordRead ((s.served f).hostKey f) a 64 0 = .ok (memRead s.mem.cells a 64) :=
    ordRead_good still good
  have served : (s.served f).hostAccess f a none = (s.served f).hostEnds 0 := by
    rw [State.hostAccess, if_neg (show ¬(s.served f).xl.capacity < _ from below)]
    simp only [read]
  have meets : (s.hostReady (f, a, none) && s.homeOf (a / 64) == p) = true := by simp [ready, here]
  have arm : exec (.calendarSlot p k) s = execCalendarSlot p k s := rfl
  have slot : exec (.calendarSlot p k) s = .next ((s.served f).hostEnds 0) := by
    rw [arm, execCalendarSlot, code]
    refine congrArg Host.Outcome.next ?_
    refine (if_pos ?_).trans ((hostServe_one a none fn waits meets).trans served)
    rw [waits, List.any_cons, meets, Bool.true_or]
  exact ⟨_, slot, rfl, rfl, rfl⟩

/-! ### Key rotation (R446 to R449) -/

theorem rotation_upRot (s : State) (t : Nat) (f : Rotation → Rotation) :
    (s.upRot t f).rotation t = f (s.rotation t) := by
  simp only [State.rotation, State.upRot, lookup_insertKey_self, Option.getD_some]

theorem gives_keyRotationStart {s : State} {t slot : Nat} {c : Ctx} (up : s.mailOpen 32 = true)
    (live : (s.xl.tid t).state = .live) (idle : (s.rotation t).act = false)
    (ctx : s.work.ctxs.find? (fun c => c.tenant == t) = some c)
    (free : s.trust.keys.findIdx? (fun k => k == none) = some slot) :
    Gives (.keyRotationStart t) s (fun x =>
      (x.rotation t).act = true ∧ (x.rotation t).num = (s.rotation t).num + 1 ∧ (x.rotation t).code = 0 ∧
      (x.rotation t).newSlot = slot ∧ (x.rotation t).newKey = s.work.nextDomain ∧
      x.trust.keys.getD slot none = some s.work.nextDomain) := by
  refine gives_hostWrite rfl up ?_
  simp only [live, ne_eq, not_true_eq_false, if_false, idle, Bool.false_eq_true, ctx, free, rotation_upRot, true_and]
  exact ⟨rfl, (getD_upd none s.trust.keys slot slot _).trans (if_pos rfl)⟩

theorem gives_keyRotationEnd {s : State} {t : Nat} (runs : (s.rotation t).act = true)
    (done : extents ≤ (s.rotation t).ext) : Gives (.keyRotationEnd t) s (fun x =>
      (x.rotation t).act = false ∧ (x.rotation t).num = (s.rotation t).num + 1 ∧
      x.trust.keys.getD (s.rotation t).oldSlot none = none ∧
      ∀ c ∈ x.work.ctxs, c.tenant = t → c.keyslot = (s.rotation t).newSlot ∧ c.key = (s.rotation t).newKey) := by
  have ends_ : ¬(!(s.rotation t).act || decide ((s.rotation t).ext < extents)) = true := by
    simp [runs, Nat.not_lt.2 done]
  refine ⟨_, congrArg Host.Outcome.next (if_neg ends_), ?_⟩
  have rotation (u : State) (n v : Nat) : (u.raise n v).rotation t = u.rotation t := rfl
  simp only [rotation, rotation_upRot, State.raise_trust, State.raise_work, true_and]
  refine ⟨rfl, (getD_upd none s.trust.keys _ _ none).trans (if_pos rfl), fun c hc tenant => ?_⟩
  obtain ⟨d, -, rfl⟩ := List.mem_map.1 hc
  by_cases mine : d.tenant = t
  · simp only [mine, if_true, and_self]
  · simp only [mine, if_false] at tenant

/-! ### Scrub (R453 to R455) -/

theorem dirty_of_dirtyFrom {x : Xlat} {n e m : Nat} (found : x.dirtyFrom n e = some m) : (x.extent m).scrub ≠ 0 := by
  induction n generalizing e with
  | zero => exact absurd found (by simp [Xlat.dirtyFrom])
  | succ n ih =>
    rw [Xlat.dirtyFrom] at found
    split at found
    · next dirty => cases found; exact dirty
    · exact ih found

theorem scrubAt_extent_ne {s : State} {e k : Nat} (other : k ≠ e) : (s.scrubAt e).xl.extent k = s.xl.extent k := by
  simp only [Xlat.extent, State.scrubAt, lookup_insertKey_ne _ _ _ _ other]

/-- A start of the scrub leaves a clean extent as it is. -/
theorem startScrubSweep_clean {s : State} {k : Nat} (clean : (s.xl.extent k).scrub = 0) :
    s.startScrubSweep.xl.extent k = s.xl.extent k := by
  unfold State.startScrubSweep
  split
  · rfl
  · split
    · next e found => exact scrubAt_extent_ne fun h => dirty_of_dirtyFrom found (h ▸ clean)
    · rfl

/-- The scrub goes on to another extent with memory and the clean extents as they are. -/
theorem scrubNext_clean {s : State} {e k : Nat} (clean : (s.xl.extent k).scrub = 0) :
    (s.scrubNext e).xl.extent k = s.xl.extent k ∧ (s.scrubNext e).mem = s.mem := by
  unfold State.scrubNext
  split
  · next n found => exact ⟨scrubAt_extent_ne fun h => dirty_of_dirtyFrom found (h ▸ clean), rfl⟩
  · exact ⟨startScrubSweep_clean clean, startScrubSweep_mem _⟩

theorem extent_insertKey (x : Xlat) (k : Nat) (e : Extent) :
    ({ x with extents := insertKey x.extents k e } : Xlat).extent k = e := by
  simp only [Xlat.extent, lookup_insertKey_self, Option.getD_some]

/-- The pass over an extent takes the marks of its unscrubbed lines. -/
theorem scrubMem_clean {s : State} {l : Nat} (unscrubbed : s.unscrubbed l = true) :
    l ∉ (s.scrubMem (extentLine l).1).poison ∧ l ∉ (s.scrubMem (extentLine l).1).faulty := by
  simp [State.scrubMem, unscrubbed]

/-- The machine once the scrub has passed extent `e`, before it goes on (R454). -/
def State.passExtent (s : State) (e : Nat) : State :=
  (({ s with
    mem := s.scrubMem e
    xl := { s.xl with extents := insertKey s.xl.extents e { s.xl.extent e with scrub := 0 } }
    sweep := { s.sweep with early := s.sweep.early.filter (fun l => (extentLine l).1 != e) } } : State).dropWatchers
      (fun w => (extentLine (w.word / 64)).1 == e)).1

theorem exec_scrubExtentDone {s : State} {k : Nat} (extent : s.sweep.scrExt = some k)
    (passed : s.sweep.passed k = true) : exec .scrubExtentDone s = .next ((s.passExtent k).scrubNext k) := by
  have arm : exec .scrubExtentDone s = execScrubExtentDone s := rfl
  simp only [arm, execScrubExtentDone, extent, passed, Bool.true_eq_false, if_false, State.passExtent]

theorem gives_scrubExtentDone {s : State} {k : Nat} (extent : s.sweep.scrExt = some k)
    (passed : s.sweep.passed k = true) :
    Gives .scrubExtentDone s (fun x =>
      (x.xl.extent k).scrub = 0 ∧ (x.xl.extent k).owner = (s.xl.extent k).owner ∧ x.mem.cells = s.mem.cells ∧
        ∀ l, (extentLine l).1 = k → s.unscrubbed l = true → l ∉ x.mem.poison ∧ l ∉ x.mem.faulty) := by
  have clean : (s.passExtent k).xl.extent k = { s.xl.extent k with scrub := 0 } := extent_insertKey s.xl k _
  obtain ⟨ext, mem⟩ := scrubNext_clean (s := s.passExtent k) (e := k) (congrArg Extent.scrub clean)
  refine ⟨_, exec_scrubExtentDone extent passed, ?_⟩
  beta_reduce
  rw [ext, mem, clean]
  refine ⟨rfl, rfl, rfl, ?_⟩
  rintro l rfl unscrubbed
  exact scrubMem_clean unscrubbed

/-! ### Refresh and patrol (R309, R315) -/

theorem gives_refreshForced (p k : Nat) (s : State) : Gives (.refreshForced p k) s (fun x => lookup x.cal.refcut p =
    some (BitVec.ofNat 32 (min 0xFFFFFFFF (((lookup s.cal.refcut p).getD 0).toNat + 1))) ∧ x.mem = s.mem) := by
  have capped (n : Nat) : satAdd 0xFFFFFFFF n 1 = min 0xFFFFFFFF (n + 1) := Nat.min_comm _ _
  refine ⟨_, rfl, ?_, ?_⟩
  · dsimp only
    rw [lookup_insertKey_self, capped]
  cases s.slotCore with
  | none => rfl
  | some c => exact countFor_mem _ _ _ _

theorem mem_patrolFinds {s : State} {u : PatrolUnit} {bad : List Nat} {l : Nat} :
    l ∈ s.patrolFinds u bad ↔ PatrolUnit.place u / 64 ≤ l ∧ l < PatrolUnit.place u / 64 + PatrolUnit.lines u ∧
      (l ∈ s.mem.faulty ∨ ∃ i ∈ bad, l = PatrolUnit.place u / 64 + i) ∧ l ∉ s.mem.poison ∧ s.unscrubbed l = false := by
  simp only [State.patrolFinds, List.mem_filter, List.mem_append, List.mem_map, Bool.and_eq_true, decide_eq_true_eq,
    Bool.not_eq_true', List.contains_eq_mem, decide_eq_false_iff_not]
  constructor
  · rintro ⟨⟨faulty, low, high⟩ | ⟨i, ⟨hi, inside⟩, rfl⟩, rest⟩
    · exact ⟨low, high, .inl faulty, rest⟩
    · exact ⟨by omega, by omega, .inr ⟨i, hi, rfl⟩, rest⟩
  · rintro ⟨low, high, faulty | ⟨i, hi, rfl⟩, rest⟩
    · exact ⟨.inl ⟨faulty, low, high⟩, rest⟩
    · exact ⟨.inr ⟨i, ⟨hi, by omega⟩, rfl⟩, rest⟩

/-- A line that a patrol found marked and logged (R315). -/
def State.patrolMark (s : State) (n l : Nat) : State :=
  ({ s with mem := s.mem.mark l } : State).logRec .poison (l * 64) n s.cycle.toNat

theorem foldl_patrolMark (n : Nat) (ls : List Nat) (s : State) :
    (∀ l, l ∈ ls ∨ l ∈ s.mem.poison → l ∈ (ls.foldl (fun s l => s.patrolMark n l) s).mem.poison) ∧
      (ls.foldl (fun s l => s.patrolMark n l) s).mem.cells = s.mem.cells ∧
      (ls.foldl (fun s l => s.patrolMark n l) s).trust.log =
        s.trust.log ++ ls.map (fun l => ⟨.poison, l * 64, n, s.cycle.toNat⟩) := by
  induction ls generalizing s with
  | nil => exact ⟨fun l h => h.resolve_left List.not_mem_nil, rfl, (List.append_nil _).symm⟩
  | cons a ls ih =>
    obtain ⟨marked, cells, log⟩ := ih (s.patrolMark n a)
    have poison (l : Nat) : l ∈ (s.patrolMark n a).mem.poison ↔ l = a ∨ l ∈ s.mem.poison := mem_insertNum_iff
    refine ⟨fun l h => marked l ?_, cells, log.trans ?_⟩
    · rw [poison]
      rw [List.mem_cons] at h
      tauto
    · have logged : (s.patrolMark n a).trust.log = s.trust.log ++ [⟨.poison, a * 64, n, s.cycle.toNat⟩] := rfl
      have cycle : (s.patrolMark n a).cycle = s.cycle := rfl
      rw [logged, cycle, List.append_assoc, List.map_cons, List.singleton_append]

theorem gives_bankPatrol (u : PatrolUnit) (bad : List Nat) (s : State) :
    Gives (.bankPatrol u bad) s (fun x => (∀ l ∈ s.patrolFinds u bad, l ∈ x.mem.poison) ∧ x.mem.cells = s.mem.cells ∧
      x.trust.log = s.trust.log ++
        (s.patrolFinds u bad).eraseDups.map (fun l => ⟨.poison, l * 64, PatrolUnit.number u, s.cycle.toNat⟩)) := by
  obtain ⟨marked, cells, log⟩ := foldl_patrolMark (PatrolUnit.number u) (s.patrolFinds u bad).eraseDups s
  exact ⟨_, rfl, fun l hl => marked l (.inl (List.mem_eraseDups.2 hl)), cells, log⟩

/-! ### Soft errors (R434, log 69) -/

theorem focus_coreAt {t : State} {n : Nat} (acts : t.coreId = n) (m : Nat) : (t.focus m).coreAt n = t.core := by
  subst acts
  unfold State.focus
  split
  · exact if_pos rfl
  · next other =>
    rw [State.coreAt, if_neg fun h => other h.symm]
    simp only [lookup_insertKey_self, Option.getD_some]

/-- The core on which an operation is carried out is as the operation leaves it. -/
theorem on_coreAt_self {s : State} {n : Nat} {f : State → State} (stays : (f (s.focus n)).coreId = n) :
    (s.on n f).coreAt n = (f (s.focus n)).core := focus_coreAt stays _

theorem focus_core (s : State) (n : Nat) : (s.focus n).core = s.coreAt n := by
  unfold State.focus State.coreAt
  split <;> rfl

/-- A trace record changes neither the acting core nor which acts. -/
theorem platformWrite_acting (t : State) (a : Nat) (bs : List Byte) :
    (t.platformWrite a bs).core = t.core ∧ (t.platformWrite a bs).coreId = t.coreId := by
  unfold State.platformWrite
  split <;> exact ⟨rfl, rfl⟩

theorem trace_acting (s : State) (kind lc sp iter : Nat) (pc : BitVec 48) :
    (s.trace kind lc sp iter pc).core = s.core ∧ (s.trace kind lc sp iter pc).coreId = s.coreId := by
  grind [State.trace, platformWrite_acting]

theorem rollBack_acting (s : State) (cause : Nat) :
    (s.rollBack cause).core = s.core.rollBack cause ∧ (s.rollBack cause).coreId = s.coreId := by
  have loop (t : State) (pc : BitVec 48) : (t.traceLoop 4 pc).core = t.core ∧ (t.traceLoop 4 pc).coreId = t.coreId := by
    unfold State.traceLoop
    split <;> exact trace_acting _ _ _ _ _ _
  obtain ⟨core, id⟩ := loop ((s.countFor s.core.job 0x51 1).upCore (fun c => c.rollBack cause))
    ((s.countFor s.core.job 0x51 1).upCore (fun c => c.rollBack cause)).core.pc
  have kept : (s.countFor s.core.job 0x51 1).core = s.core ∧ (s.countFor s.core.job 0x51 1).coreId = s.coreId := by
    cases s.core.job <;> exact ⟨rfl, rfl⟩
  exact ⟨core.trans (congrArg (Core.rollBack · cause) kept.1), id.trans kept.2⟩

/-- A soft error logged, before it has its effect (R434). -/
def State.softLogged (s : State) (x : SoftError) : State :=
  s.logRec .softError (s.softUnit x).1 (s.softUnit x).2 s.cycle.toNat

theorem gives_softCoreLogic {s : State} {k : Nat} (present : k < 768) (runs : (s.coreAt k).job.isSome = true) :
    Gives (.softError (.coreLogic k)) s (fun x =>
      (x.coreAt k).live = (s.coreAt k).ckpt ∧ (x.coreAt k).pc = (s.coreAt k).startPc ∧ (x.coreAt k).lastCause = 2) := by
  have struck : ¬s.strikes (.coreLogic k) = false := by simp [State.strikes, present]
  have arm : exec (.softError (.coreLogic k)) s =
      .next ((s.softLogged (.coreLogic k)).on k (fun s => if s.core.job.isSome then s.rollBack 2 else s)) :=
    congrArg Host.Outcome.next (if_neg struck)
  have core : ((s.softLogged (.coreLogic k)).focus k).core = s.coreAt k := focus_core _ _
  obtain ⟨rolled, id⟩ := rollBack_acting ((s.softLogged (.coreLogic k)).focus k) 2
  have back := on_coreAt_self (s := s.softLogged (.coreLogic k)) (n := k)
    (f := fun s => if s.core.job.isSome then s.rollBack 2 else s)
    (by rw [core, if_pos runs, id, State.focus_coreId])
  rw [core, if_pos runs, rolled, core] at back
  refine ⟨_, arm, ?_⟩
  beta_reduce
  rw [back]
  exact ⟨rfl, rfl, rfl⟩

theorem setCoreAt_coreAt (s : State) (n : Nat) (c : Core) : (s.setCoreAt n c).coreAt n = c := by
  unfold State.setCoreAt State.coreAt
  split
  · rfl
  · simp only [lookup_insertKey_self, Option.getD_some]

/-- The struck entry of a handle cache is dropped. -/
theorem gives_softHandleCache {s : State} {k : Nat} (e : Nat) (present : k < 768) :
    Gives (.softError (.handleCache k e)) s (fun x => ∀ h ∈ (x.coreAt k).hcache, h.entry ≠ e) := by
  have struck : ¬s.strikes (.handleCache k e) = false := by simp [State.strikes, present]
  refine ⟨_, congrArg Host.Outcome.next (if_neg struck), fun h hh => ?_⟩
  dsimp only at hh
  rw [setCoreAt_coreAt] at hh
  simpa using (List.mem_filter.1 hh).2

/-- A context declared lost is on the list no longer. -/
theorem loseContext_ctx? (s : State) (n cause : Nat) : (s.loseContext n cause).ctx? n = none := by
  rw [State.ctx?, loseContext_ctxs]
  exact List.find?_eq_none.2 fun c hc => by simpa using (List.mem_filter.1 hc).2

/-- A struck region log loses the context of the core's strand. -/
theorem gives_softRegionLog {s : State} {k : Nat} {j : Job} (present : k < 768) (runs : (s.coreAt k).job = some j) :
    Gives (.softError (.regionLog k)) s (fun x => x.ctx? j.ctx = none) := by
  have struck : ¬s.strikes (.regionLog k) = false := by simp [State.strikes, present]
  have job : ((s.softLogged (.regionLog k)).focus k).core.job = some j :=
    (congrArg Core.job (focus_core (s.softLogged (.regionLog k)) k)).trans runs
  have lost : (s.softLogged (.regionLog k)).loseOn k =
      (((s.softLogged (.regionLog k)).focus k).loseContext j.ctx 0).focus s.coreId := by
    simp only [State.loseOn, State.on, job, Option.isSome_some, if_true, State.loseOwn]
    rfl
  refine ⟨(s.softLogged (.regionLog k)).loseOn k, congrArg Host.Outcome.next (if_neg struck), ?_⟩
  have list (t : State) (m : Nat) : (t.focus m).ctx? j.ctx = t.ctx? j.ctx := by
    simp only [State.ctx?, State.focus_work]
  exact (congrArg (State.ctx? · j.ctx) lost).trans ((list _ _).trans (loseContext_ctx? _ _ _))

theorem gives_softXlateCache (k : Nat) (s : State) :
    Gives (.softError (.xlateCache k)) s (fun x => x.xl.cache = s.xl.cache.eraseIdx k) := by
  by_cases present : k < s.xl.cache.length
  · have struck : ¬s.strikes (.xlateCache k) = false := by simp [State.strikes, present]
    exact ⟨_, congrArg Host.Outcome.next (if_neg struck), rfl⟩
  · have missed : s.strikes (.xlateCache k) = false := by simp [State.strikes, present]
    exact ⟨_, congrArg Host.Outcome.next (if_pos missed), (List.eraseIdx_of_length_le (Nat.le_of_not_lt present)).symm⟩

theorem gives_softPath {s : State} {q : PathUnit} (k : Nat) (present : PathUnit.present q = true) :
    Gives (.softError (.path q [k])) s (fun x => x.ctx? k = none) := by
  have struck : ¬s.strikes (.path q [k]) = false := by simp [State.strikes, present]
  refine ⟨_, congrArg Host.Outcome.next (if_neg struck), ?_⟩
  simp only [List.foldl_cons, List.foldl_nil]
  split
  · exact loseContext_ctx? _ _ _
  · next absent => simpa using absent

theorem gives_softTrustCore (s : State) : Gives (.softError .trustCore) s (fun x => FreshPackage s x) :=
  ⟨_, rfl, packageReset_fresh (s.softLogged .trustCore)⟩

/-! ### The acts of the sweeps -/

theorem retirementActs : RetirementActs := by
  intro t p k g v s
  refine ⟨gives_swcap, gives_swret, fun shut => ?_, fun running unstaged => ⟨?_, ?_, ?_⟩, gives_retirementEnd,
    fun code unasked moves => ?_⟩
  · simp only [List.forall_mem_cons, List.not_mem_nil, false_implies, implies_true, and_true]
    exact ⟨gives_hostWrite_shut rfl shut, gives_hostWrite_shut rfl shut, gives_hostWrite_shut rfl shut⟩
  · exact gives_granuleMoveComplete_window running unstaged
  · exact gives_granuleMoveComplete_last running unstaged
  · exact gives_stagingBlockMove running unstaged
  · exact ⟨_, (exec_sweepSlot code).trans (by rw [sweepSlot_moves unasked moves]), moveLine_spec s g⟩

theorem slotActs : SlotActs := by
  intro _ p k _ _ _ bad u s
  refine ⟨fun c slot => gives_keyRotationStart, gives_keyRotationEnd, gives_scrubExtentDone, fun l code asked => ?_,
    fun code unasked still => ⟨fun rotates next => ?_, fun e unrotated scrubs extent => ?_⟩, gives_hostSlot,
    fun sweep host => ?_, gives_refreshForced p k s, fun l => mem_patrolFinds, gives_bankPatrol u bad s⟩
  · exact ⟨_, (exec_sweepSlot code).trans (by rw [sweepSlot_asked asked]),
      scrubEarly_spec (unscrubbed_of_askedAt asked)⟩
  · exact ⟨_, (exec_sweepSlot code).trans (by rw [sweepSlot_rotates unasked still rotates]), rotateLine_spec next⟩
  · refine ⟨_, (exec_sweepSlot code).trans (by
      rw [sweepSlot_scrubs unasked still unrotated scrubs, scrubNextLine_eq extent]), rfl, scrubLine_clean⟩
  · exact ⟨_, exec_burstSlot sweep host, slotBurst_counts s p k⟩

theorem softErrors : SoftErrors := fun p k _ s =>
  ⟨fun present => ⟨gives_softCoreLogic present, gives_softHandleCache p present,
    fun _ => gives_softRegionLog present⟩, gives_softXlateCache k s, gives_softPath k, gives_softTrustCore s⟩

/-- Settles O57: each act of the sweeps, of patrol and of a soft error by its own lemma. -/
theorem sweepEvents : Obligations.SweepEvents := ⟨retirementActs, slotActs, softErrors⟩

end Sys2Proof.Machine
end
